-- ==== Sys2Proof/Word.lean ====
section
/-!
DEFINITION. The byte type and byte lists.
-/
namespace Sys2Proof

/-- One byte of a structure, a buffer or the media. -/
abbrev Byte := BitVec 8

/-- A structure, message or value as its bytes, lowest address first. -/
abbrev Bytes := List Byte

end Sys2Proof
end

