-- ==== Sys2Proof/Syntax.lean ====
section
/-!
DEFINITION. The commands of the block: one constructor of `Instr` for each row of spec/opcode_table.json, with the
row's operands. An operand is what the step meets outside the device (a level on a land, a reading, the bytes a DMA
read returned, a packet, a NAND result) or the name of the thing inside it that the event concerns.
-/
namespace Sys2Proof

/-- The three transports of dictionary messages (R676: 0 mailbox, 1 T1S, 2 MCTP). -/
inductive Transport | mailbox | t1s | mctp
  deriving DecidableEq, Repr, Inhabited

/-- A dictionary message as it arrives: its transport, the requester's transport address as the 8 bytes of R676, the
message's bytes (R662), and whether a 10BASE-T1S frame went to the broadcast address (R671). -/
structure DictMsg where
  transport : Transport
  addr      : Bytes
  msg       : Bytes
  broadcast : Bool := false
  deriving DecidableEq, Repr, Inhabited

/-- What the parameter pages and the population of the attached NAND report at mount step 1 (R465). -/
structure NandGeometry where
  uniform       : Bool   -- every LUN reports the same geometry
  dataBytes     : Nat    -- page data area
  spareBytes    : Nat    -- page spare area
  pagesPerBlock : Nat
  planes        : Nat
  channels      : List Nat -- populated channel numbers
  ces           : Nat    -- chip enables per channel
  lunsPerCe     : Nat
  blocksPerLun  : Nat
  pagesPerWl    : Nat    -- pages that share one word line (R480); a property of the NAND
  bad           : List (Nat × Nat × Nat) -- factory-marked bad blocks: channel, LUN position, block
  deriving DecidableEq, Repr, Inhabited

/-- A watched line whose snoop made the DX36 read it again (R586), with what the new read returned. -/
inductive WatchedLine
  | queue (qid tail head : Nat)   -- tail line of a queue pair with TAILMODE 0
  | sink (n consumer : Nat)       -- consumer index line of a rollout sink
  deriving DecidableEq, Repr, Inhabited

/-- The purpose of a CXL.io read that failed (R579). -/
inductive DmaPurpose
  | ring (qid : Nat)              -- a ring entry or tail line
  | data (qid cid : Nat)          -- a data list or command data
  deriving DecidableEq, Repr, Inhabited

/-- The ready signal of a start-up step, with the bytes of flash attached, which step 8 sizes the system region by (R439). -/
structure StepReady where
  step     : Nat
  rawFlash : Nat
  deriving DecidableEq, Repr, Inhabited

/-- A unit that reports a fault: the logical unit of R631's UNIT and the physical unit of PHYS (R632). -/
structure FaultUnit where
  unit : Nat
  phys : Nat
  deriving DecidableEq, Repr, Inhabited

/-- A flit received: its bytes, and the codewords that FEC corrected in it (R364). -/
structure FlitIn where
  flit      : Bytes
  corrected : Nat
  deriving DecidableEq, Repr, Inhabited

/-- A queue pair's packet that R388 or R389 times: the queue pair, and its port's local counter in µs. -/
structure PairAt where
  lqpn : Nat
  us   : Nat
  deriving DecidableEq, Repr, Inhabited

/-- The pending block a compression slice serves (R221, R227). -/
inductive BlockStream
  | ingest (n : Nat)
  | sink (n : Nat)
  | exchange (crew : Nat) (data : Bytes)
  deriving DecidableEq, Repr, Inhabited

/-- Where a read met a parity error (R645): what the byte belongs to, the unit named under R646, and the address of the byte in
that unit, which is its device data address in a DRAM tier (R435). -/
inductive ParityAt
  | context (ctx : Nat) (unit : Nat) (phys : Nat) (sub : Nat) (addr : Nat)  -- a sample's read
  | batch (crew rank batch slot : Nat) (unit addr : Nat)             -- batch buffer, the row that holds the byte
  | heat (crew rank epoch heat index : Nat) (unit addr : Nat)        -- heat staging buffer
  | resident (ctx dset shard granule : Nat) (unit addr : Nat)        -- granule of a resident copy, read for a context
  | vocabulary (n : Nat) (ctx : Nat) (unit addr : Nat)
  | stream (sink stream : Nat) (unit addr : Nat)
  deriving DecidableEq, Repr, Inhabited

/-- The use of a buffer (R444). -/
inductive BufUse
  | working | batch | staging | setTable | residentGraph | residentFeature
  | portReassembly | writeWindow | relocation | vocabulary | rolloutRecord | firmware
  deriving DecidableEq, Repr, Inhabited

/-- A fault message as a block outside the model's own steps sends it (R631, R632). -/
structure FaultIn where
  unit  : Nat
  sub   : Nat
  kind  : Nat
  phys  : Nat
  crew  : Option Nat
  addr  : Nat
  count : Nat
  ctx   : Option (Nat × Nat)
  deriving DecidableEq, Repr, Inhabited

/-- What a port's training found (R345, R346). -/
structure TrainResult where
  lanesHere : Nat         -- lane mask that trained here
  lanesPeer : Nat         -- lane mask that trained at the far end
  linkUp    : Bool        -- step 4 ran within its bound; in Ryhero mode the handshake may still be on its way (R356)
  fellBack  : Bool        -- saved presets absent or failed (R700)
  deriving DecidableEq, Repr, Inhabited

/-- A RoCEv2 request packet as a port received it (R375, R390). -/
structure RocePacket where
  port     : Nat          -- port of arrival
  lqpn     : Nat
  psn      : Nat
  opcode   : Nat          -- 0 SEND First, 1 Middle, 2 Last, 3 Only; any other value an unsupported request
  payload  : Bytes
  frameLen : Nat
  tags     : Nat          -- IEEE 802.1Q tags
  icrcOk   : Bool         -- its ICRC checks
  deriving DecidableEq, Repr, Inhabited

/-- A neighbour or echo frame (R375). -/
inductive NeighbourFrame
  | arp (target : Bytes)          -- IPv4 address asked for, in IPv4-mapped form
  | solicitation (target : Bytes)
  | echo (target : Bytes) (v6 : Bool) (data : Bytes)
  | unsupported
  deriving DecidableEq, Repr, Inhabited

/-- The kinds of link reset (R597). -/
inductive LinkResetKind | conventional | hot | linkDown | flr
  deriving DecidableEq, Repr, Inhabited

/-- An SPDM request (R714, R715). -/
inductive SpdmReq
  | getVersion | getCapabilities | negotiateAlgorithms | getDigests
  | getCertificate (slot : Nat) | challenge (slot : Nat)
  | getMeasurements (index : Nat) (signed : Bool)   -- 0 asks the number, 255 asks all
  | keyExchange | finish | endSession
  | ideKeys (stream : Nat)                          -- the IDE_KM message that puts new keys of an IDE stream in force
  | other (code : Nat)
  deriving DecidableEq, Repr, Inhabited

/-- The commands, one per row of spec/opcode_table.json in the table's order. -/
inductive Instr
  | vin48Rise (decivolts : Nat)
  | pwrokRise
  | pwrokFall (reported : List Nat)
  | resetNFall (pulseNs : Nat)
  | resetNRise (mgrSel : Bool)
  | inputFault (converter decivolts : Nat)
  | inputRecovery (decivolts : Nat)
  | brownOut
  | slowclkLoss
  | regulatorFault (unit : Nat)
  | overTemperature (sensor : Nat) (deciC : Int)
  | hwThermalTrip (sensor : Nat)
  | startupStepReady (step : StepReady)
  | memoryTrainingDone (hbmFailed lpFailed : List Nat) (hbmFellBack lpFellBack : Bool)
  | cxlLinkTrained (speed width flit : Nat) (fellBack : Bool)
  | selfTestDone (engines : List Nat) (units : List (Nat × Nat))
  | startupComplete
  | startupWatchdog
  | recoveryDownload (payload : Bytes)
  | recoveryDownloadEnd (payload : Bytes)
  | mountStepReady (step : Nat) (geom : NandGeometry)
  | adminQueueCreate
  | adminQueueDelete
  | deverrClear (value : BitVec 32) (setSameCycle : Bool)
  | sqtailDoorbell (qid value : Nat)
  | cqheadDoorbell (qid value : Nat)
  | sliceDoneDoorbell (value : Nat)
  | writeWindowWrite (offset : Nat) (data : Bytes)
  | registerWrite (bar offset size value : Nat)
  | tailLineSnoop (line : WatchedLine)
  | capsuleFetch (capsule plist : Bytes)
  | completionPost (qid : Nat)
  | transferReadyGrant (qid cid first count : Nat)
  | grantTimeout (qid cid : Nat)
  | dmaReadError (purpose : DmaPurpose)
  | identify (qid cid : Nat)
  | getLog (qid cid : Nat)
  | getFeatures (qid cid : Nat)
  | firmwareDownload (qid cid : Nat)
  | firmwareCommit (qid cid : Nat)
  | queuePairCreate (qid cid : Nat)
  | queuePairDelete (qid cid : Nat)
  | abort (qid cid : Nat) (sameCycle : Bool)
  | ingestOpen (qid cid : Nat)
  | ingestClose (qid cid : Nat)
  | ingestWrite (qid cid : Nat)
  | blockCompress (stream : BlockStream)
  | crewForm (qid cid : Nat)
  | crewDissolve (qid cid : Nat)
  | crewJoin (qid cid : Nat)
  | domainForm (qid cid : Nat)
  | domainRegister (qid cid : Nat)
  | domainDissolve (qid cid : Nat)
  | catalogueRegister (qid cid : Nat)
  | catalogueRemove (qid cid : Nat)
  | vocabularyLoad (qid cid : Nat)
  | vocabularyRemove (qid cid : Nat)
  | grammarLoad (qid cid : Nat)
  | grammarRemove (qid cid : Nat)
  | rolloutSinkOpen (qid cid : Nat)
  | rolloutSinkFlush (qid cid : Nat)
  | rolloutSinkClose (qid cid : Nat)
  | queuePairSet (qid cid : Nat)
  | queuePairRemove (qid cid : Nat)
  | read (qid cid : Nat)
  | write (qid cid : Nat)
  | deallocate (qid cid : Nat)
  | secureDeallocate (qid cid : Nat)
  | flush (qid cid : Nat)
  | loadRecipe (qid cid : Nat)
  | setTablesBuilt (crew : Nat)
  | openEpoch (qid cid : Nat)
  | requestBatches (qid cid : Nat)
  | suspend (qid cid : Nat)
  | suspendDrained (crew : Nat)
  | resume (qid cid : Nat)
  | close (qid cid : Nat)
  | closeDrained (crew : Nat)
  | resetCrew (qid cid : Nat)
  | dealPosition (crew : Nat)
  | flashBlockArrive (ctx : Nat)
  | unitResultArrive (ctx : Nat)
  | workCapAbort (ctx : Nat)
  | crabBudgetExpiry (ctx : Nat)
  | sampleRelease (ctx : Nat)
  | collectorAccept (crew : Nat)
  | heatPackDone (crew rank epoch heat : Nat)
  | batchTransmitStart (crew rank : Nat)
  | rdmaAckReceive (lqpn psn : Nat)
  | cxlBatchWrite (crew rank : Nat)
  | rnrNakReceive (lqpn : Nat)
  | transportTimeout (lqpn : Nat)
  | deadlineDecision (crew rank batch : Nat)
  | parityError (at_ : ParityAt)
  | residentCopyGranule (dset shard granule : Nat)
  | bufferAllocate (use : BufUse) (holder bytes : Nat)
  | bufferFree (requester buffer : Nat)
  | ownerAdd (owner buffer : Nat)
  | poolCacheRefill (tier pool cls : Nat)
  | poolExhausted (cls tier pool : Nat)
  | quarantineTestDone (buffer : Nat) (passed : Bool)
  | nandReadComplete (space lmu stage : Nat)
  | pageProgramComplete (seq : Nat)
  | programFailure (seq : Nat)
  | wordLineTimeout (group stream : Nat)
  | eraseComplete (group sblk : Nat)
  | eraseFailure (group sblk member : Nat)
  | relocationStart (group : Nat)
  | relocationCopyDone (seq : Nat)
  | patrolRead (group sblk page stage bits : Nat)
  | patrolPositionRecord
  | lunStatusTimeout (channel pos : Nat)
  | lunFailure (channel pos : Nat)
  | rebuildStripe (group : Nat)
  | rebuildProgressRecord
  | mediaFormat (m : DictMsg)
  | mediaFormatDone
  | faultMessage (f : FaultIn) (sameCycleRemoval : Bool)
  | faultCoalesceFlush (unit : FaultUnit) (sub kind : Nat)
  | scoreHalving
  | fenceWindowExpiry (crew : Nat)
  | commonCauseWindowExpiry
  | faultInterrupt
  | faultAck (m : DictMsg)
  | portModeWrite (m : DictMsg)
  | portRetrain (m : DictMsg)
  | portTrainingComplete (port : Nat) (r : TrainResult)
  | laneLoss (port lanes : Nat)
  | handshakeFlitReceive (port : Nat) (flit : FlitIn)
  | dataFlitReceive (port : Nat) (flit : FlitIn)
  | idleFlitReceive (port : Nat) (flit : FlitIn)
  | nakFlitReceive (port : Nat) (flit : FlitIn)
  | replayTimeout (port : Nat)
  | creditReturn (port vc : Nat)
  | ryheroPacketReceive (port vc : Nat)
  | transmitFrame (port : Nat)
  | frameOverheadExpiry (port : Nat)
  | shaperBurstWrite (m : DictMsg)
  | roceSendReceive (p : RocePacket)
  | cePacketReceive (lqpn : PairAt)
  | cnpReceive (lqpn : PairAt)
  | rateRecoveryTick (lqpn : Nat)
  | pfcPauseReceive (port : Nat) (pause release : List Nat)
  | neighbourRequestReceive (port : Nat) (frame : NeighbourFrame)
  | rolloutMessage
  | rolloutFilter (sink stream : Nat)
  | rolloutRecordWritten (sink stream : Nat)
  | sinkInterrupt (sink : Nat)
  | ideIntegrityFailure (stream : Nat)
  | linkReset (kind : LinkResetKind)
  | statusReportSend
  | statusReportReceive
  | workerReportTimeout (worker : Nat)
  | workerProbationEnd (worker : Nat)
  | domainControlReceive
  | routeProbeReceive
  | prepareRequestReceive
  | preparedSampleReceive
  | exchangeDataReceive
  | shardCopyDone (dset shard : Nat)
  | managerOpenTimeout (crew : Nat)
  | powerRequestPs2 (m : DictMsg)
  | powerRequestPs3 (m : DictMsg)
  | powerRequestPs0 (m : DictMsg)
  | powerEntryQuiesced
  | powerEntryTimeout
  | ps1Entry
  | ps1Exit
  | wakeEvent (source : Nat)
  | wakeTimerExpiry
  | wakeStepReady (step : Nat)
  | padRelease (m : DictMsg)
  | thermalThrottleTick (raw : List Int)
  | powerMeasurement (watts decivolts : Nat)
  | dictionaryRead (m : DictMsg)
  | dictionaryWrite (m : DictMsg)
  | dictionaryOpen (m : DictMsg)
  | dictionaryProve (m : DictMsg)
  | dictionaryClose (m : DictMsg)
  | proveTimeout (sid : Nat)
  | sessionTimeout (sid : Nat)
  | octsSegmentTimeout (sid : Nat)
  | authLockoutExpiry (t : Transport)
  | deviceClaim (m : DictMsg)
  | keySlotWrite (m : DictMsg)
  | dictionaryDefaults (m : DictMsg)
  | dictionaryUnclaim (m : DictMsg)
  | calibrationWrite (m : DictMsg)
  | licenceInstall (m : DictMsg)
  | licenceRemove (m : DictMsg)
  | deviceResetWrite (m : DictMsg)
  | spdmRequest (t : Transport) (r : SpdmReq)
  | powerLoss
  | slowclkReturn
  | electricalIdleExit
  | interruptDelayExpiry (qid : Nat)
  | setEndpointId (eid : Nat)
  | dynamicAddressAssignment (addr : Nat)
  | missingResponse (ctx : Nat)
  | nakRepeat (port : Nat)
  | pfcPauseExpiry (port prio : Nat)
  deriving DecidableEq, Repr, Inhabited

end Sys2Proof
end

