-- ==== Sys2Proof/Decode.lean ====
section
/-!
DEFINITION. The command a word spells: spec/opcode_table.json gives none of its rows any bits, so no word spells one.
-/
namespace Sys2Proof

/-- The command that `nbits` bits `w` spell by the table: none, because no row of the table has bits. -/
def decodeTableWord (_nbits _w : Nat) : Option Instr := none

end Sys2Proof
end

