-- ==== Sys2Proof/Machine/Bytes.lean ====
section
/-!
DEFINITION. Reading and writing fields of little-endian byte lists (R6): every structure map of the spec is read and
written through these.
-/
namespace Sys2Proof

/-- The byte of a number (low eight bits). -/
def byteOf (n : Nat) : Byte := BitVec.ofNat 8 n

/-- Little-endian number of a byte list (R6). -/
def leNat : Bytes → Nat
  | [] => 0
  | b :: bs => b.toNat + 256 * leNat bs

/-- `k` little-endian bytes of a number (R6). -/
def leBytes : Nat → Nat → Bytes
  | 0, _ => []
  | k + 1, n => byteOf n :: leBytes k (n / 256)

/-- Most-significant-byte-first number of a byte list (network order, big-endian samples). -/
def beNat (bs : Bytes) : Nat := bs.foldl (fun a b => a * 256 + b.toNat) 0

/-- `k` bytes of a number, most significant first. -/
def beBytes (k n : Nat) : Bytes := (leBytes k n).reverse

/-- `len` bytes of a list from byte `off`; short at the end of the list. -/
def slice (bs : Bytes) (off len : Nat) : Bytes := (bs.drop off).take len

/-- The little-endian field of `len` bytes at byte `off`; bytes past the end read as 0. -/
def field (bs : Bytes) (off len : Nat) : Nat := leNat (slice bs off len)

/-- The bit field [hi:lo] of a structure, bit 0 the least significant bit of its first byte. -/
def bits (bs : Bytes) (hi lo : Nat) : Nat :=
  (field bs (lo / 8) (hi / 8 - lo / 8 + 1) >>> (lo % 8)) % 2 ^ (hi - lo + 1)

/-- Exactly `n` bytes: cut, or filled up with 0x00. -/
def fitTo (n : Nat) (bs : Bytes) : Bytes := bs.take n ++ List.replicate (n - bs.length) 0

/-- `n` zero bytes. -/
def zeros (n : Nat) : Bytes := List.replicate n 0

end Sys2Proof
end

