-- ==== Sys2Proof/Machine/Ecdsa.lean ====
section
/-!
DEFINITION. ECDSA verification on P-384 (FIPS 186-5, SP 800-186), which R662, R674, R676, R677, R695 and R710 call for.
-/
namespace Sys2Proof.Machine

/-- The prime of the field of P-384. -/
def p384P : Nat := 2 ^ 384 - 2 ^ 128 - 2 ^ 96 + 2 ^ 32 - 1

/-- The order of the base point. -/
def p384N : Nat := 0xffffffffffffffffffffffffffffffffffffffffffffffffc7634d81f4372ddf581a0db248b0a77aecec196accc52973

/-- The coefficient b of y² = x³ − 3x + b. -/
def p384B : Nat := 0xb3312fa7e23ee7e4988e056be3f82d19181d9c6efe8141120314088f5013875ac656398d8a2ed19d2a85c8edd3ec2aef

/-- The base point. -/
def p384G : Nat × Nat :=
  (0xaa87ca22be8b05378eb1c71ef320ad746e1d3b628ba79b9859f741e082542a385502f25dbf55296c3a545e3872760ab7,
   0x3617de4a96262c6f5d9e98bf9292dc29f8f41dbd289a147ce9da3113b5f0b8c00a60b1ce1d7e819d7a431d7c90ea0e5f)

/-- A point (x / z², y / z³); z 0 for the point at infinity. -/
structure EcPoint where
  x : Nat
  y : Nat
  z : Nat
  deriving DecidableEq, Repr, Inhabited

/-- Difference in the field. -/
def p384Sub (a b : Nat) : Nat := (a + (p384P - b % p384P)) % p384P

/-- Twice a point. -/
def EcPoint.double (a : EcPoint) : EcPoint :=
  let p := p384P
  let d := a.z * a.z % p
  let g := a.y * a.y % p
  let b := a.x * g % p
  let t := 3 * (p384Sub a.x d * (a.x + d) % p) % p
  let x := p384Sub (t * t) (8 * b)
  let w := a.y + a.z
  { x := x, y := p384Sub (t * p384Sub (4 * b) x) (8 * g * g), z := p384Sub (w * w) (g + d) }

/-- The sum of two points. -/
def EcPoint.add (a b : EcPoint) : EcPoint :=
  let p := p384P
  if a.z == 0 then b
  else if b.z == 0 then a
  else
    let za := a.z * a.z % p
    let zb := b.z * b.z % p
    let u := a.x * zb % p
    let s := a.y * (b.z * zb % p) % p
    let h := p384Sub (b.x * za) u
    let r := p384Sub (b.y * (a.z * za % p)) s
    if h == 0 then (if r == 0 then a.double else { x := 1, y := 1, z := 0 })
    else
      let hh := h * h % p
      let hhh := h * hh % p
      let v := u * hh % p
      let x := p384Sub (r * r) (hhh + 2 * v)
      { x := x, y := p384Sub (r * p384Sub v x) (s * hhh), z := h * (a.z * b.z % p) % p }

/-- The low `n` bits of `k`, most significant first, times a point, after `acc`. -/
def EcPoint.mulOn (a : EcPoint) (k : Nat) : Nat → EcPoint → EcPoint
  | 0, acc => acc
  | n + 1, acc => EcPoint.mulOn a k n (if k / 2 ^ n % 2 == 1 then acc.double.add a else acc.double)

/-- `k` times a point, for `k` below 2^384. -/
def EcPoint.mul (a : EcPoint) (k : Nat) : EcPoint := a.mulOn k 384 { x := 1, y := 1, z := 0 }

/-- The low `n` bits of `k` as an exponent of `a` modulo `m`, after `acc`. -/
def powModOn (a m k : Nat) : Nat → Nat → Nat
  | 0, acc => acc
  | n + 1, acc => powModOn a m k n (let q := acc * acc % m; if k / 2 ^ n % 2 == 1 then q * a % m else q)

/-- The inverse modulo a prime of 384 bits. -/
def invMod (a m : Nat) : Nat := powModOn a m (m - 2) 384 1

/-- R674: the point of a public key of 97 bytes, none where the key is of no such form or names no point of the curve. -/
def ecKey (key : Bytes) : Option EcPoint :=
  let x := beNat (slice key 1 48)
  let y := beNat (slice key 49 48)
  if key.length != 97 || beNat (key.take 1) != 4 || p384P ≤ x || p384P ≤ y || y * y % p384P != (x * x % p384P * x + p384Sub p384B (3 * x)) % p384P then none
  else some { x := x, y := y, z := 1 }

/-- R662: whether a signature, r and then s of 48 bytes each, over a SHA-384 digest verifies under a key. -/
@[irreducible] def ecdsaVerify (key digest sig : Bytes) : Bool :=
  let r := beNat (slice sig 0 48)
  let s := beNat (slice sig 48 48)
  match ecKey key with
  | none => false
  | some q =>
    if sig.length != 96 || r == 0 || p384N ≤ r || s == 0 || p384N ≤ s then false
    else
      let w := invMod s p384N
      let g : EcPoint := { x := p384G.1, y := p384G.2, z := 1 }
      let t := (g.mul (beNat digest * w % p384N)).add (q.mul (r * w % p384N))
      let zi := invMod t.z p384P
      t.z != 0 && t.x * (zi * zi % p384P) % p384P % p384N == r

end Sys2Proof.Machine
end

