-- ==== Sys2Proof/Config.lean ====
section
/-!
DEFINITION. What an implementation fixes and the free values: constants without a body. Nothing in Lean can evaluate one,
so a claim that mentions one holds for every value of it. notes/assumptions says which rule leaves each one open.
-/
namespace Sys2Proof

namespace Config

/-- A fresh free value each time: applied to `State.free`, which the step advances. -/
opaque freeNat : Nat → Nat

/-- R758: whether the device takes a RESET_N pulse of 1 µs to 10 µs as a device reset. -/
opaque pulseResets : Nat → Bool

/-- The maker's public key in the cox boot ROM (R676). -/
opaque makerKey : Bytes

/-- The firmware public key in the boot ROM (R695). -/
opaque firmwareKey : Bytes

/-- The licence public key in the boot ROM (R710). -/
opaque licenceKey : Bytes

/-- SHA-384 of the boot ROM (R715 block 1). -/
opaque bootRomDigest : Bytes

/-- The certificate chain of slot 0 (R714). -/
opaque certificateChain : Bytes

/-- The compressor revision of R226, 8 bits when reported. -/
opaque compressorRevision : Nat

/-- The hash that picks the matcher's chain: compressor revision, three bytes (R226). -/
opaque matchHash : Nat → Nat → Nat

/-- The code lengths that a compressor revision gives symbols of these frequencies (R222, R226). -/
opaque codeLengths : Nat → List Nat → List Nat

/-- The runs, symbols 0 to 18 with their extra bits' value, in which a compressor revision writes the code lengths of a dynamic block. -/
opaque lengthRuns : Nat → List Nat → List (Nat × Nat)

/-- R225: whether the slice's hardware made the block without a fault: table mode, original bytes. -/
opaque sliceGood : Nat → Bytes → Bool

/-- R215, R216: whether blocks decoded in a damaged MCU before its fault stand for the later scans of a progressive image: scan, restart
interval. -/
opaque jpegKeeps : Nat → Nat → Bool

/-- R209: audio frames of a stream of unknown length that end in bytes with no sound frame header: those bytes. -/
opaque flacTail : Bytes → Nat

/-- R306: of two tokens with the same string and score, whether the first named is taken. -/
opaque tieToken : Nat → Nat → Bool

/-- ADDR of kind 0x13 for a structural fault: content tag, stage index, fault code (R195). -/
opaque structuralAddr : Nat → Nat → Nat → Nat

/-- ADDR of kind 0x13 for a record that fails with no block to name (R57). -/
opaque recordAddr : Nat

/-- Factory calibration values that are bytes: object index, sub-index (R688, R690). -/
opaque factoryBytes : Nat → Nat → Bytes

/-- Factory calibration values that are I16: object index, sub-index (R688, R690). -/
opaque factoryI16 : Nat → Nat → Nat

/-- T1sMac made from the serial number, locally administered (R690). -/
opaque macOfSerial : Bytes → Bytes

/-- The serial hash of DomainMembers, 40 bits when reported: serial (R630). -/
opaque serialHash : Bytes → Nat

/-- Bytes of an SPDM 1.3 response that the spec leaves to SPDM: request code, serial (R714). -/
opaque spdmBody : Nat → Bytes → Bytes

/-- R424, R429: POS, BATCH, SIDOUT and SIDIN (0 to 3) of a page 0x34 entry of KIND 0x04, which records a failing condition (1 to 3)
and a port in places the spec does not give. -/
opaque admissionField : Nat → Nat → Nat → Nat

/-- R610: lanes of the link at a port of another device, by its serial: the domain's packets carry no widths. -/
opaque linkWidth : Bytes → Nat → Nat

/-- R616: free logical capacity of another member, by its id: the domain's packets carry none. -/
opaque memberFree : Nat → Nat

/-- R114 step 7: tokens that a position contributes when another device prepares it: sample identifier, epoch, position; the
domain's packets let a device ask for the sample, not for its count. -/
opaque remoteTokens : Nat → Nat → Nat → Nat

/-- R441: the byte that a DRAM address holds where no holder has written it since its buffer was granted: tier, device data address. -/
opaque dramOld : Nat → Nat → Byte

/-- R472: the 512 parity bytes of the DX36's own LDPC code over the bytes of a codeword. -/
opaque ldpcParity : Bytes → Bytes

end Config
end Sys2Proof
end

