-- ==== Sys2Proof/Machine/Types.lean ====
section
/-!
DEFINITION. The records the machine's state is made of, chapter by chapter. Each field's docstring names the rule of
spec/ it follows, its width where the spec gives one, and in square brackets its value in `State.reset`.
-/
namespace Sys2Proof.Machine

/-! ### What leaves the device -/

/-- R375: the requester opcodes. -/
inductive RdmaOp | writeFirst | writeMiddle | writeLast | writeOnly | writeLastImm | writeOnlyImm
  deriving DecidableEq, Repr, Inhabited

/-- R375, R377: what the headers of a sent RoCEv2 frame hold: one IEEE 802.1Q tag, hop limit 64, ECN ECT(0), UDP port 4791 and an ICRC
over the packet. -/
structure RoceFrame where
  /-- Port. -/
  port : Nat
  /-- R377 DMAC. -/
  dmac : Bytes
  /-- VLAN id of the tag; 0 for a priority tag. -/
  vid : Nat
  /-- Priority of the tag. -/
  prio : Nat
  /-- R377 IP6. -/
  v6 : Bool
  /-- Source address, 16 bytes. -/
  src : Bytes
  /-- R377 RADDR, 16 bytes. -/
  dst : Bytes
  /-- R377 DSCP. -/
  dscp : Nat
  /-- R375: ECN field: ECT(0). -/
  ecn : Nat := 2
  /-- R375: hop limit. -/
  hopLimit : Nat := 64
  /-- R375: UDP destination port. -/
  udpPort : Nat := 4791
  /-- R377 RQPN. -/
  rqpn : Nat
  deriving DecidableEq, Repr, Inhabited

/-- One thing that leaves the device: a bus write, an interrupt, a packet, a response. -/
inductive Output
  /-- R591, R536: a CXL.io memory write of `data` to host address `addr`; `relaxed` is its Relaxed Ordering bit. -/
  | dmaWrite (addr : Nat) (data : Bytes) (relaxed : Bool)
  /-- R536, R638, R592: an MSI-X message on a vector. -/
  | msix (vector : Nat)
  /-- R384: one RDMA WRITE packet: where its data land, the remote key (R381), and the four bytes of its immediate data. -/
  | rdma (lqpn psn : Nat) (op : RdmaOp) (addr rkey : Nat) (data : Bytes) (imm : Option Bytes) (f : RoceFrame)
  /-- R392: a RoCEv2 acknowledgement of a PSN. -/
  | roceAck (lqpn psn : Nat) (f : RoceFrame)
  /-- R376, R390, R392: a NAK; `rnr` for an RNR NAK, otherwise invalid request. -/
  | roceNak (lqpn psn : Nat) (rnr : Bool) (f : RoceFrame)
  /-- R388: a congestion notification packet. -/
  | cnp (lqpn : Nat) (f : RoceFrame)
  /-- R387: a PFC frame sent on a priority, pausing or releasing it. -/
  | pfc (port prio : Nat) (pause : Bool)
  /-- R355: a flit sent on a port. -/
  | flit (port : Nat) (bytes : Bytes)
  /-- R375: a neighbour or echo reply. -/
  | neighbourReply (port : Nat) (target data : Bytes)
  /-- R663: a dictionary response to a transport address. -/
  | response (t : Transport) (addr msg : Bytes)
  /-- R715: an SPDM response: request code and body; `signed` when it carries a signature. -/
  | spdm (t : Transport) (code : Nat) (body : Bytes) (signed : Bool)
  deriving DecidableEq, Repr, Inhabited

/-- A ring of log entries (R772, R220, R421): the newest last. -/
structure Ring where
  /-- Entries present, oldest first. [none] -/
  entries : List Bytes := []
  /-- R548 LOST: entries overwritten, 32 bits. [0] -/
  lost : Nat := 0
  /-- Entries ever written; the newest entry's index is one less (R548 NEWEST). [0] -/
  total : Nat := 0
  deriving DecidableEq, Repr, Inhabited

/-! ### Pins, supplies and power ("Package, lands and electrical limits", "Power states and wake") -/

/-- Why the NAND pads are held (R731, R734). -/
inductive PadHold | powerUp | pwrok | brownOut | entry | reset
  deriving DecidableEq, Repr, Inhabited

/-- Rails that can be off (R756, R759, R762, R763). -/
structure Rails where
  /-- R15: first-stage converters 0 to 3 run. [all off] -/
  converters : List Bool := [false, false, false, false]
  /-- R691 step 1: HD second-stage regulator on. [off] -/
  hd : Bool := false
  /-- R691 step 6: regulators of PD0 to PD3. [off] -/
  pd : List Bool := [false, false, false, false]
  /-- R691 step 6: regulators of ED0 and ED1. [off] -/
  ed : List Bool := [false, false]
  /-- R691 step 6: HBM3E supply. [off] -/
  hbm : Bool := false
  /-- R691 step 6: LPDDR5X supply. [off] -/
  lpddr : Bool := false
  /-- R691 step 6: NAND I/O supply. [off] -/
  nandIo : Bool := false
  deriving DecidableEq, Repr, Inhabited

/-- Lands and supplies. -/
structure Pins where
  /-- R756: VIN48 has risen to 40 V and not been lost. [low] -/
  vin48 : Bool := false
  /-- R756 step 2, R431: the always-on domain runs. [off] -/
  aon : Bool := false
  /-- R756: VAUX18 is up. [off] -/
  vaux18 : Bool := false
  /-- R691: level of PWROK. [low] -/
  pwrok : Bool := false
  /-- R758: RESET_N is high as the device takes it. [low] -/
  resetN : Bool := false
  /-- R749, R608: MGR_SEL as sampled at the last rising edge of RESET_N. [low] -/
  mgrSel : Bool := false
  /-- R752: SLOWCLK_IN has edges. [yes] -/
  slowclk : Bool := true
  /-- R731, R734: the hold on the pads and why it was taken. [none] -/
  padHold : Option PadHold := none
  /-- R731: level of ALERT_N latched at entry, `some true` for low. [none] -/
  alertHeld : Option Bool := none
  /-- R763: ALERT_N held low after an over-temperature stop. [no] -/
  alertTemp : Bool := false
  /-- R764: the hardware thermal trip holds the device off. [no] -/
  hwTrip : Bool := false
  /-- R761: the input is outside its range and the restart waits. [no] -/
  inputBad : Bool := false
  /-- Supplies. -/
  rails : Rails := {}
  /-- R766 0x300F InputVoltage, 16 bits, 0.1 V. [0] -/
  inputVoltage : Nat := 0
  /-- R766 0x3010 InputFaults, 32 bits, kept in NOR. [0] -/
  inputFaults : Nat := 0
  /-- R766 0x3804 HwThermalTrips, 32 bits, kept in NOR. [0] -/
  hwTrips : Nat := 0
  deriving DecidableEq, Repr, Inhabited

/-- Entry to PS2 or PS3 in progress (R722). -/
structure Entry where
  /-- 2 or 3. -/
  target : Nat
  /-- R725: wake sources that fired during entry. -/
  latched : Nat
  deriving DecidableEq, Repr, Inhabited

/-- Power states, wake and throttling. -/
structure Power where
  /-- R745 0x3001 PowerState: 0 to 3, 4 entering, 5 waking. [0] -/
  state : Nat := 0
  /-- R722: entry in progress. [none] -/
  entry : Option Entry := none
  /-- R735: step of the wake from PS2 that is awaited, 0 when none. [0] -/
  wakeStep : Nat := 0
  /-- R736: the sequence of R691 under way is a wake from PS3. [no] -/
  ps3Wake : Bool := false
  /-- R736: local uptime (periods) of the wake event. [0] -/
  wokeAt : Nat := 0
  /-- R730 0x3008 WakeCause, 6 bits. [0] -/
  wakeCause : Nat := 0
  /-- R745 0x3009 LastWakeTime, µs, 64 bits. [0] -/
  lastWakeTime : Nat := 0
  /-- R733: a PadRelease write held until PS0 or the following wake. [no] -/
  releasePending : Bool := false
  /-- R745 0x300B PowerEntryAborts, 32 bits. [0] -/
  entryAborts : Nat := 0
  /-- R745 0x300D PackagePower, 16 bits, W. [0] -/
  packagePower : Nat := 0
  /-- R745 0x300E BrownOuts, 32 bits, kept in NOR. [0] -/
  brownOuts : Nat := 0
  /-- R745 0x3801 Temperature of the 16 sensors, I16, 0.1 °C. [0] -/
  temps : List Int := List.replicate 16 0
  /-- R740: thermal step, 0 to 12. [0] -/
  thermalStep : Nat := 0
  /-- R740: milliseconds of margin seen since the last change. [0] -/
  coolMs : Nat := 0
  /-- R741: power step, 0 to 12. [0] -/
  powerStep : Nat := 0
  /-- R741: measurements below 95 % since the last change. [0] -/
  lowCount : Nat := 0
  /-- R745 0x3803 ThrottleEvents, 32 bits. [0] -/
  throttleEvents : Nat := 0
  deriving DecidableEq, Repr, Inhabited

/-! ### Start-up, firmware and licences -/

/-- Where the sequence of R691 stands. -/
inductive Phase
  | off                     -- waiting for the pins
  | step (n : Nat)          -- awaiting the ready signal of step 1 to 6, 7 (7a), 8 to 10
  | finishing               -- step 11: all but start-up complete
  | complete
  | recovery                -- R699
  deriving DecidableEq, Repr, Inhabited

/-- One of the two firmware slots in the NOR device (R695, R716). -/
structure FwSlot where
  /-- The stored image, header, body and signature. [empty] -/
  image : Bytes := []
  /-- R716 SlotState: 0 empty, 1 loaded, 2 verified, 3 running, 4 below counter. [0] -/
  state : Nat := 0
  deriving DecidableEq, Repr, Inhabited

/-- Start-up and firmware. -/
structure Startup where
  /-- R691: the step whose ready signal is awaited. [off] -/
  phase : Phase := .off
  /-- R691 7b: the CXL link has trained or been given up. [no] -/
  cxlDone : Bool := false
  /-- R716 0x8001 StartupCause. [0] -/
  cause : Nat := 0
  /-- Local uptime (periods) at which the sequence began. [0] -/
  began : Nat := 0
  /-- R716 0x8002 LastStartupTime, µs. [0] -/
  lastTime : Nat := 0
  /-- R716 0x8004 TrainingFallbacks, 4 bits. [0] -/
  fallbacks : Nat := 0
  /-- R701: interfaces that trained by their local state machine in this start (bits as TrainingFallbacks). [0] -/
  trainedLocal : Nat := 0
  /-- R701: interfaces whose saved settings the NOR device holds. [0] -/
  savedSettings : Nat := 0
  /-- Slot A (R695). [empty] -/
  slotA : FwSlot := {}
  /-- Slot B (R695). [empty] -/
  slotB : FwSlot := {}
  /-- R553, R696: slot committed for the next device reset (0 A, 1 B). [none] -/
  pending : Option Nat := none
  /-- R696: slot that last reached start-up complete. [0, slot A] -/
  lastGood : Nat := 0
  /-- Slot that runs (0 A, 1 B). [none] -/
  running : Option Nat := none
  /-- R697, R698: the running image came from a pending commit. [no] -/
  fromCommit : Bool := false
  /-- R697: the slot the next start must take after a fallback. [none] -/
  takeNext : Option Nat := none
  /-- R698: burned state of the 64 fuse steps, each of two fuses (0, 1 or 2 blown). [all 0] -/
  counterFuses : List Nat := List.replicate 64 0
  /-- R716 0x8014 FirmwareFallbacks, 32 bits. [0] -/
  fwFallbacks : Nat := 0
  /-- R761: fault 0x63 messages held until the cox runs: unit ids. [none] -/
  heldFaults : List Nat := []
  /-- R716 0x8021 Licences: the 8 slots, 192 bytes each or empty. [empty] -/
  licences : List Bytes := List.replicate 8 []
  /-- R716 0x8024 LicenceValid, 8 bits. [0] -/
  licenceValid : Nat := 0
  /-- R667, R670: an AEN write of 1 held until start-up completes (R583). [no] -/
  aenHeld : Bool := false
  deriving DecidableEq, Repr, Inhabited

/-- What production test fixes (R691 step 3, R706). -/
structure Fuses where
  /-- R544 ORDER: 1 DX36-A, 2 DX36-L. [1] -/
  order : Nat := 1
  /-- R544 STEP: 0xA0 or 0xB0. [0xA0] -/
  step : Nat := 0xA0
  /-- R544 SERIAL, 16 bytes. [zeros] -/
  serial : Bytes := List.replicate 16 0
  /-- R690 0x1004 IdentityKey, 97 bytes. [zeros] -/
  identityKey : Bytes := List.replicate 97 0
  /-- R706: physical engines fused off. [none] -/
  engines : List Nat := []
  /-- R706: physical eights fused off. [none] -/
  eights : List Nat := []
  deriving DecidableEq, Repr, Inhabited

/-! ### Host interface ("The storage and job command set", "CXL attachment") -/

/-- A completion-ring entry that waits to be posted (R541). SQHD and PHASE are filled at posting. -/
structure Posting where
  /-- 0 completion, 1 transfer-ready. -/
  kind : Nat
  /-- Command id, 16 bits. -/
  cid : Nat
  /-- RES0, 32 bits. -/
  res0 : Nat
  /-- STATUS, 8 bits (R575). -/
  status : Nat
  /-- JSTATE, 3 bits (R541). -/
  jstate : Nat
  /-- RES1, 24 bits. -/
  res1 : Nat
  deriving DecidableEq, Repr, Inhabited

/-- A command queue pair (R530 to R538). -/
structure QueuePair where
  /-- R532: number, 0 to 255. -/
  qid : Nat
  /-- R532: the 64-byte context. -/
  ctx : Bytes
  /-- R533, R534: submission tail index. [0 at creation] -/
  sqTail : Nat := 0
  /-- R541 SQHD: entry fetched next. [0] -/
  sqHead : Nat := 0
  /-- R533, R534: completion head index. [0] -/
  cqHead : Nat := 0
  /-- Index of the completion-ring entry written next. [0] -/
  cqTail : Nat := 0
  /-- R541 PHASE of the pass under way. [1] -/
  phase : Bool := true
  /-- R537: error state. [no] -/
  err : Bool := false
  /-- R536: entries held for room, oldest first. [none] -/
  held : List Posting := []
  /-- R532 CCOUNT: completions posted and not yet signalled. [0] -/
  unsignalled : Nat := 0
  /-- R535: entries fetched in the present round. [0] -/
  fetched : Nat := 0
  deriving DecidableEq, Repr, Inhabited

/-- What an outstanding command waits for. -/
inductive CmdWait
  | data            -- R556: its host-to-device data
  | ready           -- its own row
  | blocks          -- R563: compression of the blocks its data complete
  | sealing         -- R332, R333: the seal of a sink's shard
  | programs        -- R481, R482, R563: the page programs named by `seqs`
  | drain           -- R571, R572: transmissions of the crew
  | batches         -- R569: delivery under its grant
  | tables          -- R149: set tables being built
  | erases          -- R495: erases of superblocks
  | manager         -- R612: the manager crew's opening
  | copies          -- R616: shard copies
  | probes          -- R609: route probe answers
  deriving DecidableEq, Repr, Inhabited

/-- A fetched command that has not completed (R539, R565). -/
structure Cmd where
  /-- Queue pair. -/
  qid : Nat
  /-- Command id. -/
  cid : Nat
  /-- R535: place in fetch order over all queue pairs. -/
  order : Nat
  /-- R539: the 64-byte capsule. -/
  capsule : Bytes
  /-- R540: the data list, empty when PLIST is 0. -/
  plist : Bytes
  /-- What it waits for. -/
  wait : CmdWait
  /-- R556: bytes of host-to-device data granted so far. -/
  granted : Nat := 0
  /-- R557: data taken so far, by offset. -/
  parts : List (Nat × Bytes) := []
  /-- R480: program sequence numbers still awaited. -/
  seqs : List Nat := []
  /-- R569: batches delivered under the grant, or erases outstanding. -/
  done : Nat := 0
  /-- R569: first batch index of the grant. -/
  first : Nat := 0
  /-- Local uptime (periods) at which a wait began (R612). -/
  since : Nat := 0
  /-- R495: superblocks (group, number) still to be erased. -/
  sblks : List (Nat × Nat) := []
  deriving DecidableEq, Repr, Inhabited

/-- A transfer-ready grant (R556). -/
structure Grant where
  /-- Queue pair of the command. -/
  qid : Nat
  /-- Command id. -/
  cid : Nat
  /-- First slice, 0 to 16,383. -/
  first : Nat
  /-- Slices, 1 to 16. -/
  count : Nat
  /-- Data offset in bytes. -/
  offset : Nat
  /-- Bytes granted. -/
  len : Nat
  deriving DecidableEq, Repr, Inhabited

/-- An ingest stream (R563). -/
structure Ingest where
  /-- Stream number, 0 to 63. -/
  n : Nat
  /-- Owning crew. -/
  crew : Nat
  /-- Queue pair that opened it. -/
  qid : Nat
  /-- R222 table mode: 0 stored, 1 static, 2 dynamic. -/
  mode : Nat
  /-- DOFF, a multiple of 4,096. -/
  doff : Nat
  /-- First logical block of the shard. -/
  slba : Nat
  /-- Extent length in logical blocks. -/
  nblk : Nat
  /-- R221: original bytes not yet cut into a block. -/
  pending : Bytes := []
  /-- R51: block table entries made so far (offset, stored length, CRC). -/
  blocks : List (Nat × Nat × Nat) := []
  /-- Original bytes taken. -/
  olen : Nat := 0
  /-- End of the last stored block, from the shard's first byte. -/
  endOff : Nat := 0
  /-- R563: a WRITE would have passed the extent; only the close is accepted. -/
  closedOnly : Bool := false
  /-- WRITEs taken whose blocks are not all compressed: (qid, cid, original bytes taken up to its end). -/
  writes : List (Nat × Nat × Nat) := []
  deriving DecidableEq, Repr, Inhabited

/-- The CXL link and its host interface registers. -/
structure HostIf where
  /-- R580, R532: the 64-byte admin context at BAR0 0x2_0000. [zeros] -/
  adminCtx : Bytes := List.replicate 64 0
  /-- R582 ACTRL.AEN. [0] -/
  aen : Bool := false
  /-- R582 ASTS.ACERR. [0] -/
  acerr : Bool := false
  /-- R582 ASTS.DEVERR (W1C). [0] -/
  deverr : Bool := false
  /-- R582 DEVERR_CNT, 32 bits. [0] -/
  deverrCnt : Nat := 0
  /-- R580: MSI-X table and pending bit array of BAR4, and BAR0 bytes with no rule of their own, keyed by
  2^32 × BAR + offset, zero bytes not listed. [none listed] -/
  barBytes : List (Nat × Byte) := []
  /-- R545: negotiated command-set version. [1] -/
  negotiated : Nat := 1
  /-- Queue pairs, ascending number. [none] -/
  qps : List QueuePair := []
  /-- R535: queue pair whose turn it is in the present round. [0] -/
  turn : Nat := 0
  /-- R535: entries fetched since reset, the next command's place in fetch order. [0] -/
  fetches : Nat := 0
  /-- Outstanding commands in fetch order. [none] -/
  cmds : List Cmd := []
  /-- R556: outstanding grants. [none] -/
  grants : List Grant := []
  /-- R559, R560: slices of timed-out or withdrawn grants: (first, count, local uptime of the withdrawal). [none] -/
  sliceHold : List (Nat × Nat × Nat) := []
  /-- R557: bytes of the write window, 1 GiB, zero bytes not listed. [zeros] -/
  window : List (Nat × Byte) := []
  /-- R576 0x4810 StrayWindowWrites, 32 bits. [0] -/
  strayWrites : Nat := 0
  /-- R586: watched lines held by the device cache: 0 + qid, 256 + sink. [none] -/
  watched : List Nat := []
  /-- R337: sinks that have closed with events not yet signalled, and their vectors. [none] -/
  sinkSignals : List (Nat × Nat) := []
  /-- R586: submission-entry lines held by the device cache, newest first. [none] -/
  cacheLines : List Nat := []
  /-- R598 0x4800 CxlSpeed, GT/s. [0] -/
  speed : Nat := 0
  /-- R598 0x4801 CxlWidth, lanes. [0] -/
  width : Nat := 0
  /-- R598 0x4802 CxlFlit. [0, down] -/
  flit : Nat := 0
  /-- R691 7b, R705: the link is training. [no] -/
  training : Bool := false
  /-- R578: the link was already retrained after a x2 or x1 width. [no] -/
  narrowTried : Bool := false
  /-- R578: left down until the next conventional reset. [no] -/
  leftDown : Bool := false
  /-- R598 0x4803 IdeState: 0 off, 1 secure, 2 insecure. [0] -/
  ide : Nat := 0
  /-- R596: streams in the insecure state. [none] -/
  insecure : List Nat := []
  /-- R598 0x4804 DmaReadErrors, 32 bits. [0] -/
  dmaErrors : Nat := 0
  /-- R598 0x4805 LinkResets, 32 bits. [0] -/
  linkResets : Nat := 0
  /-- R577, R591: Max_Payload_Size of the function's Device Control register, bytes. [128] -/
  maxPayload : Nat := 128
  /-- R591: Relaxed Ordering is enabled in the function's Device Control register. [enabled] -/
  relaxedOrdering : Bool := true
  /-- R563: ingest streams. [none] -/
  ingests : List Ingest := []
  deriving DecidableEq, Repr, Inhabited

/-! ### Datasets, vocabularies and grammars -/

/-- A catalogue entry (R61, R62, R80). -/
structure Dataset where
  /-- Dataset number, 1 to 65,535. -/
  dset : Nat
  /-- R40 kind. -/
  kind : Nat
  /-- R59: the stored manifest. -/
  manifest : Bytes
  /-- R60: manifest hash, 48 bytes; empty before the first generation of a rollout dataset (R312). -/
  mhash : Bytes
  /-- R59 GEN, 64 bits. -/
  gen : Nat
  /-- R62: placement: shard number and first logical block, manifest order. -/
  place : List (Nat × Nat)
  deriving DecidableEq, Repr, Inhabited

/-- A loaded vocabulary (R299, R300). -/
structure Vocab where
  /-- Number, 1 to 16. -/
  num : Nat
  /-- The image. -/
  image : Bytes
  /-- R300: table hash, 48 bytes. -/
  hash : Bytes
  deriving DecidableEq, Repr, Inhabited

/-- A loaded grammar (R325). -/
structure Grammar where
  /-- Number, 1 to 64. -/
  num : Nat
  /-- The image. -/
  image : Bytes
  deriving DecidableEq, Repr, Inhabited

/-! ### Samples, jobs and crews -/

/-- A value in a slot of a sample (the kinds of "Recipes"). Elements are their bit patterns. -/
inductive Val
  | null
  | scalar (t v : Nat)
  | bytes (tag : Nat) (b : Bytes)
  | text (b : Bytes)
  | tokens (ids : List Nat)
  | tensor (et : Nat) (dims : List Nat) (els : List Nat)
  | image (h w c et : Nat) (els : List Nat)
  | audio (frames ch et : Nat) (els : List Nat)
  | mx (fmt count dim0 : Nat) (b : Bytes)
  | subgraph (nodes : List Nat) (nmax vcount : Nat) (b : Bytes)
  deriving DecidableEq, Repr, Inhabited

/-- The fields of a sample header (R239), before its CRC. -/
structure Hdr where
  /-- CONCEALED -/
  concealed : Bool := false
  /-- SUBSTITUTED -/
  substituted : Bool := false
  /-- TRUNCATED -/
  truncated : Bool := false
  /-- SPLIT -/
  split : Bool := false
  /-- PROBATION -/
  probation : Bool := false
  /-- ATTEMPT -/
  attempt : Nat := 0
  /-- NULLMASK -/
  nullmask : Nat := 0
  /-- EPOCH -/
  epoch : Nat := 0
  /-- SID -/
  sid : Nat := 0
  /-- POS -/
  pos : Nat := 0
  /-- BATCH -/
  batch : Nat := 0
  /-- RANK -/
  rank : Nat := 0
  /-- SLOT -/
  slot : Nat := 0
  /-- SEGID -/
  segid : Nat := 0
  /-- PIECE -/
  piece : Nat := 0
  /-- TOKOFF -/
  tokoff : Nat := 0
  /-- PLEN -/
  plen : Nat := 0
  /-- SUBOF -/
  subof : Nat := 0
  /-- RCRC -/
  rcrc : Nat := 0
  deriving DecidableEq, Repr, Inhabited

/-- What a sample contributes (R232): a row, or the tokens of a position. -/
inductive Contribution
  | row (b : Bytes)
  | toks (ids : List Nat)
  deriving DecidableEq, Repr, Inhabited

/-- States of a context other than FREE (R165). -/
inductive CtxState
  | run
  | waitFlash      -- WAIT for the record's blocks
  | waitUnit       -- WAIT for a fixed-function unit, walk unit or the text unit
  | release        -- RELEASE, nothing sent yet
  | sent           -- RELEASE, the release is at the collector under a credit (R264)
  deriving DecidableEq, Repr, Inhabited

/-- R263: where the bytes of a sample made again are rewritten: a row of a batch, or an index of a heat. -/
inductive RewriteAt
  | row (rank k slot : Nat)
  | item (rank epoch heat idx : Nat)
  deriving DecidableEq, Repr, Inhabited

/-- A hardware context that holds a sample (R165, R166). -/
structure Context where
  /-- R19: context number, 0 to 16,383. -/
  num : Nat
  /-- R165 state. -/
  st : CtxState
  /-- Crew of the sample. -/
  crew : Nat
  /-- Rank of the position. -/
  rank : Nat
  /-- Epoch filled. -/
  epoch : Nat
  /-- Position filled. -/
  pos : Nat
  /-- R106 attempt: 0 for the original, a + 1 for substitute attempt a. -/
  tries : Nat
  /-- Sample identifier. -/
  sid : Nat
  /-- R239 SUBOF: the identifier the permutation gives for the position. -/
  origSid : Nat
  /-- Descriptor index of the next stage. -/
  stage : Nat := 0
  /-- Slots written (R123). -/
  slots : List (Nat × Val) := []
  /-- Computed values C0 to C15, 64-bit signed. [0] -/
  cvals : List Int := List.replicate 16 0
  /-- R152 work-unit counter. [0] -/
  work : Nat := 0
  /-- R175: stage whose charge first passed WCAP. [none] -/
  capStage : Option Nat := none
  /-- R172: the sample is a crab. [no] -/
  crab : Bool := false
  /-- R219: a decode stage concealed damage. [no] -/
  concealed : Bool := false
  /-- R647: makings discarded for parity. [0] -/
  retries : Nat := 0
  /-- R647: logical engines of earlier makings. [none] -/
  avoid : List Nat := []
  /-- R58 RCRC of the record. [0] -/
  rcrc : Nat := 0
  /-- RLEN of the record. [0] -/
  rlen : Nat := 0
  /-- The record's field values (R53), for FIELD. [none] -/
  fields : List Val := []
  /-- R232: the contribution, once complete. [none] -/
  out : Option Contribution := none
  /-- Header flags of the contribution. -/
  hdr : Hdr := {}
  /-- R653: this making serves on a unit on probation and a peer makes the sample too. [no] -/
  probation : Bool := false
  /-- R653: this is the peer making of the context named. [none] -/
  peerOf : Option Nat := none
  /-- R617: the device and tag that asked for the sample. [none] -/
  remote : Option (Nat × Nat) := none
  /-- R613: the sample is prepared by another device under this tag. [none] -/
  askedTag : Option Nat := none
  /-- R102: the device that prepares it. [none] -/
  via : Option Nat := none
  /-- R627: two members prepare it and their results are compared. [no] -/
  doubled : Bool := false
  /-- R653: SUBs of the eight-shared units that served it. [none] -/
  used : List Nat := []
  /-- R219: stages whose findings are logged and counted, kept when the sample is made again. [none] -/
  logged : List Nat := []
  /-- R107: the position's attempts are all dropped and the sample is its empty contribution. [no] -/
  exhausted : Bool := false
  /-- R263: its bytes are rewritten in place. [none] -/
  rewrite : Option RewriteAt := none
  deriving DecidableEq, Repr, Inhabited

/-- R263, R647: a sample made again because a read of its row or staged contribution met a parity error. -/
structure Rewrite where
  /-- Slot of the row, or index in the heat. -/
  place : Nat
  /-- Epoch of its position. -/
  epoch : Nat
  /-- Its position. -/
  pos : Nat
  /-- Makings discarded for parity so far. -/
  retries : Nat
  /-- Logical engines of its latest makings. -/
  avoid : List Nat
  /-- Its bytes are not rewritten yet. -/
  awaited : Bool
  deriving DecidableEq, Repr, Inhabited

/-- Where the delivery of a batch stands (R234, R384, R591). -/
inductive TxState
  | idle                  -- not started
  | sending               -- rows and headers under way
  | rows (lastPsn : Nat)  -- rows and headers sent, last PSN awaited (R384)
  | sendingDesc           -- the descriptor waits in its transmit queue
  | desc (psn : Nat)      -- descriptor sent, its acknowledgement awaited
  deriving DecidableEq, Repr, Inhabited

/-- A batch under assembly or delivery (R236, R260). -/
structure Batch where
  /-- Rank. -/
  rank : Nat
  /-- Batch index k. -/
  k : Nat
  /-- Rows present, by slot. -/
  rows : List (Nat × Bytes) := []
  /-- Headers present, ascending slot and segment id (R238). -/
  hdrs : List Hdr := []
  /-- R240 PADTOK of the rows present. -/
  pad : Nat := 0
  /-- R260: the descriptor, once closed, 128 bytes. -/
  desc : Option Bytes := none
  /-- Delivery. -/
  tx : TxState := .idle
  /-- R263: rows met by a parity error. [none] -/
  rewrites : List Rewrite := []
  deriving DecidableEq, Repr, Inhabited

/-- The staging of a pack-sequence heat (R235, R259). -/
structure Heat where
  /-- Rank. -/
  rank : Nat
  /-- Epoch. -/
  epoch : Nat
  /-- Heat index. -/
  heat : Nat
  /-- Accepted contributions by index i; an empty token list contributes nothing (R253). -/
  items : List (Nat × Hdr × List Nat) := []
  /-- R418: crab decisions of this heat not yet logged: (epoch, position, displaced id). -/
  choices : List (Nat × Nat × Nat) := []
  /-- R263: contributions met by a parity error. [none] -/
  rewrites : List Rewrite := []
  /-- R259, R261: rows written so far, once packing has begun. [not begun] -/
  packed : Option Nat := none
  deriving DecidableEq, Repr, Inhabited

/-- What a crew keeps for one rank it delivers. -/
structure RankJob where
  /-- Rank. -/
  rank : Nat
  /-- R381: its delivery target, 32 bytes. -/
  target : Bytes
  /-- R167: epoch dealt next. -/
  epoch : Nat
  /-- R167: rank-local position dealt next. -/
  q : Nat
  /-- Rows dealt or skipped since e0 (pack-fixed row number dealt next). -/
  dealt : Nat
  /-- R234: batch transmitted next. -/
  next : Nat
  /-- Batches delivered since OPEN EPOCH. -/
  delivered : Nat := 0
  /-- R569: batches below this index are granted. -/
  granted : Nat
  /-- Row counts of packed heats (epoch, heat, rows), pack-sequence, in row-stream order. -/
  heats : List (Nat × Nat × Nat) := []
  /-- Row-stream row number at which `heats` begins. -/
  base : Nat := 0
  /-- R116: rows of the first heat before a resume token's ROWOFF, discarded. -/
  skip : Nat := 0
  /-- R116: the heat (epoch, index) that a resumed rank makes again without timing-dependent choices. [none] -/
  resumed : Option (Nat × Nat) := none
  /-- R98: rows discarded at the end. -/
  dropped : Nat := 0
  /-- R425: local uptime (periods) of the grant of each granted batch not yet delivered, by index. -/
  grantedAt : List (Nat × Nat) := []
  deriving DecidableEq, Repr, Inhabited

/-- R416, R426: the accepted sample of a heat with the lowest index so far. -/
structure Source where
  /-- Rank. -/
  rank : Nat
  /-- Epoch. -/
  epoch : Nat
  /-- Heat index. -/
  heat : Nat
  /-- Index in the heat. -/
  idx : Nat
  /-- Its header. -/
  hdr : Hdr
  /-- What it contributed. -/
  out : Contribution
  deriving DecidableEq, Repr, Inhabited

/-- A crew's open job (R568). -/
structure Job where
  /-- R566 open block, 128 bytes. -/
  block : Bytes
  /-- Queue pair that carried OPEN EPOCH (R592). -/
  qid : Nat
  /-- R406 settings block, 256 bytes. -/
  settings : Bytes
  /-- R85 seed, 128 bits; a worker's comes from its manager (R101). -/
  seed : Nat
  /-- R93 heat size H. -/
  h : Nat
  /-- R42: manifest generation the job reads. -/
  manifest : Bytes
  /-- R62: placement of its shards. -/
  place : List (Nat × Nat)
  /-- R191 Lookahead latched at opening. -/
  lookahead : Nat
  /-- R191 CrabFactor latched at opening. -/
  crabFactor : Nat
  /-- R271 CollectorCredits latched at opening. -/
  credits : Nat
  /-- R403 CrewQueue latched at opening. -/
  queue : Nat
  /-- R227: ExchangeCompression at opening: the table mode of the samples it sends. -/
  exchange : Nat := 0
  /-- Its ranks. -/
  ranks : List RankJob
  /-- Batches not yet delivered. -/
  batches : List Batch := []
  /-- Heats not yet packed. -/
  heats : List Heat := []
  /-- R173: positions already counted as crabs (epoch, position). -/
  crabs : List (Nat × Nat) := []
  /-- R416: crabs that await a source (context numbers). -/
  waiting : List Nat := []
  /-- R416, R426: accepted samples of lowest index so far, one per rank, epoch and heat. [none] -/
  sources : List Source := []
  /-- R266: logical engine (or 1,000 + device) served last. -/
  served : Nat := 0
  /-- Releases at the collector, by context number. -/
  releases : List Nat := []
  /-- R25, R169: samples to be made again that wait for a FREE context, oldest first. [none] -/
  again : List Context := []
  /-- R101: the latest epoch boundary distributed by the manager, or taken from it. [0] -/
  boundary : Nat := 0
  /-- R423: admission held (R433 TimedAdmitted). -/
  admitted : Bool := false
  /-- R571: dealing and new transmissions are stopped. -/
  stopped : Bool := false
  /-- Job number in the domain (R611). -/
  domainJob : Option Nat := none
  /-- R613: every rank of the domain job is claimed and dealing may begin. -/
  dealing : Bool := true
  deriving DecidableEq, Repr, Inhabited

/-- A set table (R149). -/
structure SetTable where
  /-- Bound dataset. -/
  dset : Nat
  /-- Key size in bytes: 4 or 8. -/
  keyBytes : Nat
  /-- Slots, a power of two. -/
  slots : Nat
  /-- Occupied slots and their keys. -/
  keys : List (Nat × Nat)
  deriving DecidableEq, Repr, Inhabited

/-- A loaded recipe. -/
structure Recipe where
  /-- R117: the image. -/
  image : Bytes
  /-- R118: the recipe hash, 48 bytes. -/
  hash : Bytes
  /-- R127, R243: resolved column lengths (pack-fixed). -/
  lens : List Nat
  /-- R241: column format codes. -/
  fmts : List Nat
  /-- R149: set tables built. -/
  tables : List SetTable
  /-- R82: the job dataset's manifest as it was loaded. -/
  man : Bytes
  /-- R62: the placement of its shards then. -/
  place : List (Nat × Nat)
  deriving DecidableEq, Repr, Inhabited

/-- A formed crew (R599). -/
structure Crew where
  /-- Crew number, 0 to 63. -/
  num : Nat
  /-- R564 state code: 0 EMPTY to 5 DRAINED. -/
  state : Nat
  /-- R630 CrewEights: its logical eights, ascending. -/
  eights : List Nat
  /-- R605: generation number of its endpoints. -/
  gen : Nat := 0
  /-- Loaded recipe. -/
  recipe : Option Recipe := none
  /-- R149, R156: the recipe that passed checks 1 to 12 and whose set tables are being built. -/
  loading : Option Recipe := none
  /-- Open job. -/
  job : Option Job := none
  /-- R773: the latest rejection, 64 bytes. -/
  rejection : Option Bytes := none
  /-- R548 page 0x35, 16-byte entries written at DRAINED. -/
  drained : List Bytes := []
  /-- R611: domain job joined. -/
  domainJob : Option Nat := none
  /-- R412 CrewFingerprint when it differs from the job's. -/
  fprint : Option Bytes := none
  /-- R191 CrabCount, 32 bits. -/
  crabCount : Nat := 0
  /-- R191 CapAborts, 32 bits. -/
  capAborts : Nat := 0
  /-- R230 ConcealedSamples, 32 bits. -/
  concealed : Nat := 0
  /-- R230 DamageDrops, 32 bits. -/
  damageDrops : Nat := 0
  /-- R271 PadTokens, 64 bits. -/
  padTokens : Nat := 0
  /-- R271 TruncatedSamples, 32 bits. -/
  truncated : Nat := 0
  /-- R271 BatchesClosed, 64 bits. -/
  closed : Nat := 0
  /-- R297 GraphDrops, 32 bits. -/
  graphDrops : Nat := 0
  /-- R340 TokenizeTruncations, 32 bits. -/
  tokTrunc : Nat := 0
  /-- R419 TimingChoices, 64 bits. -/
  choices : Nat := 0
  /-- R433 TimedMisses, 32 bits. -/
  timedMisses : Nat := 0
  /-- R288: residency requested at LOAD RECIPE (GraphResidency latched). -/
  residency : Nat := 0
  /-- R293: graph sampling allowed until EMPTY. -/
  graphAllowed : Bool := false
  deriving DecidableEq, Repr, Inhabited

/-- A resident copy of an array shard (R288). -/
structure Resident where
  /-- Dataset. -/
  dset : Nat
  /-- Shard. -/
  shard : Nat
  /-- Granules that are resident. -/
  granules : List Nat
  deriving DecidableEq, Repr, Inhabited

/-! ### Rollouts -/

/-- A generation stream (R315 to R323). -/
structure Stream where
  /-- Sink. -/
  sink : Nat
  /-- Stream number. -/
  num : Nat
  /-- prompt_id. -/
  prompt : Nat
  /-- Last SEQ. -/
  seq : Nat
  /-- Token ids consumed. -/
  tokens : List Nat := []
  /-- R315: carry of an incomplete UTF-8 sequence, up to 3 bytes. -/
  carry : Bytes := []
  /-- R319: held tail, up to 63 bytes. -/
  held : Bytes := []
  /-- Released text. -/
  text : Bytes := []
  /-- R318: substitutions. -/
  nbad : Nat := 0
  /-- R318: offset of the first substitution. -/
  badOff : Option Nat := none
  /-- R316: invalid token ids. -/
  nbadTok : Nat := 0
  /-- R320: tokens discarded after the end. -/
  ndisc : Nat := 0
  /-- R323: end reason, once ended. -/
  ended : Option Nat := none
  /-- R320: stop string index. -/
  stopIdx : Option Nat := none
  /-- R320: offset of the stop string. -/
  stopOff : Option Nat := none
  /-- R327 verdict, once ended. -/
  verdict : Nat := 0
  /-- R328: filtered and kept, awaiting write-back. -/
  kept : Bool := false
  deriving DecidableEq, Repr, Inhabited

/-- A shard that its sink seals, until it is durable (R80, R336). -/
structure Seal where
  /-- Shard number. -/
  shard : Nat
  /-- First logical block of the shard. -/
  start : Nat
  /-- Records. -/
  count : Nat
  /-- SLEN. -/
  slen : Nat
  /-- HCRC. -/
  hcrc : Nat
  /-- ICRC. -/
  icrc : Nat
  /-- Program sequence numbers of the shard's pages and of its catalogue record. -/
  seqs : List Nat
  deriving DecidableEq, Repr, Inhabited

/-- A rollout sink (R310). -/
structure Sink where
  /-- Sink number. -/
  num : Nat
  /-- R310: header, stop strings and filter program as opened. -/
  image : Bytes
  /-- R335: FULL. -/
  full : Bool := false
  /-- Number of the open shard. -/
  shard : Nat
  /-- First logical block of the open shard's reservation (R330). -/
  base : Nat
  /-- Records of the open shard: index entries (offset, length, CRC). -/
  index : List (Nat × Nat × Nat) := []
  /-- R221: original bytes not yet cut into a block. -/
  pending : Bytes := []
  /-- Original bytes of the open shard. -/
  olen : Nat := 0
  /-- Blocks stored: (offset from the data area, stored length, CRC). -/
  blocks : List (Nat × Nat × Nat) := []
  /-- End of the stored blocks in the data area. -/
  endOff : Nat := 0
  /-- R337: next ring entry. -/
  ringNext : Nat := 0
  /-- R337: event PHASE. -/
  phase : Bool := true
  /-- R337: consumer index last read. -/
  consumer : Nat := 0
  /-- Events not yet signalled. -/
  unsignalled : Bool := false
  /-- R336: shards being sealed, oldest first. [none] -/
  seals : List Seal := []
  /-- R333: it closes once they are sealed. [no] -/
  closing : Bool := false
  /-- R340 RolloutsWritten, 64 bits. -/
  written : Nat := 0
  /-- R340 RolloutsFiltered, 32 bits. -/
  filtered : Nat := 0
  /-- R340 StreamsAborted, 32 bits. -/
  aborted : Nat := 0
  /-- R340 EventsLost, 32 bits. -/
  eventsLost : Nat := 0
  /-- R222 table mode at opening. -/
  mode : Nat := 2
  /-- R325: the image of its grammar, empty for none. -/
  grammar : Bytes := []
  deriving DecidableEq, Repr, Inhabited

/-! ### Buffer pools -/

/-- Who pays for a buffer (R444, R456). -/
inductive Payer
  | crew (n : Nat)
  | port (n : Nat)
  | qp (n : Nat)
  | none
  deriving DecidableEq, Repr, Inhabited

/-- What a live buffer is for, so that its holder can name it. -/
inductive BufRef
  | context (n : Nat)
  | batch (crew rank k : Nat)
  | heat (crew rank epoch heat : Nat)
  | reserve (crew rank i : Nat)
  | setTable (crew dset : Nat)
  | resident (dset shard : Nat)
  | window (qid cid first : Nat)
  | ingress (port : Nat)
  | retry (lqpn psn : Nat)   -- R385: a reset crew's batch whose packets up to `psn` are still retried
  | left (handle : Nat)      -- R452: its holder has left it, and other owners have not
  | other (n : Nat)
  deriving DecidableEq, Repr, Inhabited

/-- A live allocation: one buffer or a chain (R446), with its owners (R451). -/
structure Buf where
  /-- Handle. -/
  id : Nat
  /-- What it is for. -/
  ref : BufRef
  /-- R444: its use. -/
  use : BufUse
  /-- Tier: 0 HBM3E, 1 LPDDR5X. -/
  tier : Nat
  /-- Its buffers: (pool, index). -/
  parts : List (Nat × Nat)
  /-- Bytes charged (R455). -/
  bytes : Nat
  /-- R451: owner ids; several when shared. -/
  owners : List Nat
  /-- R455: whose quota each owner's charge lies on, in the owners' order. -/
  payers : List Payer
  /-- R462: those of its buffers that yielded a parity error. -/
  suspect : List (Nat × Nat) := []
  deriving DecidableEq, Repr, Inhabited

/-- A pool of a tier (R440, R448). -/
structure Pool where
  /-- Tier: 0 HBM3E, 1 LPDDR5X. -/
  tier : Nat
  /-- Pool number, 0 to 5. -/
  n : Nat
  /-- R463 PoolBuffers, 32 bits. -/
  total : Nat
  /-- R448: the ring holds the never-taken buffers from this index up, then `back`. -/
  fresh : Nat := 0
  /-- R448: returned buffers at the ring's end, oldest first. -/
  back : List Nat := []
  /-- R448: the caches of the seven requester classes. -/
  caches : List (List Nat) := [[], [], [], [], [], [], []]
  /-- R463 PoolFallbacks, 64 bits. -/
  fallbacks : Nat := 0
  /-- R462: buffers retired until device reset; R463 PoolRetired counts them. -/
  gone : List Nat := []
  /-- R462: quarantined buffers under test. -/
  quarantine : List Nat := []
  deriving DecidableEq, Repr, Inhabited

/-- An allocation that waits (R447). -/
structure BufWait where
  /-- Use. -/
  use : BufUse
  /-- Holder. -/
  holder : Nat
  /-- Size. -/
  bytes : Nat
  /-- What the buffer is for, where its holder names it. -/
  ref : Option BufRef := none
  deriving DecidableEq, Repr, Inhabited

/-- The buffer pool manager. -/
structure Pools where
  /-- R439 SystemRegion, GB, 32 bits. [0] -/
  systemRegion : Nat := 0
  /-- R702: stacks left out of the pools. [none] -/
  hbmOut : List Nat := []
  /-- R703: packages left out. [none] -/
  lpOut : List Nat := []
  /-- Pools of both tiers. [none before they are carved] -/
  pools : List Pool := []
  /-- Live buffers. [none] -/
  bufs : List Buf := []
  /-- Next handle. [0] -/
  next : Nat := 0
  /-- R463 TierFallbacks of the two tiers, 64 bits. [0] -/
  tierFallbacks : List Nat := [0, 0]
  /-- R447: requests that wait. [none] -/
  waiting : List BufWait := []
  /-- R449: requester class served last. [0] -/
  turn : Nat := 0
  deriving DecidableEq, Repr, Inhabited

/-! ### Media -/

/-- A page's place: group, superblock, member, page index in the block. -/
structure Loc where
  /-- Group. -/
  g : Nat
  /-- Superblock. -/
  k : Nat
  /-- Member, 0 to 15. -/
  m : Nat
  /-- Page index in the block. -/
  p : Nat
  deriving DecidableEq, Repr, Inhabited

/-- Progress of a page program (R480). A host page that is not whole yet is what the media write buffer of R481 holds. -/
inductive ProgState
  | issued     -- given to the NAND
  | reported   -- reported success
  | whole      -- its word line is whole: it counts as programmed
  | failed     -- its program failed or was cut short: what it holds fails its checks (R484, R502)
  deriving DecidableEq, Repr, Inhabited

/-- R464: the ONFI 5.1 commands the DX36 uses, and no others; a read or a program names its page index within the LUN, an erase
its block. -/
inductive NandOp
  | reset | readId | readParameterPage | readUniqueId
  | getFeatures | setFeatures | zqCalibrationLong | zqCalibrationShort
  | readStatus | readStatusEnhanced
  | readPage (page : Nat) | readPageCacheSequential (page : Nat) | changeReadColumnEnhanced (page : Nat) | multiPlaneRead (page : Nat)
  | pageProgram (page : Nat) | pageCacheProgram (page : Nat) | multiPlaneProgram (page : Nat)
  | blockErase (block : Nat) | multiPlaneErase (block : Nat)
  deriving DecidableEq, Repr, Inhabited

/-- R464: the data interface of the targets. -/
inductive NandInterface
  | sdr         -- the timing mode ONFI requires at power-on
  | nvLpddr4    -- NV-LPDDR4, up to 3,600 MT/s
  deriving DecidableEq, Repr, Inhabited

/-- A record written into the metadata space; it takes effect when its last page counts as programmed (R510). -/
inductive MetaRec
  /-- R493: a trim record, by its SEQ. -/
  | trim (seq : Nat)
  /-- R490: erase intent of a superblock. -/
  | intent (g k : Nat)
  /-- R490: erase done of a superblock. -/
  | done (g k : Nat)
  /-- R511: the patrol's place. -/
  | patrol (g k : Nat)
  /-- R509: a group's rebuild progress in stripes. -/
  | rebuild (g n : Nat)
  /-- R515: READONLY. -/
  | readonly
  deriving DecidableEq, Repr, Inhabited

/-- A written page with its tag (R473). -/
structure Page where
  /-- Its place. -/
  loc : Loc
  /-- Tag KIND: 1 host, 2 relocated, 3 summary, 4 parity (summary entry), 5 metadata, 6 filler. -/
  kind : Nat
  /-- Tag SPACE. -/
  space : Nat
  /-- Tag BMASK. -/
  bmask : Nat
  /-- Tag LMU. -/
  lmu : Nat
  /-- Tag SEQ. -/
  seq : Nat
  /-- Tag DSEQ. -/
  dseq : Nat
  /-- The 16,384 data bytes; bytes past the end of the list are 0. -/
  data : Bytes
  /-- Progress. -/
  prog : ProgState
  /-- R471: a parity page's tag area: the exclusive-or of its stripe's 15 tag areas. -/
  xtag : Bytes := []
  /-- R484: its map unit was lost before it was written. -/
  wasLost : Bool := false
  /-- A relocated page: the place it was copied from. -/
  source : Option Loc := none
  /-- R484: programs of this unit that failed before this one. -/
  failures : Nat := 0
  deriving DecidableEq, Repr, Inhabited

/-- Use of a superblock (R479, R490). -/
inductive SblkUse
  | free
  | opened (stream : Nat)   -- 0 host data, 1 relocation, 2 metadata
  | full
  | retired
  deriving DecidableEq, Repr, Inhabited

/-- A superblock (R469). -/
structure Sblk where
  /-- Group. -/
  g : Nat
  /-- Number. -/
  k : Nat
  /-- Use. -/
  use : SblkUse := .free
  /-- Erase count. -/
  erases : Nat := 0
  /-- Next page slot to program: 16 × page + member. -/
  next : Nat := 0
  /-- R490: an erase-intent record stands, or is being written. -/
  intent : Bool := false
  /-- R490: the erase ended and its erase-done record is being written. -/
  erasedOnce : Bool := false
  /-- R494: lowest SEQ that the erased superblock held, until its erase-done record stands. -/
  firstSeq : Option Nat := none
  /-- R488, R512: chosen for relocation. -/
  moving : Bool := false
  /-- R492: members whose block was retired with no reserve left: the superblock is retired after relocation. -/
  dying : List Nat := []
  /-- R492: members that took a block from their LUN's reserve: (member, block). -/
  swapped : List (Nat × Nat) := []
  /-- R492: replacements taken that the superblock uses from its next erase on: (member, block). -/
  swaps : List (Nat × Nat) := []
  deriving DecidableEq, Repr, Inhabited

/-- A group (R468). -/
structure Group where
  /-- Number. -/
  g : Nat
  /-- The LUN of each member: (channel, position). -/
  members : List (Nat × Nat)
  /-- R522: it accepts new writes. -/
  accepts : Bool := true
  /-- R519: failed members not yet rebuilt. -/
  failed : List Nat := []
  /-- R525: the LUNs that failed: member, channel, position. -/
  was : List (Nat × Nat × Nat) := []
  /-- R521: member under rebuild. -/
  rebuilding : Option Nat := none
  /-- R521: stripes rebuilt, in order. -/
  rebuilt : Nat := 0
  /-- R509: rebuild progress recorded in the metadata space. -/
  recorded : Nat := 0
  /-- R479: superblock that takes the next page of each stream. -/
  turn : Nat := 0
  deriving DecidableEq, Repr, Inhabited

/-- A LUN's own state. -/
structure Lun where
  /-- Channel. -/
  ch : Nat
  /-- Position. -/
  pos : Nat
  /-- R468: a spare LUN not in use. -/
  spare : Bool := false
  /-- R519: failed. -/
  failed : Bool := false
  /-- R469: blocks of its reserve, ascending. -/
  reserve : List Nat := []
  deriving DecidableEq, Repr, Inhabited

/-- A trim record (R493). -/
structure Trim where
  /-- Space. -/
  space : Nat
  /-- First map unit. -/
  first : Nat
  /-- Count. -/
  count : Nat
  /-- SEQ of the trim. -/
  seq : Nat
  /-- Lost units it covered: (space, map unit); they are lost again when its record does not take effect. -/
  lost : List (Nat × Nat) := []
  /-- Its record counts as programmed. -/
  durable : Bool := false
  deriving DecidableEq, Repr, Inhabited

/-- Flash media and its management. -/
structure Media where
  /-- R529 0x5000 MediaState as held for 2 to 5; 0 and 1 are told apart by the groups. [5] -/
  state : Nat := 5
  /-- R732: MediaState as it stood when the pads were latched at entry to a power state. [none held] -/
  heldState : Option Nat := none
  /-- R498: mount step awaited, 0 when mount is not running. [0] -/
  mountStep : Nat := 0
  /-- Local uptime (periods) at which mount began. [0] -/
  mountBegan : Nat := 0
  /-- R529 0x5012 LastMountTime, µs. [0] -/
  lastMount : Nat := 0
  /-- R465: geometry found. [all zero] -/
  geom : NandGeometry := default
  /-- The flash has been formatted (R527). [no] -/
  formatted : Bool := false
  /-- R515, R518: READONLY as the metadata space records it. [no] -/
  readonly : Bool := false
  /-- R527: a format runs; the flash is unformatted until it ends. [no] -/
  formatting : Bool := false
  /-- R477 0x5004 LogicalCapacity, blocks, 64 bits. [0] -/
  capacity : Nat := 0
  /-- R464: data interface of the targets. [SDR] -/
  iface : NandInterface := .sdr
  /-- R467: level of WP_N: high only while a program or erase may be issued. [low] -/
  wpN : Bool := false
  /-- R464: commands given to the LUNs, newest first: channel, LUN position, command. [none] -/
  bus : List (Nat × Nat × NandOp) := []
  /-- R468: groups. [none] -/
  groups : List Group := []
  /-- R469: superblocks. [none] -/
  sblks : List Sblk := []
  /-- LUNs. [none] -/
  luns : List Lun := []
  /-- Written pages: the flash's contents. [none] -/
  pages : List Page := []
  /-- R476: forward map entries: (space, map unit, place). [none] -/
  map : List (Nat × Nat × Loc) := []
  /-- R476, R487: lost map units: (space, map unit). [none] -/
  lost : List (Nat × Nat) := []
  /-- R525: page 0x50 entries, 32 bytes each. [none] -/
  lostLog : List Bytes := []
  /-- R525: page 0x50 overflow. [0] -/
  lostOvf : Bool := false
  /-- R493: trim records kept. [none] -/
  trims : List Trim := []
  /-- R474: SEQ of the next page programmed, 64 bits. [1] -/
  seq : Nat := 1
  /-- R479: group that takes the next host map unit. [0] -/
  rr : Nat := 0
  /-- R495: SECURE DEALLOCATE ranges under way: (first block, blocks). [none] -/
  secure : List (Nat × Nat) := []
  /-- Records of the metadata space under way: the program sequence numbers of their pages, and what they record. [none] -/
  records : List (List Nat × MetaRec) := []
  /-- Map unit of the metadata space that takes the next record. [0] -/
  metaNext : Nat := 0
  /-- R336: blocks of open shards of sinks, first block and blocks, which mount discards. [none] -/
  discard : List (Nat × Nat) := []
  /-- R482: program sequence numbers of WRITEs that completed from the media write buffer. [none] -/
  cached : List Nat := []
  /-- R529 0x5007 PatrolPosition, 1/1,000. [0] -/
  patrolPos : Nat := 0
  /-- R511: next patrol place: (group, superblock). [0, 0] -/
  patrolAt : Nat × Nat := (0, 0)
  /-- R511: patrol place recorded in the metadata space. [0, 0] -/
  patrolSaved : Nat × Nat := (0, 0)
  /-- R529 0x500D HostBytesWritten, 64 bits. [0] -/
  hostBytes : Nat := 0
  /-- R529 0x500E MediaBytesWritten, 64 bits. [0] -/
  mediaBytes : Nat := 0
  /-- R529 0x500F ReadRetries, 64 bits. [0] -/
  readRetries : Nat := 0
  /-- R529 0x5010 ParityReconstructions, 64 bits. [0] -/
  reconstructions : Nat := 0
  /-- R529 0x5011 LostMapUnits, 64 bits. [0] -/
  lostUnits : Nat := 0
  /-- R524: stripes that lost two members, relocated first: (group, superblock). [none] -/
  urgent : List (Nat × Nat) := []
  /-- R759: no new program or erase may start. [no] -/
  frozen : Bool := false
  deriving DecidableEq, Repr, Inhabited

/-! ### Faults and health -/

/-- A physical unit that carries a health score (R632, R657). -/
inductive UnitRef
  | engine (phys : Nat)
  | eightUnit (eight sub : Nat)
  | router (eight : Nat)
  | other (id : Nat)
  deriving DecidableEq, Repr, Inhabited

/-- A fault message (R631). -/
structure FaultMsg where
  /-- UNIT, 12 bits. -/
  unit : Nat
  /-- SUB, 4 bits. -/
  sub : Nat
  /-- KIND, 8 bits. -/
  kind : Nat
  /-- SEV, 3 bits. -/
  sev : Nat
  /-- PHYS, 12 bits. -/
  phys : Nat
  /-- CREW when CREWV is 1. -/
  crew : Option Nat
  /-- ADDR, 32 bits. -/
  addr : Nat
  /-- COUNT, 16 bits. -/
  count : Nat
  /-- CTX0 and CTX1 when CTXV is 1. -/
  ctx : Option (Nat × Nat)
  deriving DecidableEq, Repr, Inhabited

/-- A fault queue entry (R634). -/
structure FaultEntry where
  /-- MSG with the highest SEV coalesced. -/
  msg : FaultMsg
  /-- FIRST, µs. -/
  first : Nat
  /-- LAST, µs. -/
  last : Nat
  /-- TOTAL, 32 bits. -/
  total : Nat
  /-- R638: signalled on FaultVector. -/
  signalled : Bool := false
  deriving DecidableEq, Repr, Inhabited

/-- An entry of the detour tables (R31): the route between two mesh positions of a preparation die. -/
structure Detour where
  /-- Die, 0 to 3. -/
  die : Nat
  /-- Source position, row × 6 + column. -/
  src : Nat
  /-- Destination position. -/
  dst : Nat
  /-- Positions passed after the source, the destination last. -/
  path : List Nat
  deriving DecidableEq, Repr, Inhabited

/-- The fault collector, scores and fences. -/
structure Faults where
  /-- R634: queue, oldest first, at most 4,096. [empty] -/
  queue : List FaultEntry := []
  /-- R657 0x6003 FaultsLost, 32 bits. [0] -/
  lost : Nat := 0
  /-- R633: sending windows: the latest occurrence counted, with COUNT the occurrences not yet sent. [none] -/
  windows : List FaultMsg := []
  /-- R631: messages sent on the management virtual network that the collector has not taken yet. [none] -/
  transit : List FaultMsg := []
  /-- R649: scores that are not 0, 10 bits each, kept in NOR when written. [none] -/
  scores : List (UnitRef × Nat) := []
  /-- R652, R656: units on probation. [none] -/
  probation : List UnitRef := []
  /-- R651: field fences, in force. [none] -/
  fences : List UnitRef := []
  /-- R651: scores, probation and field fences as last written to NOR. [none] -/
  savedScores : List (UnitRef × Nat) := []
  /-- R651: probation states as last written to NOR. [none] -/
  savedProbation : List UnitRef := []
  /-- R651: field fences as last written to NOR. [none] -/
  savedFences : List UnitRef := []
  /-- R769: physical eights disabled as a whole by a field fence. [none] -/
  eightFences : List Nat := []
  /-- R706: disabled physical engines and eights as loaded from the fuses at step 3. [none] -/
  disabledEngines : List Nat := []
  /-- R706: disabled physical eights as loaded. [none] -/
  disabledEights : List Nat := []
  /-- R768, R630: logical unit map: per logical eight, its physical eight and the physical lanes of its logical
  lanes. [none formed] -/
  lmap : List (Option (Nat × List Nat)) := List.replicate 64 none
  /-- R31: detour tables loaded around fenced routers. [none] -/
  detours : List Detour := []
  /-- R652: fences in the window of each crew: (crew, local uptime). [none] -/
  fenceTimes : List (Nat × Nat) := []
  /-- R655: crossings in the window: local uptime. [none] -/
  crossings : List Nat := []
  /-- R655 0x6015 CommonCause. [0] -/
  commonCause : Bool := false
  /-- R374: central routers on which a fault stands. [none] -/
  centralDown : List Nat := []
  /-- R643: the device is stopped. [no] -/
  stopped : Bool := false
  deriving DecidableEq, Repr, Inhabited

/-! ### Ports -/

/-- What a queued frame carries. -/
inductive Payload
  | out (o : Output)            -- an Ethernet frame
  | packet (b : Bytes)          -- a Ryhero packet, header and body
  | write (lqpn rank k : Nat) (op : RdmaOp) (desc last : Bool) (addr rkey : Nat) (data : Bytes) (imm : Option Bytes)
                                -- an RDMA WRITE packet of a batch; it takes its PSN as it leaves
  deriving DecidableEq, Repr, Inhabited

/-- A frame in a transmit queue (R393). -/
structure Frame where
  /-- R399: frame bytes, without FrameOverhead. -/
  len : Nat
  /-- Crew whose traffic it is. -/
  crew : Option Nat
  /-- IEEE 802.1Qbb priority (R387). -/
  prio : Nat
  /-- R384: rank and index of the batch whose WRITE packet it is. -/
  batch : Option (Nat × Nat) := none
  /-- Contents. -/
  body : Payload
  deriving DecidableEq, Repr, Inhabited

/-- One of the 64 transmit queues (R395, R397). -/
structure TxQueue where
  /-- Frames, head first. -/
  frames : List Frame := []
  /-- R395 deficit, bytes. -/
  deficit : Nat := 0
  /-- R397 bucket content in 1/32,768 byte. -/
  bucket : Nat := 0
  /-- Local uptime (periods) up to which the bucket is filled. -/
  filled : Nat := 0
  deriving DecidableEq, Repr, Inhabited

/-- The Ryhero link of a port (R355 to R368). -/
structure Link where
  /-- R357: link version. -/
  ver : Nat := 0
  /-- SEQ of the next new data flit, mod 2^16. -/
  txSeq : Nat := 0
  /-- R360: replay buffer: unacknowledged data flits, oldest first. -/
  unacked : List Bytes := []
  /-- R363: how often each flit of the replay buffer has been replayed. -/
  replays : List Nat := []
  /-- R368: flits at the end of the replay buffer that a retrain left to be replayed and that wait for credits. -/
  resend : Nat := 0
  /-- R361: SEQ expected. -/
  expect : Nat := 0
  /-- R365: credits held on the four channels. -/
  credits : List Nat := [0, 0, 0, 0]
  /-- R366: receive buffers of the four channels. -/
  rx : List (List Bytes) := [[], [], [], []]
  /-- R366: slots freed whose credit has not departed. -/
  owed : List Nat := [0, 0, 0, 0]
  /-- R362: a NAK was sent and the expected flit has not arrived. -/
  naking : Bool := false
  /-- R361: accepted flits not yet acknowledged. -/
  ackOwed : Nat := 0
  deriving DecidableEq, Repr, Inhabited

/-- A port (R341 to R354). -/
structure Port where
  /-- Number, 0 to 35. -/
  n : Nat
  /-- R351 PortState. [0] -/
  state : Nat := 0
  /-- R402 PortWidth, lanes. [0] -/
  width : Nat := 0
  /-- R350 LANES: lanes that trained. [0] -/
  lanes : Nat := 0
  /-- R350 CAUSE. [0] -/
  cause : Nat := 0
  /-- R350 PEER, 12 bits. [0xFFF] -/
  peer : Nat := 0xFFF
  /-- R350 PEERPORT. [0] -/
  peerPort : Nat := 0
  /-- R402 Retrains, 32 bits. [0] -/
  retrains : Nat := 0
  /-- R353: local uptime (periods) of recent retrains. [none] -/
  recent : List Nat := []
  /-- R359: peer device id and peer port of the last handshake. [none] -/
  lastPeer : Option (Nat × Nat) := none
  /-- R345 step 3: lanes of the width agreed, while step 4 is awaited; 0 before. [0] -/
  agreed : Nat := 0
  /-- R345 step 4, R356: a handshake has been received in this training. [no] -/
  shaken : Bool := false
  /-- R352: it is retraining from a running state, with its replay buffer kept. [no] -/
  resuming : Bool := false
  /-- R367: the retrain was called for by a protocol error. [no] -/
  protoErr : Bool := false
  /-- R402 LinkReplays, 32 bits. [0] -/
  linkReplays : Nat := 0
  /-- R402 FecCorrected, 64 bits. [0] -/
  fecCorrected : Nat := 0
  /-- R402 PolicedSends, 32 bits. [0] -/
  policedSends : Nat := 0
  /-- R402 CnpReceived, 32 bits. [0] -/
  cnpReceived : Nat := 0
  /-- R375: frames discarded outside the supported items. [0] -/
  discarded : Nat := 0
  /-- R399: FrameOverhead still counts after a retrain. [no] -/
  overhead : Bool := false
  /-- The link. -/
  link : Link := {}
  /-- The transmit queues. [64 empty] -/
  queues : List TxQueue := List.replicate 64 {}
  /-- R395: queue under visit in the round, 4 to 63. [4] -/
  drr : Nat := 4
  /-- R395: that queue has gained its quantum in this visit. [no] -/
  gained : Bool := false
  /-- R387: priorities paused by PFC. [none] -/
  paused : List Nat := []
  deriving DecidableEq, Repr, Inhabited

/-- A RoCEv2 queue pair (R377 to R392). -/
structure RocePair where
  /-- LQPN, 24 bits. -/
  lqpn : Nat
  /-- R377: the 64-byte context. -/
  ctx : Bytes
  /-- Next PSN sent, 24 bits. -/
  psn : Nat
  /-- PSN expected of the peer, 24 bits. -/
  expect : Nat
  /-- PSN up to which packets are acknowledged (next unacknowledged). -/
  acked : Nat
  /-- R380: error state. -/
  err : Bool := false
  /-- Transport retries used. -/
  retries : Nat := 0
  /-- RNR retries used. -/
  rnrRetries : Nat := 0
  /-- R389: Rq as a fraction of line rate. -/
  rate : Rat := 1
  /-- R389: the port's local counter, µs, at the last CNP that cut Rq. [none] -/
  cnpAt : Option Nat := none
  /-- R388: the port's local counter, µs, at the last CNP sent. [none] -/
  cnpSent : Option Nat := none
  /-- R389: bytes that Rq allows to leave by now, in 1/32,768 byte. [0] -/
  pace : Nat := 0
  /-- R389: local uptime (periods) up to which `pace` counts. [0] -/
  paced : Nat := 0
  /-- R390: bucket content in 1/32,768 byte; may be negative (R391). -/
  bucket : Int := 0
  /-- Local uptime (periods) up to which the bucket is filled. -/
  filled : Nat := 0
  /-- Bytes of the SEND message under way. -/
  message : Bytes := []
  /-- R380, R385: frames sent and not acknowledged, oldest first. [none] -/
  flight : List Frame := []
  deriving DecidableEq, Repr, Inhabited

/-! ### Job domain -/

/-- A member of the domain or a device found and not admitted (R609, R630). -/
structure Member where
  /-- Device id; 0xFFF when not admitted. -/
  id : Nat
  /-- SERIAL, 16 bytes. -/
  serial : Bytes
  /-- R609: cause of non-admission: 0 admitted, 1 too far, 2 beyond 2,047, 3 manager, 4 in another domain. -/
  cause : Nat
  /-- R610: route from the manager: output ports by hop. -/
  route : List Nat
  /-- R620: SEQ of its last report. -/
  seq : Nat := 0
  /-- Local uptime (periods) of its last report. -/
  seen : Nat := 0
  /-- R627: on probation. -/
  probation : Bool := false
  /-- R626: local uptime (periods) of prepared samples that failed PCRC. -/
  bad : List Nat := []
  /-- R620: PORTCHG of its last report. -/
  portChg : Nat := 0
  deriving DecidableEq, Repr, Inhabited

/-- The holders of a shard set (R616). -/
structure Placement where
  /-- Dataset. -/
  dset : Nat
  /-- Shard set. -/
  set : Nat
  /-- Primary member. -/
  primary : Nat
  /-- Mirror member. -/
  mirror : Option Nat
  deriving DecidableEq, Repr, Inhabited

/-- A shard copy under way (R616, R624). -/
structure Copy where
  /-- Dataset. -/
  dset : Nat
  /-- Shard. -/
  shard : Nat
  /-- From member. -/
  src : Nat
  /-- To member. -/
  dst : Nat
  /-- Parts received here, by offset. -/
  parts : List (Nat × Bytes) := []
  /-- R624: part of a restoration after a loss. -/
  restore : Bool := false
  /-- Received here: first logical block it was written at, once whole. [none] -/
  slba : Option Nat := none
  /-- Received here: program sequence numbers of that write. [none] -/
  seqs : List Nat := []
  deriving DecidableEq, Repr, Inhabited

/-- A member's claim on a domain job (R613). -/
structure Claim where
  /-- Domain job. -/
  job : Nat
  /-- Member. -/
  member : Nat
  /-- First rank. -/
  first : Nat
  /-- Ranks. -/
  count : Nat
  deriving DecidableEq, Repr, Inhabited

/-- A prepared sample arriving in parts (R618). -/
structure PartSample where
  /-- Sending device. -/
  src : Nat
  /-- Request tag. -/
  tag : Nat
  /-- TOTAL. -/
  total : Nat
  /-- Parts by offset. -/
  parts : List (Nat × Bytes)
  deriving DecidableEq, Repr, Inhabited

/-- The job domain. -/
structure Domain where
  /-- R630 0x2011 DomainRole: 0 none, 1 manager, 2 worker. [0] -/
  role : Nat := 0
  /-- R402 0x4005 DeviceId, 12 bits. [0xFFF] -/
  deviceId : Nat := 0xFFF
  /-- R630 0x2012 DomainMembers. [none] -/
  members : List Member := []
  /-- R610: routes held: (destination, output ports by hop). [none] -/
  routes : List (Nat × List Nat) := []
  /-- R608: the device takes the manager role, as sampled at device reset. [no] -/
  selected : Bool := false
  /-- R609: probe answers recorded: (serial, route, answering port + 256 × answering device id). [none] -/
  answers : List (Bytes × List Nat × Nat) := []
  /-- R613: claims. [none] -/
  claims : List Claim := []
  /-- R615: shard-set placements. [none] -/
  placements : List Placement := []
  /-- R616, R624: copies. [none] -/
  copies : List Copy := []
  /-- R630 0x2016 DomainLostShards: (dataset, shard). [none] -/
  lostShards : List (Nat × Nat) := []
  /-- R630 0x2017 RestoreProgress, 16 bits. [0xFFFF] -/
  restore : Nat := 0xFFFF
  /-- Copies of the restoration finished. [0] -/
  restored : Nat := 0
  /-- R630 0x2018 Expulsions, 32 bits. [0] -/
  expulsions : Nat := 0
  /-- R626: local uptime (periods) of expulsions. [none] -/
  expelTimes : List Nat := []
  /-- R628: local uptime (periods) of suspect events. [none] -/
  suspects : List (Nat × Nat) := []
  /-- Packets taken and not yet processed: the port of arrival in one byte, then header and body. [none] -/
  inbox : List Bytes := []
  /-- R618: prepared samples arriving. [none] -/
  partSamples : List PartSample := []
  /-- R653, R627: first of two makings kept for comparison: (tag, bytes). [none] -/
  compare : List (Nat × Bytes) := []
  /-- R369: next TAG. [0] -/
  tag : Nat := 0
  /-- R620: SEQ of the next report. [0] -/
  reportSeq : Nat := 0
  /-- R620 PORTCHG: port state changes since device reset. [0] -/
  portChanges : Nat := 0
  /-- R612, R613, R621: opened jobs distributed by the manager: (job, seed, operands after the seed). [none] -/
  opened : List (Nat × Nat × Bytes) := []
  deriving DecidableEq, Repr, Inhabited

/-! ### Dictionary, sessions and audit -/

/-- An object's value. -/
inductive ObjVal
  | num (n : Nat)
  | bytes (b : Bytes)
  deriving DecidableEq, Repr, Inhabited

/-- A session, offered or open (R675 to R678). -/
structure Session where
  /-- SID, 32 bits. -/
  sid : Nat
  /-- Transport. -/
  t : Transport
  /-- Transport address, 8 bytes. -/
  addr : Bytes
  /-- 1 operator, 2 installer, 3 maker. -/
  role : Nat
  /-- Key slot. -/
  slot : Nat
  /-- Nonce, 48 bytes. -/
  nonce : Bytes
  /-- PROVE has passed. -/
  isOpen : Bool
  /-- R677: SEQ of the last WRITE. -/
  seq : Nat := 0
  /-- A WRITE has been made (SEQ counts from the first). -/
  wrote : Bool := false
  /-- R665: held segments of an OCTS write: (index, sub, bytes). -/
  octs : Option (Nat × Nat × Bytes) := none
  deriving DecidableEq, Repr, Inhabited

/-- The object dictionary. -/
structure Dict where
  /-- R661: values written by a role that differ from the default, by (index, sub), kept in NOR. [none] -/
  values : List ((Nat × Nat) × ObjVal) := []
  /-- R675: sessions. [none] -/
  sessions : List Session := []
  /-- R679: failed PROVEs in the last 60 s: (transport, local uptime). [none] -/
  fails : List (Transport × Nat) := []
  /-- R679: transports locked out. [none] -/
  lockouts : List Transport := []
  /-- R690 0x1204 AuthFailures, 32 bits, kept with the journal. [0] -/
  authFailures : Nat := 0
  /-- R683: audit entries by slot, 128 bytes each, kept in NOR. [none] -/
  journal : List (Nat × Bytes) := []
  /-- R690 0x1281 AuditNext. [1] -/
  jseq : Nat := 1
  /-- R690 0x1284 AuditOverwritten, 64 bits. [0] -/
  overwritten : Nat := 0
  /-- R672 0x1103 MctpEid, 8 bits. [0] -/
  mctpEid : Nat := 0
  /-- R672: dynamic I3C address. [none] -/
  i3cDynamic : Option Nat := none
  /-- R714: transports on which a secured SPDM session stands (mailbox for the DOE mailbox). [none] -/
  spdm : List Transport := []
  /-- R688 CalOrigin of the four sets, kept in NOR. [0] -/
  calOrigin : List Nat := [0, 0, 0, 0]
  deriving DecidableEq, Repr, Inhabited

end Sys2Proof.Machine
end

