-- ==== Sys2Proof/Machine/State.lean ====
section
/-!
DEFINITION. The state of the block: everything the spec gives it, as plain data, and the queue of commands that wait.
-/
namespace Sys2Proof.Machine

/-- The reasons a step can stop with a fault: none. Every event of this block has an effect the spec gives (an event the
state does not admit changes nothing), so the type has no constructor and no fault can be raised. -/
inductive Fault : Type
  deriving DecidableEq, Repr

/-- The reasons a step can be refused. -/
inductive Refusal
  /-- Raised by an arm of exec whose command has no meaning yet; safe: nothing is claimed of it. -/
  | notModelled (mnemonic : String)
  deriving DecidableEq, Repr

/-- The DX36 as its spec describes it. -/
structure State where
  /-- The model's own: commands that wait, first in, first out. [empty] -/
  pending : List Instr := []
  /-- The model's own: uses of free values so far; indexes the opaque constants of Config. [0] -/
  free : Nat := 0
  /-- R431: local uptime in SLOWCLK_IN periods, 64 bits. [0] -/
  uptime : Nat := 0
  /-- What has left the device, newest first. [nothing] -/
  sent : List Output := []
  /-- Lands and supplies. -/
  pins : Pins := {}
  /-- Power states, wake and throttling. -/
  power : Power := {}
  /-- Start-up, firmware slots, licences. -/
  startup : Startup := {}
  /-- Fuses. -/
  fuses : Fuses := {}
  /-- Host interface. -/
  host : HostIf := {}
  /-- R61: catalogue, ascending dataset number, kept on media. [empty] -/
  catalogue : List Dataset := []
  /-- R772: GET LOG page 0x31. -/
  regLog : Ring := {}
  /-- R220: GET LOG page 0x33. -/
  concealLog : Ring := {}
  /-- R421: GET LOG page 0x34. -/
  timingLog : Ring := {}
  /-- R350: GET LOG page 0x40, 16-byte entries as last written. [none] -/
  topology : List Bytes := []
  /-- R299: vocabularies, kept on media. [none] -/
  vocabs : List Vocab := []
  /-- R325: grammars, kept on media. [none] -/
  grammars : List Grammar := []
  /-- R599: formed crews, ascending number. [none] -/
  crews : List Crew := []
  /-- R165: contexts that are not FREE. [none] -/
  contexts : List Context := []
  /-- R288: resident copies. [none] -/
  residents : List Resident := []
  /-- R310: open sinks. [none] -/
  sinks : List Sink := []
  /-- R340: counts of closed sinks, which stay readable until the number is opened again: sink, and its records written,
  records filtered, streams aborted and events lost. [none] -/
  sinkTotals : List (Nat × List Nat) := []
  /-- R313: open streams and ended streams not yet written back. [none] -/
  streams : List Stream := []
  /-- R387, R392, R457: rollout messages in the ports' 16 MiB ingress buffers, with their port, oldest first. [none] -/
  ingress : List (Nat × Bytes) := []
  /-- R339: the stream whose messages the text unit serves next: 2^32 × sink + stream, or the next in order. [0] -/
  textTurn : Nat := 0
  /-- R387: ports that have sent PFC pause for their ingress buffer, with the priority paused. [none] -/
  ingressPaused : List (Nat × Nat) := []
  /-- Buffer pool manager. -/
  mem : Pools := {}
  /-- Flash media. -/
  media : Media := {}
  /-- Faults, scores and fences. -/
  faults : Faults := {}
  /-- R341: the 36 ports. -/
  ports : List Port := (List.range 36).map fun n => { n := n }
  /-- R377: RoCEv2 queue pairs. [none] -/
  roce : List RocePair := []
  /-- Job domain. -/
  domain : Domain := {}
  /-- Object dictionary. -/
  dict : Dict := {}
  deriving DecidableEq, Repr

/-- The machine right after reset: no supply yet, every register at the value the spec gives for reset, else at the value
its log entry names (notes/assumptions), nothing waiting. -/
def State.reset : State := {}

end Sys2Proof.Machine
end

