-- ==== Sys2Proof/Machine/Objects.lean ====
section
/-!
DEFINITION. The object dictionary's table: every object of the chapters' object tables (R658 to R660), the default of
each object a role may write, the ranges of written values, and how a setting is read.
-/
namespace Sys2Proof.Machine

/-- R659: the types of objects. -/
inductive ObjType | bool | u8 | u16 | u32 | u64 | i16 | i32 | i64 | f32 | vstr | octs | dur
  deriving DecidableEq, Repr, Inhabited

/-- R659: type codes. -/
def ObjType.code : ObjType → Nat
  | .bool => 0x01
  | .u8 => 0x02
  | .u16 => 0x03
  | .u32 => 0x04
  | .u64 => 0x05
  | .i16 => 0x06
  | .i32 => 0x07
  | .i64 => 0x08
  | .f32 => 0x09
  | .vstr => 0x0A
  | .octs => 0x0B
  | .dur => 0x0C

/-- R659: sizes in bytes; 0 for the two of varying size. -/
def ObjType.size : ObjType → Nat
  | .bool => 1
  | .u8 => 1
  | .u16 => 2
  | .u32 => 4
  | .u64 => 8
  | .i16 => 2
  | .i32 => 4
  | .i64 => 8
  | .f32 => 4
  | .vstr => 0
  | .octs => 0
  | .dur => 8

/-- A role column of an object table (R9): no access, read, read and write. -/
inductive ObjAcc | no | r | rw
  deriving DecidableEq, Repr, Inhabited

/-- A row of an object table: indexes and sub-indexes it covers, type, and the rights of the operator, the installer and
the maker. -/
structure ObjRow where
  lo : Nat
  hi : Nat
  subLo : Nat
  subHi : Nat
  ty : ObjType
  op : ObjAcc
  ins : ObjAcc
  maker : ObjAcc
  deriving DecidableEq, Repr, Inhabited

/-- Objects of 05_engines.md. -/
def objs05 : List ObjRow := [
   ⟨0x2420, 0x2420, 0x00, 0x00, .u8, .rw, .rw, .rw⟩,      -- Lookahead
   ⟨0x2421, 0x2421, 0x00, 0x00, .u8, .rw, .rw, .rw⟩,      -- CrabFactor
   ⟨0x2422, 0x2422, 0x01, 0x40, .u32, .r, .r, .r⟩,        -- CrabCount
   ⟨0x2423, 0x2423, 0x01, 0x40, .u32, .r, .r, .r⟩,        -- CapAborts
   ⟨0x2424, 0x2424, 0x01, 0x40, .u16, .r, .r, .r⟩,        -- ContextsInFlight
   ⟨0x2425, 0x2425, 0x00, 0x00, .u8, .r, .r, .r⟩          -- ArithmeticClass
   ]

/-- Objects of 06_decoders.md. -/
def objs06 : List ObjRow := [
   ⟨0x2426, 0x2426, 0x01, 0x40, .u32, .r, .r, .r⟩,        -- ConcealedSamples
   ⟨0x2427, 0x2427, 0x01, 0x40, .u32, .r, .r, .r⟩,        -- DamageDrops
   ⟨0x4020, 0x4020, 0x00, 0x00, .u8, .rw, .rw, .rw⟩,      -- ExchangeCompression
   ⟨0x7020, 0x7020, 0x00, 0x00, .u8, .rw, .rw, .rw⟩       -- RolloutTableMode
   ]

/-- Objects of 07_packing.md. -/
def objs07 : List ObjRow := [
   ⟨0x2428, 0x2428, 0x00, 0x00, .u8, .rw, .rw, .rw⟩,      -- CollectorCredits
   ⟨0x2429, 0x2429, 0x01, 0x40, .u64, .r, .r, .r⟩,        -- PadTokens
   ⟨0x242A, 0x242A, 0x01, 0x40, .u32, .r, .r, .r⟩,        -- TruncatedSamples
   ⟨0x242B, 0x242B, 0x01, 0x40, .u64, .r, .r, .r⟩         -- BatchesClosed
   ]

/-- Objects of 08_graphs.md. -/
def objs08 : List ObjRow := [
   ⟨0x2430, 0x2430, 0x00, 0x00, .u8, .rw, .rw, .rw⟩,      -- GraphResidency
   ⟨0x2431, 0x2431, 0x01, 0x40, .u32, .r, .r, .r⟩,        -- GraphDrops
   ⟨0x2432, 0x2432, 0x01, 0x40, .u64, .r, .r, .r⟩         -- ResidentBytes
   ]

/-- Objects of 09_text.md. -/
def objs09 : List ObjRow := [
   ⟨0x7000, 0x7000, 0x00, 0x00, .u16, .r, .r, .r⟩,        -- OpenStreams
   ⟨0x7001, 0x7001, 0x01, 0x40, .u64, .r, .r, .r⟩,        -- RolloutsWritten
   ⟨0x7002, 0x7002, 0x01, 0x40, .u32, .r, .r, .r⟩,        -- RolloutsFiltered
   ⟨0x7003, 0x7003, 0x01, 0x40, .u32, .r, .r, .r⟩,        -- StreamsAborted
   ⟨0x7004, 0x7004, 0x01, 0x40, .u32, .r, .r, .r⟩,        -- EventsLost
   ⟨0x7006, 0x7006, 0x01, 0x40, .u32, .r, .r, .r⟩         -- TokenizeTruncations
   ]

/-- Objects of 10_ports.md. -/
def objs10 : List ObjRow := [
   ⟨0x4000, 0x4000, 0x01, 0x24, .u8, .r, .rw, .rw⟩,       -- PortMode
   ⟨0x4001, 0x4001, 0x01, 0x24, .u8, .r, .rw, .rw⟩,       -- PortWidthMax
   ⟨0x4002, 0x4002, 0x01, 0x24, .u8, .r, .r, .r⟩,         -- PortState
   ⟨0x4003, 0x4003, 0x01, 0x24, .u8, .r, .r, .r⟩,         -- PortWidth
   ⟨0x4004, 0x4004, 0x01, 0x24, .u8, .no, .rw, .rw⟩,      -- PortRetrain
   ⟨0x4005, 0x4005, 0x00, 0x00, .u16, .r, .r, .r⟩,        -- DeviceId
   ⟨0x4010, 0x4010, 0x00, 0x00, .u8, .r, .rw, .rw⟩,       -- FrameOverhead
   ⟨0x4012, 0x4012, 0x00, 0x00, .dur, .r, .rw, .rw⟩,      -- CnpInterval
   ⟨0x4013, 0x4013, 0x00, 0x00, .u8, .r, .rw, .rw⟩,       -- RolloutIngressPriority
   ⟨0x4014, 0x4014, 0x01, 0x40, .u8, .rw, .rw, .rw⟩,      -- CrewQueue
   ⟨0x4030, 0x4030, 0x01, 0x24, .u32, .r, .r, .r⟩,        -- LinkReplays
   ⟨0x4031, 0x4031, 0x01, 0x24, .u64, .r, .r, .r⟩,        -- FecCorrected
   ⟨0x4032, 0x4032, 0x01, 0x24, .u32, .r, .r, .r⟩,        -- Retrains
   ⟨0x4033, 0x4033, 0x01, 0x24, .u32, .r, .r, .r⟩,        -- PolicedSends
   ⟨0x4034, 0x4034, 0x01, 0x24, .u32, .r, .r, .r⟩,        -- CnpReceived
   ⟨0x4100, 0x4123, 0x05, 0x40, .u8, .rw, .rw, .rw⟩,      -- QueueWeight
   ⟨0x4140, 0x4163, 0x01, 0x40, .u32, .rw, .rw, .rw⟩,     -- ShaperRate
   ⟨0x4180, 0x41A3, 0x01, 0x40, .u32, .rw, .rw, .rw⟩,     -- ShaperBurst
   ⟨0x41C0, 0x41E3, 0x01, 0x04, .octs, .r, .rw, .rw⟩      -- LocalAddress
   ]

/-- Objects of 11_repeatability.md. -/
def objs11 : List ObjRow := [
   ⟨0x2400, 0x2400, 0x01, 0x40, .octs, .r, .r, .r⟩,       -- CrewFingerprint
   ⟨0x2401, 0x2401, 0x01, 0x40, .octs, .r, .r, .r⟩,       -- JobFingerprint
   ⟨0x2402, 0x2402, 0x01, 0x40, .u8, .r, .r, .r⟩,         -- JobMode
   ⟨0x2403, 0x2403, 0x01, 0x40, .u64, .r, .r, .r⟩,        -- TimingChoices
   ⟨0x2404, 0x2404, 0x01, 0x40, .bool, .r, .r, .r⟩,       -- TimedAdmitted
   ⟨0x2405, 0x2405, 0x01, 0x40, .u32, .r, .r, .r⟩,        -- TimedMisses
   ⟨0x2406, 0x2406, 0x00, 0x00, .u8, .rw, .rw, .rw⟩,      -- TimedDerate
   ⟨0x2407, 0x2407, 0x00, 0x00, .u8, .rw, .rw, .rw⟩,      -- TimedPortShare
   ⟨0x2408, 0x2408, 0x00, 0x00, .dur, .r, .r, .r⟩,        -- LocalUptime
   ⟨0x2409, 0x2409, 0x01, 0x40, .octs, .r, .r, .r⟩        -- SettingsBlock
   ]

/-- Objects of 12_memory.md. -/
def objs12 : List ObjRow := [
   ⟨0x5800, 0x5800, 0x01, 0x0C, .u16, .r, .rw, .rw⟩,      -- PoolShare
   ⟨0x5801, 0x5801, 0x01, 0x0C, .u32, .r, .r, .r⟩,        -- PoolBuffers
   ⟨0x5802, 0x5802, 0x01, 0x0C, .u32, .r, .r, .r⟩,        -- PoolFree
   ⟨0x5803, 0x5803, 0x01, 0x0C, .u64, .r, .r, .r⟩,        -- PoolFallbacks
   ⟨0x5804, 0x5804, 0x01, 0x0C, .u32, .r, .r, .r⟩,        -- PoolRetired
   ⟨0x5805, 0x5805, 0x00, 0x00, .u32, .r, .r, .r⟩,        -- SystemRegion
   ⟨0x5806, 0x5806, 0x01, 0x02, .u64, .r, .r, .r⟩,        -- TierFallbacks
   ⟨0x5810, 0x5810, 0x01, 0x40, .u32, .rw, .rw, .rw⟩,     -- CrewQuotaHbm
   ⟨0x5811, 0x5811, 0x01, 0x40, .u32, .rw, .rw, .rw⟩,     -- CrewQuotaLp
   ⟨0x5812, 0x5812, 0x01, 0x40, .u64, .r, .r, .r⟩,        -- CrewChargeHbm
   ⟨0x5813, 0x5813, 0x01, 0x40, .u64, .r, .r, .r⟩,        -- CrewChargeLp
   ⟨0x5820, 0x5820, 0x00, 0x00, .u32, .rw, .rw, .rw⟩,     -- QpQuota
   ⟨0x5830, 0x5830, 0x01, 0x24, .u32, .r, .rw, .rw⟩,      -- PortQuota
   ⟨0x5831, 0x5831, 0x01, 0x24, .u64, .r, .r, .r⟩         -- PortCharge
   ]

/-- Objects of 13_media.md. -/
def objs13 : List ObjRow := [
   ⟨0x5000, 0x5000, 0x00, 0x00, .u8, .r, .r, .r⟩,         -- MediaState
   ⟨0x5001, 0x5001, 0x00, 0x00, .u8, .r, .rw, .rw⟩,       -- MediaFormat
   ⟨0x5002, 0x5002, 0x00, 0x00, .u16, .r, .rw, .rw⟩,      -- Overprovision
   ⟨0x5003, 0x5003, 0x00, 0x00, .u8, .r, .rw, .rw⟩,       -- SpareLunsPerChannel
   ⟨0x5004, 0x5004, 0x00, 0x00, .u64, .r, .r, .r⟩,        -- LogicalCapacity
   ⟨0x5005, 0x5005, 0x00, 0x00, .u8, .rw, .rw, .rw⟩,      -- WriteCache
   ⟨0x5006, 0x5006, 0x00, 0x00, .dur, .r, .rw, .rw⟩,      -- PatrolPeriod
   ⟨0x5007, 0x5007, 0x00, 0x00, .u16, .r, .r, .r⟩,        -- PatrolPosition
   ⟨0x5008, 0x5008, 0x00, 0x00, .u16, .r, .rw, .rw⟩,      -- RefreshThreshold
   ⟨0x5009, 0x5009, 0x00, 0x00, .u32, .r, .rw, .rw⟩,      -- NandRatedPE
   ⟨0x500A, 0x500A, 0x00, 0x00, .u8, .r, .r, .r⟩,         -- MediaWear
   ⟨0x500B, 0x500B, 0x00, 0x00, .u8, .r, .r, .r⟩,         -- SpareLunsFree
   ⟨0x500C, 0x500C, 0x00, 0x00, .u32, .r, .r, .r⟩,        -- BlockReserveFree
   ⟨0x500D, 0x500D, 0x00, 0x00, .u64, .r, .r, .r⟩,        -- HostBytesWritten
   ⟨0x500E, 0x500E, 0x00, 0x00, .u64, .r, .r, .r⟩,        -- MediaBytesWritten
   ⟨0x500F, 0x500F, 0x00, 0x00, .u64, .r, .r, .r⟩,        -- ReadRetries
   ⟨0x5010, 0x5010, 0x00, 0x00, .u64, .r, .r, .r⟩,        -- ParityReconstructions
   ⟨0x5011, 0x5011, 0x00, 0x00, .u64, .r, .r, .r⟩,        -- LostMapUnits
   ⟨0x5012, 0x5012, 0x00, 0x00, .dur, .r, .r, .r⟩,        -- LastMountTime
   ⟨0x5013, 0x5013, 0x00, 0x00, .u16, .r, .r, .r⟩,        -- RebuildProgress
   ⟨0x5014, 0x5014, 0x00, 0x00, .bool, .r, .r, .r⟩,       -- SecureErasePending
   ⟨0x5015, 0x5015, 0x00, 0x00, .u8, .r, .rw, .rw⟩        -- GcShare
   ]

/-- Objects of 14_commands.md. -/
def objs14 : List ObjRow := [
   ⟨0x4810, 0x4810, 0x00, 0x00, .u32, .r, .r, .r⟩         -- StrayWindowWrites (R576)
   ]

/-- Objects of 15_cxl.md. -/
def objs15 : List ObjRow := [
   ⟨0x4800, 0x4800, 0x00, 0x00, .u8, .r, .r, .r⟩,         -- CxlSpeed
   ⟨0x4801, 0x4801, 0x00, 0x00, .u8, .r, .r, .r⟩,         -- CxlWidth
   ⟨0x4802, 0x4802, 0x00, 0x00, .u8, .r, .r, .r⟩,         -- CxlFlit
   ⟨0x4803, 0x4803, 0x00, 0x00, .u8, .r, .r, .r⟩,         -- IdeState
   ⟨0x4804, 0x4804, 0x00, 0x00, .u32, .r, .r, .r⟩,        -- DmaReadErrors
   ⟨0x4805, 0x4805, 0x00, 0x00, .u32, .r, .r, .r⟩         -- LinkResets
   ]

/-- Objects of 16_crews.md. -/
def objs16 : List ObjRow := [
   ⟨0x2000, 0x2000, 0x01, 0x40, .u64, .r, .r, .r⟩,        -- CrewEights
   ⟨0x2001, 0x2001, 0x01, 0x40, .u8, .r, .r, .r⟩,         -- CrewState
   ⟨0x2002, 0x2002, 0x00, 0x00, .octs, .r, .r, .r⟩,       -- DisabledUnitMap
   ⟨0x2003, 0x2003, 0x00, 0x00, .octs, .r, .r, .r⟩,       -- LogicalUnitMap
   ⟨0x2004, 0x2004, 0x01, 0x04, .u8, .r, .r, .r⟩,         -- SpareEnginesFree
   ⟨0x2005, 0x2005, 0x01, 0x04, .u8, .r, .r, .r⟩,         -- SpareEightsFree
   ⟨0x2010, 0x2010, 0x00, 0x00, .u8, .r, .rw, .rw⟩,       -- ManagerSelect
   ⟨0x2011, 0x2011, 0x00, 0x00, .u8, .r, .r, .r⟩,         -- DomainRole
   ⟨0x2012, 0x2012, 0x00, 0x00, .octs, .r, .r, .r⟩,       -- DomainMembers
   ⟨0x2013, 0x2013, 0x00, 0x00, .u8, .r, .rw, .rw⟩,       -- MirrorCount
   ⟨0x2014, 0x2014, 0x00, 0x00, .dur, .r, .rw, .rw⟩,      -- StatusPeriod
   ⟨0x2015, 0x2015, 0x00, 0x00, .u8, .rw, .rw, .rw⟩,      -- ExpelBudget
   ⟨0x2016, 0x2016, 0x00, 0x00, .octs, .r, .r, .r⟩,       -- DomainLostShards
   ⟨0x2017, 0x2017, 0x00, 0x00, .u16, .r, .r, .r⟩,        -- RestoreProgress
   ⟨0x2018, 0x2018, 0x00, 0x00, .u32, .r, .r, .r⟩         -- Expulsions
   ]

/-- Objects of 17_faults.md. -/
def objs17 : List ObjRow := [
   ⟨0x6000, 0x6000, 0x00, 0x00, .octs, .r, .r, .r⟩,       -- FaultQueue
   ⟨0x6001, 0x6001, 0x00, 0x00, .u16, .rw, .rw, .rw⟩,     -- FaultAck
   ⟨0x6002, 0x6002, 0x00, 0x00, .u16, .r, .r, .r⟩,        -- FaultEntries
   ⟨0x6003, 0x6003, 0x00, 0x00, .u32, .r, .r, .r⟩,        -- FaultsLost
   ⟨0x6004, 0x6004, 0x00, 0x00, .u16, .rw, .rw, .rw⟩,     -- FaultVector
   ⟨0x6005, 0x6005, 0x00, 0x00, .u8, .r, .rw, .rw⟩,       -- AlertSeverity
   ⟨0x6010, 0x6010, 0x01, 0x40, .u8, .rw, .rw, .rw⟩,      -- FenceBudget
   ⟨0x6011, 0x6011, 0x00, 0x00, .dur, .r, .rw, .rw⟩,      -- FenceWindow
   ⟨0x6012, 0x6012, 0x01, 0x40, .u8, .r, .r, .r⟩,         -- FencesInWindow
   ⟨0x6013, 0x6013, 0x00, 0x00, .u8, .r, .rw, .rw⟩,       -- CommonCauseLimit
   ⟨0x6014, 0x6014, 0x00, 0x00, .dur, .r, .rw, .rw⟩,      -- CommonCauseWindow
   ⟨0x6015, 0x6015, 0x00, 0x00, .bool, .r, .r, .r⟩,       -- CommonCause
   ⟨0x6016, 0x6016, 0x00, 0x00, .u16, .r, .r, .r⟩,        -- UnitsOnProbation
   ⟨0x6100, 0x6112, 0x01, 0x7F, .u8, .r, .rw, .rw⟩,       -- Severity
   ⟨0x6200, 0x6200, 0x00, 0x00, .octs, .r, .r, .r⟩,       -- HealthEngines
   ⟨0x6201, 0x6201, 0x00, 0x00, .octs, .r, .r, .r⟩,       -- HealthEightUnits
   ⟨0x6202, 0x6202, 0x00, 0x00, .octs, .r, .r, .r⟩        -- HealthOther
   ]

/-- Objects of 18_dictionary.md. -/
def objs18 : List ObjRow := [
   ⟨0x1000, 0x1000, 0x00, 0x00, .vstr, .r, .r, .r⟩,       -- Serial
   ⟨0x1001, 0x1001, 0x00, 0x00, .u8, .r, .r, .r⟩,         -- OrderCode
   ⟨0x1002, 0x1002, 0x00, 0x00, .u8, .r, .r, .r⟩,         -- Stepping
   ⟨0x1003, 0x1003, 0x00, 0x00, .u64, .r, .r, .r⟩,        -- FirmwareVersion
   ⟨0x1004, 0x1004, 0x00, 0x00, .octs, .r, .r, .r⟩,       -- IdentityKey
   ⟨0x1005, 0x1005, 0x00, 0x00, .u8, .r, .r, .r⟩,         -- DictionaryVersion
   ⟨0x1100, 0x1100, 0x00, 0x00, .u8, .r, .rw, .rw⟩,       -- T1sNodeId
   ⟨0x1101, 0x1101, 0x00, 0x00, .u8, .r, .rw, .rw⟩,       -- T1sNodeCount
   ⟨0x1102, 0x1102, 0x00, 0x00, .octs, .r, .rw, .rw⟩,     -- T1sMac
   ⟨0x1103, 0x1103, 0x00, 0x00, .u8, .r, .r, .r⟩,         -- MctpEid
   ⟨0x1104, 0x1104, 0x00, 0x00, .u8, .r, .rw, .rw⟩,       -- I3cStaticAddress
   ⟨0x1200, 0x1200, 0x01, 0x08, .octs, .r, .rw, .rw⟩,     -- OperatorKey
   ⟨0x1201, 0x1201, 0x01, 0x04, .octs, .r, .rw, .rw⟩,     -- InstallerKey
   ⟨0x1202, 0x1202, 0x00, 0x00, .dur, .r, .rw, .rw⟩,      -- SessionTimeout
   ⟨0x1203, 0x1203, 0x00, 0x00, .u8, .r, .r, .r⟩,         -- OpenSessions
   ⟨0x1204, 0x1204, 0x00, 0x00, .u32, .r, .r, .r⟩,        -- AuthFailures
   ⟨0x1208, 0x1208, 0x00, 0x00, .u8, .no, .rw, .rw⟩,      -- DictionaryDefaults
   ⟨0x1280, 0x1280, 0x01, 0x40, .octs, .r, .r, .r⟩,       -- AuditJournal
   ⟨0x1281, 0x1281, 0x00, 0x00, .u64, .r, .r, .r⟩,        -- AuditNext
   ⟨0x1282, 0x1282, 0x00, 0x00, .u8, .r, .rw, .rw⟩,       -- AuditMode
   ⟨0x1283, 0x1283, 0x00, 0x00, .u64, .rw, .rw, .rw⟩,     -- AuditReadMark
   ⟨0x1284, 0x1284, 0x00, 0x00, .u64, .r, .r, .r⟩,        -- AuditOverwritten
   ⟨0x9000, 0x9000, 0x01, 0x24, .octs, .r, .rw, .rw⟩,     -- SerdesPreset
   ⟨0x9001, 0x9001, 0x01, 0x10, .i16, .r, .rw, .rw⟩,      -- SensorOffset
   ⟨0x9002, 0x9002, 0x01, 0x0F, .i16, .r, .rw, .rw⟩,      -- RegulatorTrim
   ⟨0x9003, 0x9003, 0x01, 0x20, .octs, .r, .rw, .rw⟩,     -- NandTiming
   ⟨0x9010, 0x9010, 0x01, 0x04, .u8, .r, .r, .r⟩          -- CalOrigin
   ]

/-- Objects of 19_startup.md. -/
def objs19 : List ObjRow := [
   ⟨0x8000, 0x8000, 0x00, 0x00, .u8, .r, .r, .r⟩,         -- StartupState
   ⟨0x8001, 0x8001, 0x00, 0x00, .u8, .r, .r, .r⟩,         -- StartupCause
   ⟨0x8002, 0x8002, 0x00, 0x00, .dur, .r, .r, .r⟩,        -- LastStartupTime
   ⟨0x8003, 0x8003, 0x00, 0x00, .u8, .r, .rw, .rw⟩,       -- TrainingMethod
   ⟨0x8004, 0x8004, 0x00, 0x00, .u8, .r, .r, .r⟩,         -- TrainingFallbacks
   ⟨0x8005, 0x8005, 0x00, 0x00, .u8, .no, .rw, .rw⟩,      -- DeviceReset
   ⟨0x8010, 0x8010, 0x00, 0x00, .u8, .r, .r, .r⟩,         -- SecurityCounter
   ⟨0x8011, 0x8011, 0x01, 0x02, .u8, .r, .r, .r⟩,         -- SlotState
   ⟨0x8012, 0x8012, 0x01, 0x02, .u64, .r, .r, .r⟩,        -- SlotVersion
   ⟨0x8013, 0x8013, 0x01, 0x02, .u8, .r, .r, .r⟩,         -- SlotSecurityVersion
   ⟨0x8014, 0x8014, 0x00, 0x00, .u32, .r, .r, .r⟩,        -- FirmwareFallbacks
   ⟨0x8020, 0x8020, 0x00, 0x00, .octs, .no, .rw, .rw⟩,    -- LicenceInstall
   ⟨0x8021, 0x8021, 0x01, 0x08, .octs, .r, .r, .r⟩,       -- Licences
   ⟨0x8022, 0x8022, 0x00, 0x00, .u64, .no, .rw, .rw⟩,     -- LicenceRemove
   ⟨0x8023, 0x8023, 0x00, 0x00, .u8, .r, .r, .r⟩,         -- LicenceFeatures
   ⟨0x8024, 0x8024, 0x00, 0x00, .u8, .r, .r, .r⟩          -- LicenceValid
   ]

/-- Objects of 20_power.md. -/
def objs20 : List ObjRow := [
   ⟨0x3000, 0x3000, 0x00, 0x00, .u8, .rw, .rw, .rw⟩,      -- PowerRequest
   ⟨0x3001, 0x3001, 0x00, 0x00, .u8, .r, .r, .r⟩,         -- PowerState
   ⟨0x3002, 0x3002, 0x00, 0x00, .bool, .rw, .rw, .rw⟩,    -- PS1Enable
   ⟨0x3003, 0x3003, 0x00, 0x00, .dur, .rw, .rw, .rw⟩,     -- PS1Delay
   ⟨0x3004, 0x3004, 0x00, 0x00, .u8, .rw, .rw, .rw⟩,      -- WakeSources
   ⟨0x3005, 0x3005, 0x01, 0x04, .u16, .r, .rw, .rw⟩,      -- WakeThreshold
   ⟨0x3006, 0x3006, 0x00, 0x00, .u64, .rw, .rw, .rw⟩,     -- WakePortMask
   ⟨0x3007, 0x3007, 0x00, 0x00, .dur, .rw, .rw, .rw⟩,     -- WakeTimer
   ⟨0x3008, 0x3008, 0x00, 0x00, .u8, .r, .r, .r⟩,         -- WakeCause
   ⟨0x3009, 0x3009, 0x00, 0x00, .dur, .r, .r, .r⟩,        -- LastWakeTime
   ⟨0x300A, 0x300A, 0x00, 0x00, .u8, .rw, .rw, .rw⟩,      -- PadRelease
   ⟨0x300B, 0x300B, 0x00, 0x00, .u32, .r, .r, .r⟩,        -- PowerEntryAborts
   ⟨0x300C, 0x300C, 0x00, 0x00, .u16, .rw, .rw, .rw⟩,     -- PowerLimit
   ⟨0x300D, 0x300D, 0x00, 0x00, .u16, .r, .r, .r⟩,        -- PackagePower
   ⟨0x300E, 0x300E, 0x00, 0x00, .u32, .r, .r, .r⟩,        -- BrownOuts
   ⟨0x3800, 0x3800, 0x01, 0x10, .i16, .r, .rw, .rw⟩,      -- ThrottleTemp
   ⟨0x3801, 0x3801, 0x01, 0x10, .i16, .r, .r, .r⟩,        -- Temperature
   ⟨0x3802, 0x3802, 0x00, 0x00, .u8, .r, .r, .r⟩,         -- ThrottleStep
   ⟨0x3803, 0x3803, 0x00, 0x00, .u32, .r, .r, .r⟩         -- ThrottleEvents
   ]

/-- Objects of 21_package.md. -/
def objs21 : List ObjRow := [
   ⟨0x300F, 0x300F, 0x00, 0x00, .u16, .r, .r, .r⟩,        -- InputVoltage
   ⟨0x3010, 0x3010, 0x00, 0x00, .u32, .r, .r, .r⟩,        -- InputFaults
   ⟨0x3804, 0x3804, 0x00, 0x00, .u32, .r, .r, .r⟩         -- HwThermalTrips
   ]

/-- Every object of the dictionary (R660). -/
def objTable : List ObjRow :=
  objs05 ++ objs06 ++ objs07 ++ objs08 ++ objs09 ++ objs10 ++ objs11 ++ objs12 ++ objs13 ++ objs14 ++ objs15 ++ objs16 ++ objs17 ++ objs18 ++ objs19 ++ objs20 ++ objs21

/-- The row of an object, if the index and sub-index name one (R658, R660); sub-index 0 of a ranged object is not such a
row: it is answered from `subCount`. -/
def objRow (idx sub : Nat) : Option ObjRow :=
  objTable.find? fun r => r.lo ≤ idx && idx ≤ r.hi && r.subLo ≤ sub && sub ≤ r.subHi

/-- R658: the highest sub-index of a ranged object, what its sub-index 0 reads as. -/
def subCount (idx : Nat) : Option Nat :=
  (objTable.find? fun r => r.lo ≤ idx && idx ≤ r.hi && r.subLo != 0).map (·.subHi)

/-- R644: default severities by kind; kind 0x04 depends on the class. -/
def kindSev (cls kind : Nat) : Option Nat :=
  match kind with
  | 0x01 => some 1
  | 0x02 => some 3
  | 0x03 => some 2
  | 0x04 => some (if cls == 2 || cls == 3 || (6 ≤ cls && cls ≤ 9) || (14 ≤ cls && cls ≤ 18) then 1 else 2)
  | 0x05 => some 1
  | 0x06 => some 1
  | 0x07 => some 0
  | 0x08 => some 1
  | 0x09 => some 3
  | 0x10 => some 0
  | 0x11 => some 0
  | 0x12 => some 0
  | 0x13 => some 0
  | 0x14 => some 3
  | 0x15 => some 2
  | 0x20 => some 0
  | 0x21 => some 2
  | 0x22 => some 1
  | 0x23 => some 1
  | 0x24 => some 1
  | 0x25 => some 1
  | 0x26 => some 1
  | 0x27 => some 1
  | 0x28 => some 1
  | 0x29 => some 1
  | 0x30 => some 1
  | 0x31 => some 2
  | 0x40 => some 3
  | 0x41 => some 3
  | 0x50 => some 0
  | 0x51 => some 1
  | 0x52 => some 1
  | 0x53 => some 1
  | 0x54 => some 1
  | 0x60 => some 1
  | 0x61 => some 1
  | 0x62 => some 4
  | 0x63 => some 4
  | 0x7F => some 3
  | _ => none

/-- R442: default PoolShare of the twelve pools, tier 0 then tier 1. -/
def poolShareDefaults : List Nat := [4, 16, 32, 64, 256, 652, 2, 16, 32, 64, 128, 782]

/-- R1, R692: the order code's package power limit in watts. -/
def orderLimit (order : Nat) : Nat := if order == 2 then 700 else 1000

/-- Default of a numeric object that a role may write (the Default column of its table). -/
def numDefault (f : Fuses) (idx sub : Nat) : Nat :=
  if 0x4100 ≤ idx && idx ≤ 0x4123 then 16
  else if 0x4180 ≤ idx && idx ≤ 0x41A3 then 65536
  else if 0x6100 ≤ idx && idx ≤ 0x6112 then (kindSev (idx - 0x6100) sub).getD 0
  else match idx with
  | 0x2420 => 64
  | 0x2421 => 8
  | 0x7020 => 2
  | 0x2428 => 4
  | 0x2430 => 1
  | 0x4001 => 4
  | 0x4010 => 20
  | 0x4012 => 50
  | 0x4013 => 4
  | 0x4014 => 4 + (sub - 1) % 59
  | 0x2406 => 192
  | 0x2407 => 128
  | 0x5800 => poolShareDefaults.getD (sub - 1) 0
  | 0x5810 => 4096
  | 0x5811 => 16384
  | 0x5820 => 64
  | 0x5830 => 64
  | 0x5002 => 70
  | 0x5003 => 1
  | 0x5006 => 604800000000
  | 0x5008 => 120
  | 0x5009 => 3000
  | 0x5015 => 64
  | 0x2013 => 2
  | 0x2014 => 1000000
  | 0x2015 => 1
  | 0x6005 => 2
  | 0x6010 => 2
  | 0x6011 => 3600000000
  | 0x6013 => 8
  | 0x6014 => 3600000000
  | 0x1100 => 0xFF
  | 0x1101 => 8
  | 0x1104 => 0x3A
  | 0x1202 => 300000000
  | 0x9001 => Config.factoryI16 idx sub
  | 0x9002 => Config.factoryI16 idx sub
  | 0x3002 => 1
  | 0x3003 => 1000
  | 0x3004 => 0x0F
  | 0x3005 => [65, 80, 200, 400].getD (sub - 1) 0
  | 0x300C => orderLimit f.order
  | 0x3800 => if sub ≤ 7 then 950 else 850
  | _ => 0

/-- Default of an OCTS object that a role may write. -/
def bytesDefault (f : Fuses) (idx sub : Nat) : Bytes :=
  if 0x41C0 ≤ idx && idx ≤ 0x41E3 then zeros 16
  else match idx with
  | 0x1102 => Config.macOfSerial f.serial
  | 0x9000 => Config.factoryBytes idx sub
  | 0x9003 => Config.factoryBytes idx sub
  | _ => []

/-- R661: the written value of an object, if it differs from its default. -/
def Dict.find (d : Dict) (idx sub : Nat) : Option ObjVal := (d.values.find? fun p => p.1 == (idx, sub)).map (·.2)

/-- A numeric setting as it stands. -/
def State.num (s : State) (idx sub : Nat) : Nat :=
  match s.dict.find idx sub with
  | some (.num n) => n
  | _ => numDefault s.fuses idx sub

/-- An OCTS setting as it stands. -/
def State.octs (s : State) (idx sub : Nat) : Bytes :=
  match s.dict.find idx sub with
  | some (.bytes b) => b
  | _ => bytesDefault s.fuses idx sub

/-- R661: the dictionary with a value written. The list is kept in ascending order of (index, sub). -/
def Dict.put (d : Dict) (idx sub : Nat) (v : ObjVal) : Dict :=
  let key := 256 * idx + sub
  let below := d.values.filter fun p => 256 * p.1.1 + p.1.2 < key
  let above := d.values.filter fun p => key < 256 * p.1.1 + p.1.2
  { d with values := below ++ ((idx, sub), v) :: above }

/-- A setting written. -/
def State.setNum (s : State) (idx sub n : Nat) : State := { s with dict := s.dict.put idx sub (.num n) }

/-- The signed value of 16 bits of two's complement. -/
def sign16 (n : Nat) : Int := if n < 0x8000 then (n : Int) else (n : Int) - 0x10000

/-- Is `n` from `a` to `b`? -/
def within (a b n : Nat) : Bool := a ≤ n && n ≤ b

/-- R667 check 6, ranges: is a number in the range the owning rule states for the object? -/
def numRangeOk (f : Fuses) (maker : Bool) (idx sub n : Nat) : Bool :=
  if 0x4100 ≤ idx && idx ≤ 0x4123 then within 1 255 n
  else if 0x4180 ≤ idx && idx ≤ 0x41A3 then within 16384 16777216 n
  else if 0x6100 ≤ idx && idx ≤ 0x6112 then (kindSev (idx - 0x6100) sub).isSome && sub != 0x62 && sub != 0x63 && n ≤ 4
  else match idx with
  | 0x2420 => within 1 64 n
  | 0x2421 => within 2 255 n
  | 0x4020 => n ≤ 1
  | 0x7020 => n ≤ 2
  | 0x2428 => within 1 16 n
  | 0x2430 => n ≤ 2
  | 0x4000 => n ≤ 2
  | 0x4001 => n == 1 || n == 2 || n == 4
  | 0x4004 => n == 1
  | 0x4010 => n ≤ 255
  | 0x4013 => n ≤ 7
  | 0x4014 => within 4 62 n
  | 0x2406 => within 1 255 n
  | 0x2407 => within 1 255 n
  | 0x5800 => n ≤ 1024
  | 0x5810 => n ≤ 262144
  | 0x5811 => n ≤ 1048576
  | 0x5820 => within 1 4096 n
  | 0x5830 => within 32 4096 n
  | 0x5001 => n == 1
  | 0x5002 => within 70 500 n
  | 0x5003 => n ≤ 4
  | 0x5005 => n ≤ 1
  | 0x5006 => within 86400000000 7776000000000 n
  | 0x5008 => within 16 240 n
  | 0x5015 => within 1 255 n
  | 0x2010 => n ≤ 2
  | 0x2013 => within 1 2 n
  | 0x2014 => within 100000 10000000 n
  | 0x2015 => within 1 64 n
  | 0x6004 => n ≤ 2047
  | 0x6005 => n ≤ 4
  | 0x6010 => within 1 64 n
  | 0x6011 => within 60000000 604800000000 n
  | 0x6013 => within 1 255 n
  | 0x6014 => within 60000000 604800000000 n
  | 0x1100 => n ≤ 31 || n == 0xFF
  | 0x1101 => within 2 32 n
  | 0x1104 => within 0x08 0x77 n
  | 0x1202 => within 10000000 3600000000 n
  | 0x1208 => within 1 2 n
  | 0x1282 => n ≤ 1
  | 0x9002 => let v := sign16 n; let m := if maker then 60 else 20; -m ≤ v && v ≤ m
  | 0x8003 => n ≤ 1
  | 0x8005 => n == 1
  | 0x3000 => n == 0 || n == 2 || n == 3
  | 0x3002 => n ≤ 1
  | 0x3003 => within 100 1000000 n
  | 0x3004 => n ≤ 0x1F
  | 0x3005 => match sub with
    | 1 => within 40 200 n
    | 2 => within 40 300 n
    | 3 => within 100 600 n
    | _ => within 200 900 n
  | 0x300A => n == 1
  | 0x300C => within 200 (orderLimit f.order) n
  | 0x3800 => let v := sign16 n; 600 ≤ v && v ≤ 1050
  | _ => true

/-- R667 check 6, ranges: is a byte string a value of the object? -/
def bytesRangeOk (idx : Nat) (b : Bytes) : Bool :=
  if 0x41C0 ≤ idx && idx ≤ 0x41E3 then b.length == 16
  else match idx with
  | 0x1102 => b.length == 6
  | 0x1200 => b.isEmpty || (b.length == 97 && b.headD 0 == 0x04)
  | 0x1201 => b.isEmpty || (b.length == 97 && b.headD 0 == 0x04)
  | 0x9000 => b.length == 64
  | 0x9003 => b.length == 32
  | 0x8020 => b.length == 192
  | _ => false

end Sys2Proof.Machine
end

