-- ==== Sys2Proof/Machine/Ops.lean ====
section
/-!
DEFINITION. The operations every family shares: what leaves the device, local uptime, crews and contexts by number,
raising a fault, host registers by byte, and posting completions.
-/
namespace Sys2Proof.Machine

/-! ### Lists kept by key -/

/-- The list with `f` applied to the elements that `p` names. -/
def updWhere {α : Type} (p : α → Bool) (f : α → α) (l : List α) : List α := l.map fun x => if p x then f x else x

/-- A sparse byte store with address `a` set to `b`: addresses stay ascending and bytes equal to `d a` are not listed. -/
def putCell (d : Nat → Byte) (l : List (Nat × Byte)) (a : Nat) (b : Byte) : List (Nat × Byte) :=
  let below := l.filter fun c => c.1 < a
  let above := l.filter fun c => a < c.1
  if b == d a then below ++ above else below ++ (a, b) :: above

/-- The byte at address `a` of a sparse byte store. -/
def getCell (d : Nat → Byte) (l : List (Nat × Byte)) (a : Nat) : Byte :=
  match l.find? fun c => c.1 == a with
  | some c => c.2
  | none => d a

/-- Bytes `bs` set from address `a` up. -/
def putCells (d : Nat → Byte) (l : List (Nat × Byte)) (a : Nat) : Bytes → List (Nat × Byte)
  | [] => l
  | b :: bs => putCells d (putCell d l a b) (a + 1) bs

/-- `n` bytes from address `a` up. -/
def getCells (d : Nat → Byte) (l : List (Nat × Byte)) (a n : Nat) : Bytes :=
  (List.range n).map fun i => getCell d l (a + i)

/-- The canonical form of a sparse byte store: addresses strictly rising, no byte equal to what an unlisted one reads. -/
def cellsWf (d : Nat → Byte) (l : List (Nat × Byte)) : Bool :=
  decide (l.Pairwise fun a b => a.1 < b.1) && l.all fun c => c.2 != d c.1

/-! ### Output, time, free values -/

/-- Something leaves the device. -/
def State.send (s : State) (o : Output) : State := { s with sent := o :: s.sent }

/-- Several things leave the device in order. -/
def State.sendAll (s : State) (os : List Output) : State := { s with sent := os.reverse ++ s.sent }

/-- R431: SLOWCLK_IN periods as microseconds. -/
def periodsUs (n : Nat) : Nat := n * 1000000 / 32768

/-- R431: local uptime in microseconds (LocalUptime). -/
def State.us (s : State) : Nat := periodsUs s.uptime

/-- Microseconds of local uptime since a stamp in periods. -/
def State.since (s : State) (stamp : Nat) : Nat := periodsUs (s.uptime - stamp)

/-- A free value: the opaque constant applied to the count of uses so far. -/
def State.freeVal (s : State) : Nat := Config.freeNat s.free

/-- The count of uses advanced by `n`. -/
def State.useFree (s : State) (n : Nat := 1) : State := { s with free := s.free + n }

/-- `n` free bytes. -/
def State.freeBytes (s : State) (n : Nat) : Bytes := (List.range n).map fun i => byteOf (Config.freeNat (s.free + i))

/-- The cox runs: its firmware has started (R691 step 5) and power has not gone. -/
def State.coxUp (s : State) : Bool :=
  match s.startup.phase with
  | .off => false
  | .recovery => false
  | .step n => 6 ≤ n
  | .finishing => true
  | .complete => true

/-- R718: PS1 is left for PS0. -/
def State.leavePs1 (s : State) : State := if s.power.state == 1 then { s with power := { s.power with state := 0 } } else s

/-- R691: start-up is complete. -/
def State.started (s : State) : Bool := s.startup.phase == .complete

/-- R712: LicenceFeatures, the OR of FEAT over the valid licences: bit 0 graph sampling, 1 rollout return path, 2 Ethernet on
P24 to P35. -/
def State.features (s : State) : Nat :=
  (s.startup.licences.zipIdx.filter fun x => s.startup.licenceValid >>> x.2 % 2 == 1).foldl (fun a x => a ||| bits x.1 42 40) 0

/-! ### Crews and contexts -/

/-- A formed crew by number. -/
def State.crew (s : State) (n : Nat) : Option Crew := s.crews.find? fun c => c.num == n

/-- A formed crew changed. -/
def State.modCrew (s : State) (n : Nat) (f : Crew → Crew) : State :=
  { s with crews := updWhere (fun c => c.num == n) f s.crews }

/-- A crew's open job changed. -/
def State.modJob (s : State) (n : Nat) (f : Job → Job) : State :=
  s.modCrew n fun c => { c with job := c.job.map f }

/-- A context that is not FREE, by number. -/
def State.ctx (s : State) (n : Nat) : Option Context := s.contexts.find? fun c => c.num == n

/-- A context changed. -/
def State.modCtx (s : State) (n : Nat) (f : Context → Context) : State :=
  { s with contexts := updWhere (fun c => c.num == n) f s.contexts }

/-- A context becomes FREE. -/
def State.dropCtx (s : State) (n : Nat) : State := { s with contexts := s.contexts.filter fun c => c.num != n }

/-- R564 JSTATE of a crew number: 7 when it is not formed. -/
def State.jstate (s : State) (n : Nat) : Nat := match s.crew n with | some c => c.state | none => 7

/-- A port changed. -/
def State.modPort (s : State) (n : Nat) (f : Port → Port) : State :=
  { s with ports := updWhere (fun p => p.n == n) f s.ports }

/-- A port by number. -/
def State.port (s : State) (n : Nat) : Option Port := s.ports.find? fun p => p.n == n

/-! ### Faults raised -/

/-- R639: the severity class of a unit id. -/
def unitClass (u : Nat) : Nat :=
  if u < 0x200 then 0
  else if u < 0x240 then 1
  else if u < 0x250 then 2
  else if u < 0x270 then 3
  else if u < 0x290 then 4
  else if u < 0x2C0 then 5
  else if u == 0x2C0 then 6
  else if u == 0x2C1 then 7
  else if u == 0x2C2 then 8
  else if u == 0x2C3 then 9
  else if u == 0x2C4 then 10
  else if u ≤ 0x2C9 then u - 0x2C5 + 14
  else if u < 0x2E0 then 11
  else if u < 0x300 then 12
  else 13

/-- R639: the severity programmed for a unit and kind. -/
def State.severity (s : State) (unit kind : Nat) : Nat := s.num (0x6100 + unitClass unit) kind

/-- A fault as the block that finds it names it (R631, R632, R644). -/
structure Raise where
  unit : Nat
  kind : Nat
  sub  : Nat := 0
  /-- PHYS; R632: equal to UNIT for a unit with no numbering of its own. -/
  phys : Option Nat := none
  crew : Option Nat := none
  addr : Nat := 0
  ctx  : Option (Nat × Nat) := none

/-- The message of one occurrence, with the severity programmed now. -/
def State.message (s : State) (r : Raise) (count : Nat) : FaultMsg :=
  { unit := r.unit, sub := r.sub, kind := r.kind, sev := s.severity r.unit r.kind, phys := r.phys.getD r.unit,
    crew := r.crew, addr := r.addr % 4294967296, count := count, ctx := r.ctx }

/-- R633: a block raises a fault: the first of its unit, SUB, kind and physical unit leaves at once and opens a window of 1 ms, later ones
are counted there (log 128). -/
def State.raise (s : State) (r : Raise) : State :=
  let same (m : FaultMsg) : Bool := m.unit == r.unit && m.sub == r.sub && m.kind == r.kind && m.phys == r.phys.getD r.unit
  match s.faults.windows.find? same with
  | none =>
    { s with faults := { s.faults with transit := s.faults.transit ++ [s.message r 1],
                                       windows := s.faults.windows ++ [s.message r 0] } }
  | some w =>
    { s with faults := { s.faults with
        windows := updWhere same (fun _ => s.message r (min 65535 (w.count + 1))) s.faults.windows } }

/-! ### BAR registers and MSI-X (R580, R577) -/

/-- What an unlisted BAR byte reads: 1 in the low byte of an MSI-X table entry's vector control (masked, as PCI Express
leaves it at reset), otherwise 0. -/
def barDefault (a : Nat) : Byte :=
  if a / 4294967296 == 4 && a % 4294967296 < 0x8000 && a % 16 == 12 then 1 else 0

/-- Bytes of BAR `bar` from `off`. -/
def State.barRead (s : State) (bar off n : Nat) : Bytes := getCells barDefault s.host.barBytes (4294967296 * bar + off) n

/-- Bytes of BAR `bar` written from `off`. -/
def State.barWrite (s : State) (bar off : Nat) (b : Bytes) : State :=
  { s with host := { s.host with barBytes := putCells barDefault s.host.barBytes (4294967296 * bar + off) b } }

/-- Is MSI-X vector `v` masked? -/
def State.masked (s : State) (v : Nat) : Bool := (leNat (s.barRead 4 (16 * v + 12) 1)) % 2 == 1

/-- The pending bit of vector `v` set or cleared in the pending bit array. -/
def State.setPba (s : State) (v : Nat) (on : Bool) : State :=
  let off := 0x8000 + v / 8
  let old := leNat (s.barRead 4 off 1)
  let bit := 2 ^ (v % 8)
  let cleared := if old / bit % 2 == 1 then old - bit else old
  s.barWrite 4 off [byteOf (if on then cleared + bit else cleared)]

/-- An interrupt on vector `v`: an MSI-X message, or its pending bit while the vector is masked. -/
def State.signal (s : State) (v : Nat) : State := if s.masked v then s.setPba v true else s.send (.msix v)

/-! ### Queue pairs and completions (R530 to R541, R554, R575) -/

/-- A queue pair by number. -/
def State.qp (s : State) (q : Nat) : Option QueuePair := s.host.qps.find? fun p => p.qid == q

/-- A queue pair changed. -/
def State.modQp (s : State) (q : Nat) (f : QueuePair → QueuePair) : State :=
  { s with host := { s.host with qps := updWhere (fun p => p.qid == q) f s.host.qps } }

/-- R532 fields of a queue pair context. -/
def QueuePair.tailmode (q : QueuePair) : Nat := bits q.ctx 16 16
/-- R532 DEPTH. -/
def QueuePair.depth (q : QueuePair) : Nat := bits q.ctx 47 32
/-- R532 MSIX. -/
def QueuePair.vector (q : QueuePair) : Nat := bits q.ctx 63 48
/-- R532 CQBASE. -/
def QueuePair.cqbase (q : QueuePair) : Nat := bits q.ctx 191 128
/-- R532 WEIGHT. -/
def QueuePair.weight (q : QueuePair) : Nat := bits q.ctx 263 256
/-- R532 CCOUNT. -/
def QueuePair.ccount (q : QueuePair) : Nat := bits q.ctx 271 264
/-- R532 CTIME. -/
def QueuePair.ctime (q : QueuePair) : Nat := bits q.ctx 279 272

/-- A command's key. -/
def Cmd.is (c : Cmd) (q i : Nat) : Bool := c.qid == q && c.cid == i

/-- An outstanding command. -/
def State.cmd (s : State) (q i : Nat) : Option Cmd := s.host.cmds.find? fun c => c.is q i

/-- An outstanding command changed. -/
def State.modCmd (s : State) (q i : Nat) (f : Cmd → Cmd) : State :=
  { s with host := { s.host with cmds := updWhere (fun c => c.is q i) f s.host.cmds } }

/-- R539 fields of a capsule. -/
def Cmd.opc (c : Cmd) : Nat := bits c.capsule 7 0
/-- R539 VER. -/
def Cmd.ver (c : Cmd) : Nat := bits c.capsule 15 8
/-- R539 CREW. -/
def Cmd.crew (c : Cmd) : Nat := bits c.capsule 39 32
/-- R539 DPTR. -/
def Cmd.dptr (c : Cmd) : Nat := bits c.capsule 127 64
/-- R539 DLEN. -/
def Cmd.dlen (c : Cmd) : Nat := bits c.capsule 159 128
/-- R543 FEATURES FID (and every field at [167:160]). -/
def Cmd.fid (c : Cmd) : Nat := bits c.capsule 167 160
/-- R543 FEATURES FVAL (and every field at [223:192]). -/
def Cmd.fval (c : Cmd) : Nat := bits c.capsule 223 192

/-- The result of a command: its status, RES0, and what JSTATE and RES1 report. -/
structure Result where
  /-- STATUS (R575). -/
  status : Nat
  /-- RES0. -/
  res0 : Nat := 0
  /-- R541: the crew that JSTATE and RES1 name, for one that is not the capsule's. -/
  crew : Option Nat := none
  deriving DecidableEq, Repr, Inhabited

namespace Result
/-- Success with a RES0. -/
def ok (r : Nat := 0) : Result := { status := 0x00, res0 := r }
/-- R554: Invalid field at a byte offset of the capsule. -/
def capsuleField (off : Nat) : Result := { status := 0x02, res0 := off }
/-- R554: Invalid field at a byte offset of the command's data. -/
def dataField (off : Nat) : Result := { status := 0x02, res0 := 0x80000000 + off % 65536 }
/-- R564: Sequence error, reporting a crew. -/
def sequence (crew : Option Nat := none) : Result := { status := 0x03, crew := crew }
/-- Quota exceeded. -/
def quota : Result := { status := 0x04 }
/-- Aborted by request. -/
def aborted (r : Nat := 0) : Result := { status := 0x05, res0 := r }
/-- Aborted by crew reset. -/
def crewReset : Result := { status := 0x06 }
/-- Unrecovered read error. -/
def readError : Result := { status := 0x10 }
/-- Media full. -/
def mediaFull : Result := { status := 0x11 }
/-- Media read-only. -/
def readOnly : Result := { status := 0x12 }
/-- Write fault. -/
def writeFault : Result := { status := 0x13 }
/-- Recipe rejected. -/
def recipe : Result := { status := 0x20 }
/-- Admission refused. -/
def admission (r : Nat := 0) : Result := { status := 0x21, res0 := r }
/-- Manifest mismatch. -/
def manifest : Result := { status := 0x22 }
/-- Resume token invalid. -/
def token : Result := { status := 0x23 }
/-- Licence required. -/
def licence : Result := { status := 0x30 }
/-- Role not permitted. -/
def role : Result := { status := 0x31 }
/-- Signature invalid. -/
def signature : Result := { status := 0x32 }
/-- Internal error. -/
def internal : Result := { status := 0x3F }
end Result

/-- R542: is the opcode a job opcode? -/
def isJobOpc (o : Nat) : Bool := 0x20 ≤ o && o ≤ 0x26

/-- R541: the completion entry of a command with a result. -/
def State.posting (s : State) (c : Cmd) (r : Result) : Posting :=
  let named := if r.crew.isSome then r.crew else if isJobOpc c.opc && c.crew < 64 then some c.crew else none
  { kind := 0, cid := c.cid, res0 := r.res0 % 4294967296, status := r.status,
    jstate := match named with | some n => s.jstate n | none => 7,
    res1 := named.getD 0 }

/-- R536: a completion-ring entry joins those that wait to be posted. -/
def State.hold (s : State) (q : Nat) (p : Posting) : State := s.modQp q fun x => { x with held := x.held ++ [p] }

/-- R543 MEDIA SLBA. -/
def Cmd.slba (c : Cmd) : Nat := field c.capsule 20 8
/-- R543 MEDIA NLB. -/
def Cmd.nlb (c : Cmd) : Nat := field c.capsule 28 4
/-- R543 WRITE INGEST. -/
def Cmd.ingest (c : Cmd) : Bool := bits c.capsule 257 257 == 1
/-- R543 WRITE ISTREAM. -/
def Cmd.istream (c : Cmd) : Nat := bits c.capsule 263 258
/-- R543 WRITE FUA. -/
def Cmd.fua (c : Cmd) : Bool := bits c.capsule 256 256 == 1
/-- R543 FIRMWARE SLOT. -/
def Cmd.fwSlot (c : Cmd) : Nat := bits c.capsule 160 160
/-- R543 COMMIT ACTION. -/
def Cmd.action (c : Cmd) : Nat := bits c.capsule 162 161

/-- A command's host-to-device data. -/
def Cmd.data (c : Cmd) : Bytes :=
  let rec go : Nat → Nat → Bytes
    | 0, _ => []
    | n + 1, off => match c.parts.find? fun p => p.1 == off && !p.2.isEmpty with
      | some p => p.2 ++ go n (off + p.2.length)
      | none => []
  go c.parts.length 0

/-- R560: grants of a command withdrawn; their slices are not granted again for 1 s (R559). -/
def State.withdraw (s : State) (q i : Nat) : State :=
  let mine := s.host.grants.filter fun g => g.qid == q && g.cid == i
  { s with host := { s.host with
      grants := s.host.grants.filter fun g => !(g.qid == q && g.cid == i),
      sliceHold := s.host.sliceHold ++ mine.map fun g => (g.first, g.count, s.uptime) } }

/-- A command ends with a result: its entry waits for its ring, and it is outstanding no more. -/
def State.complete (s : State) (c : Cmd) (r : Result) : State :=
  let s := s.hold c.qid (s.posting c r)
  { s with host := { s.host with cmds := s.host.cmds.filter fun x => !(x.is c.qid c.cid) } }

end Sys2Proof.Machine
end

