-- ==== Sys2Proof/Machine/Flags.lean ====
section
/-!
DEFINITION. Every flag the spec gives: the write-1-to-clear flag ASTS.DEVERR with its companion counter (R10 to R14, R582), the
level of ALERT_N (R638, R731, R763), and the flags of ASTS.
-/
namespace Sys2Proof.Machine

/-- R11: a hardware set event of ASTS.DEVERR: the flag is set and its counter advances, whether or not it was set already. -/
def State.setDeverr (s : State) : State :=
  { s with host := { s.host with deverr := true, deverrCnt := (s.host.deverrCnt + 1) % 4294967296 } }

/-- R10, R12: software writes 1 to clear ASTS.DEVERR; a set event in the same cycle keeps it set and counts. -/
def State.clearDeverr (s : State) (sameCycle : Bool) : State :=
  let s := { s with host := { s.host with deverr := false } }
  if sameCycle then s.setDeverr else s

/-- R582 ASTS.ARDY: queue pair 0 exists and fetches. -/
def State.ardy (s : State) : Bool := match s.qp 0 with | some q => !q.err | none => false

/-- R582 ASTS as it reads. -/
def State.asts (s : State) : Nat :=
  (if s.ardy then 1 else 0) + (if s.host.acerr then 2 else 0) + (if s.host.deverr then 4 else 0)

/-- R638: an entry of the fault queue that AlertSeverity reports. -/
def State.alertQueued (s : State) : Bool := s.faults.queue.any fun e => s.num 0x6005 0 ≤ e.msg.sev

/-- R638, R731, R752, R763, R764: the level of ALERT_N, true for low. -/
def State.alertLow (s : State) : Bool :=
  match s.pins.alertHeld with
  | some b => b
  | none => s.pins.alertTemp || (s.pins.aon && !s.pins.slowclk) || s.alertQueued

end Sys2Proof.Machine
end

