-- ==== Sys2Proof/Machine/Arith.lean ====
section
/-!
DEFINITION. The integer functions of the spec: check values (R44 CRC-32C, the CRC-32 and Adler-32 of PNG), SHA-384
(FIPS 180-4), mix64 and keyed values (R84 to R86), and the epoch permutation (R87 to R91).
-/
namespace Sys2Proof

/-! ### Check values -/

/-- One bit of a reflected CRC with polynomial `poly`. -/
def crcBit (poly c : Nat) : Nat := if c % 2 = 1 then (c >>> 1) ^^^ poly else c >>> 1

/-- One byte of a reflected CRC. -/
def crcByte (poly c : Nat) (b : Byte) : Nat :=
  let x := c ^^^ b.toNat
  crcBit poly (crcBit poly (crcBit poly (crcBit poly (crcBit poly (crcBit poly (crcBit poly (crcBit poly x)))))))

/-- R44: CRC-32C, polynomial 0x1EDC_6F41 reflected (0x82F6_3B78), initial value and final exclusive-or 0xFFFF_FFFF. -/
def crc32c (bs : Bytes) : Nat := (bs.foldl (crcByte 0x82F63B78) 0xFFFFFFFF) ^^^ 0xFFFFFFFF

/-- The chunk CRC of PNG (ISO/IEC 15948), polynomial 0xEDB8_8320 reflected (R204). -/
def crc32 (bs : Bytes) : Nat := (bs.foldl (crcByte 0xEDB88320) 0xFFFFFFFF) ^^^ 0xFFFFFFFF

/-- Adler-32 of the zlib stream of PNG (R206). -/
def adler32 (bs : Bytes) : Nat :=
  let (a, b) := bs.foldl (fun (a, b) x => let a' := (a + x.toNat) % 65521; (a', (b + a') % 65521)) (1, 0)
  b * 65536 + a

/-! ### SHA-384 (FIPS 180-4) -/

/-- The greatest r whose power r^e does not exceed n, by bits from `k` down. -/
def rootFrom (e : Nat) : Nat → Nat → Nat → Nat
  | 0, r, _ => r
  | k + 1, r, n => rootFrom e k (if (r + 2 ^ k) ^ e ≤ n then r + 2 ^ k else r) n

/-- The first 64 bits of the fractional part of the e-th root of n (n below 2^9), the form in which FIPS 180-4 gives its constants. -/
def rootBits64 (e n : Nat) : Nat := rootFrom e 69 0 (n * 2 ^ (64 * e)) % 2 ^ 64

/-- The primes below 410: the first eighty. -/
def primes80 : List Nat := (List.range 410).filter fun n => 2 ≤ n && (List.range 21).all fun d => d < 2 || n ≤ d || n % d != 0

/-- The eighty round constants: cube roots of the first eighty primes (FIPS 180-4, section 4.2.3). -/
def shaK : List Nat := primes80.map (rootBits64 3)

/-- The initial hash value of SHA-384: square roots of the ninth to sixteenth primes (FIPS 180-4, section 5.3.4). -/
def shaH0 : List Nat := ((primes80.drop 8).take 8).map (rootBits64 2)

/-- 2^64. -/
def two64 : Nat := 0x10000000000000000

/-- Rotation right of a 64-bit word. -/
def rotr64 (x n : Nat) : Nat := (x >>> n) ||| ((x <<< (64 - n)) % two64)

/-- The message schedule, newest word first: `k` further words. -/
def shaSchedule : Nat → List Nat → List Nat
  | 0, w => w
  | k + 1, w =>
    let w2 := w.getD 1 0
    let w7 := w.getD 6 0
    let w15 := w.getD 14 0
    let w16 := w.getD 15 0
    let s0 := rotr64 w15 1 ^^^ rotr64 w15 8 ^^^ (w15 >>> 7)
    let s1 := rotr64 w2 19 ^^^ rotr64 w2 61 ^^^ (w2 >>> 6)
    shaSchedule k (((w16 + s0 + w7 + s1) % two64) :: w)

/-- The eight working variables. -/
structure Sha where
  a : Nat
  b : Nat
  c : Nat
  d : Nat
  e : Nat
  f : Nat
  g : Nat
  h : Nat

/-- One round with constant plus schedule word `kw`. -/
def Sha.round (v : Sha) (kw : Nat) : Sha :=
  let s1 := rotr64 v.e 14 ^^^ rotr64 v.e 18 ^^^ rotr64 v.e 41
  let ch := (v.e &&& v.f) ^^^ ((0xFFFFFFFFFFFFFFFF ^^^ v.e) &&& v.g)
  let t1 := v.h + s1 + ch + kw
  let s0 := rotr64 v.a 28 ^^^ rotr64 v.a 34 ^^^ rotr64 v.a 39
  let mj := (v.a &&& v.b) ^^^ (v.a &&& v.c) ^^^ (v.b &&& v.c)
  { a := (t1 + s0 + mj) % two64, b := v.a, c := v.b, d := v.c, e := (v.d + t1) % two64, f := v.e, g := v.f, h := v.g }

/-- One 128-byte block. -/
def shaBlock (hs : List Nat) (blk : Bytes) : List Nat :=
  let w := (List.range 16).map fun i => beNat (slice blk (8 * i) 8)
  let ws := (shaSchedule 64 w.reverse).reverse
  let v0 : Sha := ⟨hs.getD 0 0, hs.getD 1 0, hs.getD 2 0, hs.getD 3 0, hs.getD 4 0, hs.getD 5 0, hs.getD 6 0, hs.getD 7 0⟩
  let v := (shaK.zip ws).foldl (fun v (k, x) => v.round (k + x)) v0
  (hs.zip [v.a, v.b, v.c, v.d, v.e, v.f, v.g, v.h]).map fun (x, y) => (x + y) % two64

/-- All blocks of a padded message; `n` bounds their number. -/
def shaBlocks : Nat → List Nat → Bytes → List Nat
  | 0, hs, _ => hs
  | n + 1, hs, bs => if bs.length < 128 then hs else shaBlocks n (shaBlock hs (bs.take 128)) (bs.drop 128)

/-- SHA-384 of a byte string, 48 bytes in digest order. -/
def sha384 (bs : Bytes) : Bytes :=
  let n := bs.length
  let padded := bs ++ [0x80] ++ zeros ((111 + 128 - n % 128) % 128) ++ beBytes 16 (8 * n)
  ((shaBlocks (n / 128 + 2) shaH0 padded).take 6).flatMap (beBytes 8)

/-! ### mix64 and keyed values -/

/-- R84. -/
def mix64 (x : Nat) : Nat :=
  let x := x ^^^ (x >>> 31)
  let x := (x * 0xD6E8FEB86659FD93) % two64
  let x := x ^^^ (x >>> 29)
  let x := (x * 0xA5A3564E27F886F5) % two64
  x ^^^ (x >>> 32)

/-- R86: the keyed value of a domain tag and 1 to 4 operands under a 128-bit seed (R85). -/
def keyed (seed tag : Nat) (ops : List Nat) : Nat :=
  let lo := seed % two64
  let hi := (seed >>> 64) % two64
  let h := mix64 (lo ^^^ ((tag <<< 56) % two64) ^^^ (ops.length <<< 48))
  mix64 ((ops.foldl (fun h o => mix64 (h ^^^ (o % two64))) h) ^^^ hi)

/-! ### The permutation -/

/-- The smallest `w` at most `fuel` with 2^w ≥ n, counted up from `w`. -/
def ceilLog2 : Nat → Nat → Nat → Nat
  | 0, w, _ => w
  | fuel + 1, w, n => if n ≤ 2 ^ w then w else ceilLog2 fuel (w + 1) n

/-- R87: the width w of an epoch's values. -/
def permWidth (n : Nat) : Nat := max 2 (ceilLog2 64 0 n)

/-- R88: the six round keys of an epoch. -/
def roundKeys (seed epoch : Nat) : List Nat := (List.range 6).map fun j => keyed seed 0x01 [epoch, j]

/-- R89: one Feistel pass on w-bit values, a = ceiling(w / 2), b = w − a. -/
def feistel (keys : List Nat) (w x : Nat) : Nat :=
  let a := (w + 1) / 2
  let b := w - a
  let (l, r, _) := keys.foldl (fun (l, r, j) k =>
      if j % 2 = 0 then (l ^^^ (mix64 (k ^^^ r) % 2 ^ a), r, j + 1) else (l, r ^^^ (mix64 (k ^^^ l) % 2 ^ b), j + 1))
    (x >>> b, x % 2 ^ b, 0)
  (l <<< b) ||| r

/-- R89: the cycle walk; at most 2^w − n + 1 passes are needed. -/
def cycleWalk (keys : List Nat) (w n : Nat) : Nat → Nat → Nat
  | 0, x => x
  | fuel + 1, x => let y := feistel keys w x; if y < n then y else cycleWalk keys w n fuel y

/-- R89: π_e(p), the ordinal at position p. -/
def permute (seed epoch n p : Nat) : Nat :=
  let w := permWidth n
  cycleWalk (roundKeys seed epoch) w n (2 ^ w - n + 1) p

/-- R106: the ordinal of substitute attempt `a` for a position whose shard set starts at `g0` and has `n` ordinals. -/
def substitute (seed e p a g0 n : Nat) : Nat := g0 + keyed seed 0x02 [e, p, a] % n

/-- R130: isqrt, the greatest integer whose square does not exceed n. -/
def isqrt (n : Nat) : Nat := rootFrom 2 40 0 n

/-- R148: the unkeyed content key of a byte string. -/
def contentKey (bs : Bytes) : Nat :=
  let words := (List.range ((bs.length + 7) / 8)).map fun i => field bs (8 * i) 8
  words.foldl (fun h w => mix64 (h ^^^ w)) (mix64 (0x6B65790000000000 ^^^ bs.length))

end Sys2Proof
end

