-- ==== Sys2Proof/Machine/Inflate.lean ====
section
/-!
DEFINITION. DEFLATE decoding (RFC 1951), as R211 accepts it: every block type, a window of 32 KiB.
-/
namespace Sys2Proof

/-- The input of a bit reader: bytes left, and the number of bits of the first that are taken. -/
structure BitIn where
  rest : Bytes
  used : Nat
  deriving DecidableEq, Repr, Inhabited

/-- One bit, least significant bit of a byte first. -/
def BitIn.bit (i : BitIn) : Option (Nat × BitIn) :=
  match i.rest with
  | [] => none
  | b :: bs =>
    let v := b.toNat / 2 ^ i.used % 2
    some (v, if i.used == 7 then ⟨bs, 0⟩ else ⟨i.rest, i.used + 1⟩)

/-- `n` bits as a number, first bit least significant. -/
def BitIn.take : Nat → BitIn → Option (Nat × BitIn)
  | 0, i => some (0, i)
  | n + 1, i => match i.bit with
    | none => none
    | some (b, i) => match BitIn.take n i with
      | none => none
      | some (v, i) => some (b + 2 * v, i)

/-- The input from the next byte boundary. -/
def BitIn.align (i : BitIn) : Bytes := if i.used == 0 then i.rest else i.rest.drop 1

/-- A canonical Huffman code: number of codes of each length 0 to 15, and the symbols by length, then value. -/
structure Huff where
  counts : List Nat
  syms   : List Nat
  deriving DecidableEq, Repr, Inhabited

/-- The code that code lengths by symbol give. -/
def huffOf (lens : List Nat) : Huff :=
  { counts := (List.range 16).map fun l => lens.count l,
    syms := ((List.range 15).map (· + 1)).flatMap fun l => (lens.zipIdx.filter fun p => p.1 == l).map (·.2) }

/-- Codes left over at each length: negative when the code has too many, positive when it is incomplete. -/
def Huff.left (h : Huff) : Int :=
  (h.counts.drop 1).foldl (fun (left : Int) (c : Nat) => if left < 0 then left else 2 * left - (c : Int)) 1

/-- A code that may be used: complete, or a single code of one bit. -/
def Huff.usable (h : Huff) : Bool := h.left == 0 || (0 < h.left && h.syms.length == 1 && h.counts.getD 1 0 == 1)

/-- One symbol: lengths from `l` up, with the code read so far, the first code of the length and its place in `syms`. -/
def Huff.decodeFrom (h : Huff) : Nat → Nat → Nat → Nat → Nat → BitIn → Option (Option Nat × BitIn)
  | 0, _, _, _, _, i => some (none, i)
  | fuel + 1, l, code, first, index, i =>
    match i.bit with
    | none => none
    | some (b, i) =>
      let code := code + b
      let count := h.counts.getD l 0
      if code < first + count && first ≤ code then some (h.syms[index + (code - first)]?, i)
      else Huff.decodeFrom h fuel (l + 1) (2 * code) (2 * (first + count)) (index + count) i

/-- One symbol; the inner `none` is a bit pattern that is no code. -/
def Huff.decode (h : Huff) (i : BitIn) : Option (Option Nat × BitIn) := h.decodeFrom 15 1 0 0 0 i

/-- Base lengths of symbols 257 to 285. -/
def lenBase : List Nat := [3, 4, 5, 6, 7, 8, 9, 10, 11, 13, 15, 17, 19, 23, 27, 31, 35, 43, 51, 59, 67, 83, 99, 115, 131, 163,
  195, 227, 258]
/-- Extra bits of symbols 257 to 285. -/
def lenExtra : List Nat := [0, 0, 0, 0, 0, 0, 0, 0, 1, 1, 1, 1, 2, 2, 2, 2, 3, 3, 3, 3, 4, 4, 4, 4, 5, 5, 5, 5, 0]
/-- Base distances of symbols 0 to 29. -/
def distBase : List Nat := [1, 2, 3, 4, 5, 7, 9, 13, 17, 25, 33, 49, 65, 97, 129, 193, 257, 385, 513, 769, 1025, 1537, 2049,
  3073, 4097, 6145, 8193, 12289, 16385, 24577]
/-- Extra bits of distance symbols. -/
def distExtra : List Nat := [0, 0, 0, 0, 1, 1, 2, 2, 3, 3, 4, 4, 5, 5, 6, 6, 7, 7, 8, 8, 9, 9, 10, 10, 11, 11, 12, 12, 13, 13]

/-- How a stream ended. -/
inductive InflEnd
  | done (rest : Bytes)   -- after its final block; the bytes after its last byte
  | bad                   -- invalid
  | short                 -- the input ended
  | over                  -- the output passed the limit
  deriving DecidableEq, Repr, Inhabited

/-- `n` bytes copied from distance `d`, output newest first. -/
def copyBack : Nat → Nat → Bytes → Bytes
  | 0, _, out => out
  | n + 1, d, out => copyBack n d (out.getD (d - 1) 0 :: out)

/-- Progress of a block: the input and output so far, with an end when there is one. -/
abbrev Infl := BitIn × Bytes × Option InflEnd

/-- The symbols of a compressed block up to its end-of-block symbol. -/
def inflSyms (lit dist : Huff) (limit : Nat) : Nat → BitIn → Bytes → Nat → Infl
  | 0, i, out, _ => (i, out, some .bad)
  | fuel + 1, i, out, n =>
    match lit.decode i with
    | none => (i, out, some .short)
    | some (none, i) => (i, out, some .bad)
    | some (some s, i) =>
      if s < 256 then
        if limit ≤ n then (i, out, some .over) else inflSyms lit dist limit fuel i (BitVec.ofNat 8 s :: out) (n + 1)
      else if s == 256 then (i, out, none)
      else if 285 < s then (i, out, some .bad)
      else match i.take (lenExtra.getD (s - 257) 0) with
        | none => (i, out, some .short)
        | some (x, i) => match dist.decode i with
          | none => (i, out, some .short)
          | some (none, i) => (i, out, some .bad)
          | some (some ds, i) =>
            if 29 < ds then (i, out, some .bad) else match i.take (distExtra.getD ds 0) with
              | none => (i, out, some .short)
              | some (y, i) =>
                let len := lenBase.getD (s - 257) 0 + x
                let d := distBase.getD ds 0 + y
                if n < d || 32768 < d then (i, out, some .bad)
                else if limit < n + len then (i, copyBack (limit - n) d out, some .over)
                else inflSyms lit dist limit fuel i (copyBack len d out) (n + len)

/-- Fixed literal and length code (BTYPE 01). -/
def fixedLit : Huff := huffOf (List.replicate 144 8 ++ List.replicate 112 9 ++ List.replicate 24 7 ++ List.replicate 8 8)
/-- Fixed distance code. -/
def fixedDist : Huff := huffOf (List.replicate 30 5)

/-- Order of the code length code lengths. -/
def clOrder : List Nat := [16, 17, 18, 0, 8, 7, 9, 6, 10, 5, 11, 4, 12, 3, 13, 2, 14, 1, 15]

/-- The code lengths of a dynamic block, newest first, until `want` are read. -/
def readLens (h : Huff) (want : Nat) : Nat → BitIn → List Nat → Option (Option (List Nat) × BitIn)
  | 0, i, _ => some (none, i)
  | fuel + 1, i, acc =>
    if want ≤ acc.length then some (if acc.length == want then some acc.reverse else none, i)
    else match h.decode i with
      | none => none
      | some (none, i) => some (none, i)
      | some (some s, i) =>
        if s < 16 then readLens h want fuel i (s :: acc)
        else
          let (bits, base) := if s == 16 then (2, 3) else if s == 17 then (3, 3) else (7, 11)
          if s == 16 && acc.isEmpty then some (none, i)
          else match i.take bits with
            | none => none
            | some (x, i) => readLens h want fuel i (List.replicate (base + x) (if s == 16 then acc.headD 0 else 0) ++ acc)

/-- The codes of a dynamic block; the inner `none` marks an invalid header. -/
def readDynamic (i : BitIn) : Option (Option (Huff × Huff) × BitIn) :=
  match i.take 5 with
  | none => none
  | some (hlit, i) => match i.take 5 with
    | none => none
    | some (hdist, i) => match i.take 4 with
      | none => none
      | some (hclen, i) =>
        if 29 < hlit then some (none, i) else
        let step (acc : Option (List Nat × BitIn)) (_ : Nat) : Option (List Nat × BitIn) :=
          match acc with
          | none => none
          | some (l, i) => (i.take 3).map fun (v, i) => (l ++ [v], i)
        match (List.range (hclen + 4)).foldl step (some ([], i)) with
        | none => none
        | some (cls, i) =>
          let lens := (List.range 19).map fun s => match clOrder.findIdx? (· == s) with
            | some k => cls.getD k 0
            | none => 0
          let cl := huffOf lens
          if cl.left != 0 then some (none, i) else
          match readLens cl (hlit + 257 + hdist + 1) (hlit + hdist + 400) i [] with
          | none => none
          | some (none, i) => some (none, i)
          | some (some ls, i) =>
            let lit := huffOf (ls.take (hlit + 257))
            let dist := huffOf (ls.drop (hlit + 257))
            if ls.getD 256 0 == 0 || !lit.usable || !(dist.usable || dist.syms.isEmpty) then some (none, i)
            else some (some (lit, dist), i)

/-- The blocks of a stream up to and with its final block. -/
def inflBlocks (limit : Nat) : Nat → BitIn → Bytes → Bytes × InflEnd
  | 0, _, out => (out, .bad)
  | fuel + 1, i, out =>
    match i.take 3 with
    | none => (out, .short)
    | some (hd, i) =>
      let bits := 8 * i.rest.length + 8
      let last := hd % 2 == 1
      let r : Infl :=
        if hd / 2 == 0 then
          let b := i.align
          if b.length < 4 then (i, out, some .short)
          else
            let len := field b 0 2
            if len + field b 2 2 != 65535 then (i, out, some .bad)
            else
              let body := slice b 4 len
              let room := limit - out.length
              let got := (body.take room).reverse ++ out
              if room < body.length then (i, got, some .over)
              else if body.length < len then (i, got, some .short)
              else (⟨b.drop (4 + len), 0⟩, got, none)
        else if hd / 2 == 1 then inflSyms fixedLit fixedDist limit bits i out out.length
        else if hd / 2 == 2 then match readDynamic i with
          | none => (i, out, some .short)
          | some (none, i) => (i, out, some .bad)
          | some (some (lit, dist), i) => inflSyms lit dist limit bits i out out.length
        else (i, out, some .bad)
      match r with
      | (_, out, some e) => (out, e)
      | (i, out, none) => if last then (out, .done i.align) else inflBlocks limit fuel i out

/-- R211: a DEFLATE stream decoded to at most `limit` bytes: the output and how it ended. -/
def inflate (limit : Nat) (b : Bytes) : Bytes × InflEnd :=
  let (out, e) := inflBlocks limit (8 * b.length + 1) ⟨b, 0⟩ []
  (out.reverse, e)

end Sys2Proof
end

