-- ==== Sys2Proof/Machine/Zstd.lean ====
section
/-!
DEFINITION. Zstandard decoding (RFC 8878), as R212 accepts it: one frame, every block type, literals mode and FSE and Huffman
mode, a window of at most 8 MiB and no dictionary. The reader of bits from the most significant end serves JPEG and FLAC too.
-/
namespace Sys2Proof

/-- The output of a decoder, or the structural fault code of R195 with the number of bytes made before it. -/
inductive Decoded
  | ok (b : Bytes)
  | bad (code : Nat) (made : Nat)
  deriving DecidableEq, Repr, Inhabited

/-- The input of a bit reader that takes the most significant bit of a byte first. -/
structure MsbIn where
  rest : Bytes
  used : Nat
  deriving DecidableEq, Repr, Inhabited

/-- One bit, most significant bit of a byte first. -/
def MsbIn.bit (i : MsbIn) : Option (Nat × MsbIn) :=
  match i.rest with
  | [] => none
  | b :: bs => some (b.toNat / 2 ^ (7 - i.used) % 2, if i.used == 7 then ⟨bs, 0⟩ else ⟨i.rest, i.used + 1⟩)

/-- `n` bits as a number, first bit most significant, after the bits of `acc`. -/
def MsbIn.takeOn : Nat → Nat → MsbIn → Option (Nat × MsbIn)
  | 0, acc, i => some (acc, i)
  | n + 1, acc, i => match i.bit with
    | none => none
    | some (b, i) => MsbIn.takeOn n (2 * acc + b) i

/-- `n` bits as a number, first bit most significant. -/
def MsbIn.take (n : Nat) (i : MsbIn) : Option (Nat × MsbIn) := i.takeOn n 0

/-- The next `n` bits, those past the end 0. -/
def MsbIn.peek : Nat → Nat → MsbIn → Nat
  | 0, acc, _ => acc
  | n + 1, acc, i => match i.bit with
    | none => MsbIn.peek n (2 * acc) i
    | some (b, i) => MsbIn.peek n (2 * acc + b) i

/-- The input from the next byte boundary. -/
def MsbIn.align (i : MsbIn) : Bytes := if i.used == 0 then i.rest else i.rest.drop 1

/-- A bitstream that is read backward from its last byte, after that byte's highest 1. -/
def backward (b : Bytes) : Option MsbIn :=
  match b.reverse with
  | [] => none
  | l :: ls =>
    if l == 0 then none else
      let k := 7 - Nat.log2 l.toNat
      some (if k == 7 then ⟨ls, 0⟩ else ⟨l :: ls, k + 1⟩)

/-! ### FSE -/

/-- A row of an FSE decoding table: symbol, bits of the next state and its baseline. -/
structure FseRow where
  sym  : Nat
  bits : Nat
  base : Nat
  deriving DecidableEq, Repr, Inhabited

/-- An FSE decoding table of 2^log states. -/
structure FseTab where
  log  : Nat
  rows : Array FseRow
  deriving DecidableEq, Repr, Inhabited

/-- Further zero probabilities after one: flags of 2 bits while they are 3. -/
def fseZeros : Nat → BitIn → Option (Nat × BitIn)
  | 0, _ => none
  | f + 1, i => match i.take 2 with
    | none => none
    | some (n, i) => if n == 3 then (fseZeros f i).map fun (m, i) => (3 + m, i) else some (n, i)

/-- The probabilities of a table description, newest first, until none remains of 2^log. -/
def fseProbs : Nat → Nat → BitIn → List Int → Option (List Int × BitIn)
  | 0, _, _, _ => none
  | _ + 1, 0, i, acc => some (acc.reverse, i)
  | f + 1, rem + 1, i, acc =>
    let n := Nat.log2 (rem + 2) + 1
    let low := 2 ^ n - 1 - (rem + 2)
    match i.take (n - 1) with
    | none => none
    | some (v, i) =>
      let read := if v < low then some (v, i) else match i.bit with
        | none => none
        | some (b, i) => some (if b == 1 then v + 2 ^ (n - 1) - low else v, i)
      match read with
      | none => none
      | some (v, i) =>
        let p : Int := (v : Int) - 1
        if rem + 1 < p.natAbs then none
        else if v == 1 then match fseZeros 256 i with
          | none => none
          | some (z, i) => fseProbs f (rem + 1) i (List.replicate (z + 1) 0 ++ acc)
        else fseProbs f (rem + 1 - p.natAbs) i (p :: acc)

/-- The next place of the spread that lies below the places of probability −1. -/
def fseNext (size high : Nat) : Nat → Nat → Nat
  | 0, p => p
  | f + 1, p =>
    let q := (p + size / 2 + size / 8 + 3) % size
    if q < high then q else fseNext size high f q

/-- The decoding table of probabilities that sum to 2^log. -/
def fseTable (log : Nat) (probs : List Int) : FseTab :=
  let size := 2 ^ log
  let (low, high) := probs.zipIdx.foldl (fun (a : Array Nat × Nat) (p, s) =>
    if p == -1 then (a.1.setIfInBounds (a.2 - 1) s, a.2 - 1) else a) (Array.replicate size 0, size)
  let (syms, _) := probs.zipIdx.foldl (fun (a : Array Nat × Nat) (p, s) =>
    (List.range p.toNat).foldl (fun (a : Array Nat × Nat) _ => (a.1.setIfInBounds a.2 s, fseNext size high size a.2)) a) (low, 0)
  let (rows, _) := syms.toList.foldl (fun (a : Array FseRow × Array Nat) s =>
    let next := a.2.getD s 1
    let n := log - Nat.log2 next
    (a.1.push ⟨s, n, next * 2 ^ n - size⟩, a.2.setIfInBounds s (next + 1))) (#[], (probs.map fun p => max 1 p.natAbs).toArray)
  ⟨log, rows⟩

/-- A table description at the head of bytes: at most `most` in its accuracy and `syms` symbols; the bytes after it. -/
def fseRead (most syms : Nat) (b : Bytes) : Option (FseTab × Bytes) :=
  match BitIn.take 4 ⟨b, 0⟩ with
  | none => none
  | some (v, i) =>
    if most < v + 5 then none else match fseProbs 600 (2 ^ (v + 5)) i [] with
      | none => none
      | some (ps, i) => if syms < ps.length then none else some (fseTable (v + 5) ps, i.align)

/-- The row of a state. -/
def FseTab.row (t : FseTab) (s : Nat) : FseRow := t.rows.getD s default

/-- The next state after a state. -/
def FseTab.next (t : FseTab) (s : Nat) (i : MsbIn) : Option (Nat × MsbIn) :=
  (i.take (t.row s).bits).map fun (v, i) => ((t.row s).base + v, i)

/-! ### Huffman-coded literals -/

/-- A literals code: bits of its longest code, and symbol and length of each prefix of that many bits. -/
structure ZsHuff where
  most : Nat
  rows : Array (Nat × Nat)
  deriving DecidableEq, Repr, Inhabited

/-- The code that the weights of all symbols but the last give. -/
def zsHuffOf (ws : List Nat) : Option ZsHuff :=
  let sum := (ws.map fun w => if w == 0 then 0 else 2 ^ (w - 1)).sum
  let most := Nat.log2 sum + 1
  let left := 2 ^ most - sum
  if sum == 0 || 11 < most || 2 ^ Nat.log2 left != left then none else
    let all := (ws ++ [Nat.log2 left + 1]).zipIdx
    some ⟨most, ((List.range most).flatMap fun k =>
      (all.filter fun p => p.1 == k + 1).flatMap fun p => List.replicate (2 ^ k) (p.2, most - k)).toArray⟩

/-- The weights of two interleaved FSE states, until the bits run out. -/
def zsWeights (t : FseTab) : Nat → Nat → Nat → MsbIn → List Nat → Option (List Nat)
  | 0, _, _, _, _ => none
  | f + 1, s, o, i, acc =>
    let acc := (t.row s).sym :: acc
    match t.next s i with
    | none => some ((t.row o).sym :: acc).reverse
    | some (s', i) => zsWeights t f o s' i acc

/-- A Huffman tree description at the head of bytes; the bytes after it. -/
def zsTree (b : Bytes) : Option (ZsHuff × Bytes) :=
  match b with
  | [] => none
  | h :: b =>
    let h := h.toNat
    if 128 ≤ h then
      let n := (h - 127 + 1) / 2
      if b.length < n then none else
        let ws := ((b.take n).flatMap fun x => [x.toNat / 16, x.toNat % 16]).take (h - 127)
        (zsHuffOf ws).map fun t => (t, b.drop n)
    else if b.length < h then none
    else match fseRead 6 256 (b.take h) with
      | none => none
      | some (t, rest) => match backward rest with
        | none => none
        | some i => match i.take t.log with
          | none => none
          | some (s, i) => match i.take t.log with
            | none => none
            | some (o, i) => match zsWeights t 255 s o i [] with
              | none => none
              | some ws => (zsHuffOf ws).map fun t => (t, b.drop h)

/-- `n` literals of one stream, newest first before `acc`; the stream must end with them. -/
def zsStream (h : ZsHuff) : Nat → MsbIn → Bytes → Option Bytes
  | 0, i, acc => if i.rest.isEmpty then some acc else none
  | n + 1, i, acc =>
    let r := h.rows.getD (i.peek h.most 0) (0, 0)
    match i.take r.2 with
    | none => none
    | some (_, i) => zsStream h n i (byteOf r.1 :: acc)

/-- The literals of one stream or of four. -/
def zsLiterals (h : ZsHuff) (four : Bool) (n : Nat) (b : Bytes) : Option Bytes :=
  let one (n : Nat) (b : Bytes) : Option Bytes := match backward b with
    | none => none
    | some i => (zsStream h n i []).map List.reverse
  if !four then one n b
  else
    let k := (n + 3) / 4
    let a := field b 0 2
    let c := field b 2 2
    let d := field b 4 2
    if b.length < 6 + a + c + d || n < 3 * k then none
    else match one k (slice b 6 a), one k (slice b (6 + a) c), one k (slice b (6 + a + c) d), one (n - 3 * k) (b.drop (6 + a + c + d)) with
      | some w, some x, some y, some z => some (w ++ x ++ y ++ z)
      | _, _, _, _ => none

/-! ### Blocks -/

/-- What a frame's blocks share: the literals code, the three tables, the three recent offsets, and the output newest first with
its length. -/
structure Zs where
  huff : Option ZsHuff := none
  ll   : Option FseTab := none
  of   : Option FseTab := none
  ml   : Option FseTab := none
  r1   : Nat := 1
  r2   : Nat := 4
  r3   : Nat := 8
  out  : Bytes := []
  n    : Nat := 0
  deriving DecidableEq, Repr, Inhabited

/-- The literals section of a block: the literals, the bytes after it and the code it leaves. -/
def zsLitSection (z : Zs) (b : Bytes) : Option (Bytes × Bytes × Zs) :=
  let b0 := field b 0 1
  let sf := b0 / 4 % 4
  if b.isEmpty then none
  else if b0 % 4 < 2 then
    let (hl, n) := if sf % 2 == 0 then (1, b0 / 8) else if sf == 1 then (2, field b 0 2 / 16) else (3, field b 0 3 / 16)
    let p := b.drop hl
    if 131072 < n then none
    else if b0 % 4 == 0 then (if p.length < n then none else some (p.take n, p.drop n, z))
    else match p with
      | [] => none
      | x :: p => some (List.replicate n x, p, z)
  else
    let (hl, w) := if sf < 2 then (3, 10) else if sf == 2 then (4, 14) else (5, 18)
    let v := field b 0 hl / 16
    let n := v % 2 ^ w
    let c := v / 2 ^ w % 2 ^ w
    if b.length < hl + c || 131072 < n then none else
      let body := slice b hl c
      let tree := if b0 % 4 == 2 then zsTree body else z.huff.map fun h => (h, body)
      match tree with
      | none => none
      | some (h, body) => (zsLiterals h (sf != 0) n body).map fun l => (l, b.drop (hl + c), { z with huff := some h })

/-- Literal length codes: baseline and extra bits. -/
def zsLL : List (Nat × Nat) := ((List.range 16).map fun n => (n, 0)) ++ [(16, 1), (18, 1), (20, 1), (22, 1), (24, 2), (28, 2), (32, 3), (40, 3),
  (48, 4), (64, 6), (128, 7), (256, 8), (512, 9), (1024, 10), (2048, 11), (4096, 12), (8192, 13), (16384, 14), (32768, 15), (65536, 16)]

/-- Match length codes: baseline and extra bits. -/
def zsML : List (Nat × Nat) := ((List.range 32).map fun n => (n + 3, 0)) ++ [(35, 1), (37, 1), (39, 1), (41, 1), (43, 2), (47, 2), (51, 3), (59, 3),
  (67, 4), (83, 4), (99, 5), (131, 7), (259, 8), (515, 9), (1027, 10), (2051, 11), (4099, 12), (8195, 13), (16387, 14), (32771, 15), (65539, 16)]

/-- The predefined distributions. -/
def zsLLDef : List Int := [4, 3, 2, 2, 2, 2, 2, 2, 2, 2, 2, 2, 2, 1, 1, 1, 2, 2, 2, 2, 2, 2, 2, 2, 2, 3, 2, 1, 1, 1, 1, 1, -1, -1, -1, -1]
/-- RFC 8878, 3.1.1.3.2.2: the default match length distribution. -/
def zsMLDef : List Int := [1, 4, 3, 2, 2, 2, 2, 2, 2] ++ List.replicate 37 1 ++ List.replicate 7 (-1)
/-- RFC 8878, 3.1.1.3.2.2: the default offset code distribution. -/
def zsOFDef : List Int := [1, 1, 1, 1, 1, 1, 2, 2, 2] ++ List.replicate 15 1 ++ List.replicate 5 (-1)

/-- The table of a mode: predefined, one symbol, described, or the one before. -/
def zsTable (mode most syms log : Nat) (dflt : List Int) (old : Option FseTab) (b : Bytes) : Option (FseTab × Bytes) :=
  match mode with
  | 0 => some (fseTable log dflt, b)
  | 1 => match b with
    | [] => none
    | s :: b => if syms ≤ s.toNat then none else some (⟨0, #[⟨s.toNat, 0, 0⟩]⟩, b)
  | 2 => fseRead most syms b
  | _ => old.map fun t => (t, b)

/-- An offset value, with the recent offsets after it; none where it names no offset. -/
def zsOffset (z : Zs) (ll v : Nat) : Option (Nat × Zs) :=
  if 3 < v then some (v - 3, { z with r1 := v - 3, r2 := z.r1, r3 := z.r2 })
  else match v - 1 + (if ll == 0 then 1 else 0) with
    | 0 => some (z.r1, z)
    | 1 => some (z.r2, { z with r1 := z.r2, r2 := z.r1 })
    | 2 => some (z.r3, { z with r1 := z.r3, r2 := z.r1, r3 := z.r2 })
    | _ => if z.r1 ≤ 1 then none else some (z.r1 - 1, { z with r1 := z.r1 - 1, r2 := z.r1, r3 := z.r2 })

/-- Output with bytes added. -/
def Zs.put (z : Zs) (b : Bytes) : Zs := { z with out := b.reverse ++ z.out, n := z.n + b.length }

/-- How a block ends: at its end, at output past the limit, or invalid. -/
inductive ZsEnd
  | next (z : Zs)
  | over (z : Zs)
  | bad (z : Zs)
  deriving DecidableEq, Repr, Inhabited

/-- `n` sequences from the states of the three tables, with the literals left. -/
def zsSeqs (window limit : Nat) (lt ot mt : FseTab) : Nat → Nat → Nat → Nat → MsbIn → Bytes → Zs → ZsEnd
  | 0, _, _, _, i, lits, z => if i.rest.isEmpty then .next (z.put lits) else .bad z
  | n + 1, ls, os, ms, i, lits, z =>
    let oc := (ot.row os).sym
    let mc := zsML.getD (mt.row ms).sym (0, 0)
    let lc := zsLL.getD (lt.row ls).sym (0, 0)
    match i.take oc with
    | none => .bad z
    | some (ov, i) => match i.take mc.2 with
      | none => .bad z
      | some (mv, i) => match i.take lc.2 with
        | none => .bad z
        | some (lv, i) =>
          let ll := lc.1 + lv
          let len := mc.1 + mv
          match zsOffset z ll (2 ^ oc + ov) with
          | none => .bad z
          | some (off, z) =>
            let z := z.put (lits.take ll)
            if lits.length < ll || z.n < off || window < off then .bad z
            else if limit < z.n + len then .over { z with out := copyBack (limit - z.n) off z.out, n := max z.n limit }
            else
              let z := { z with out := copyBack len off z.out, n := z.n + len }
              if n == 0 then zsSeqs window limit lt ot mt n ls os ms i (lits.drop ll) z
              else match lt.next ls i with
                | none => .bad z
                | some (ls, i) => match mt.next ms i with
                  | none => .bad z
                  | some (ms, i) => match ot.next os i with
                    | none => .bad z
                    | some (os, i) => zsSeqs window limit lt ot mt n ls os ms i (lits.drop ll) z

/-- The sequences section of a block: its count and the bytes after it. -/
def zsCount (b : Bytes) : Option (Nat × Bytes) :=
  let b0 := field b 0 1
  if b.isEmpty then none
  else if b0 < 128 then some (b0, b.drop 1)
  else if b0 < 255 then (if b.length < 2 then none else some ((b0 - 128) * 256 + field b 1 1, b.drop 2))
  else if b.length < 3 then none else some (field b 1 2 + 0x7F00, b.drop 3)

/-- A compressed block. -/
def zsBlock (window limit : Nat) (z : Zs) (b : Bytes) : ZsEnd :=
  match zsLitSection z b with
  | none => .bad z
  | some (lits, b, z) => match zsCount b with
    | none => .bad z
    | some (0, b) => if b.isEmpty then .next (z.put lits) else .bad z
    | some (n, b) =>
      let m := field b 0 1
      if b.isEmpty || m % 4 != 0 then .bad z
      else match zsTable (m / 64) 9 36 6 zsLLDef z.ll (b.drop 1) with
        | none => .bad z
        | some (lt, b) => match zsTable (m / 16 % 4) 8 32 5 zsOFDef z.of b with
          | none => .bad z
          | some (ot, b) => match zsTable (m / 4 % 4) 9 53 6 zsMLDef z.ml b with
            | none => .bad z
            | some (mt, b) => match backward b with
              | none => .bad z
              | some i => match i.take lt.log with
                | none => .bad z
                | some (ls, i) => match i.take ot.log with
                  | none => .bad z
                  | some (os, i) => match i.take mt.log with
                    | none => .bad z
                    | some (ms, i) => zsSeqs window limit lt ot mt n ls os ms i lits { z with ll := some lt, of := some ot, ml := some mt }

/-- The blocks of a frame up to and with its last: how they end, and the bytes after. -/
def zsBlocks (window limit : Nat) : Nat → Zs → Bytes → ZsEnd × Bytes
  | 0, z, b => (.bad z, b)
  | f + 1, z, b =>
    let h := field b 0 3
    let size := h / 8
    let most := min window 131072
    let p := b.drop 3
    let held := if h / 2 % 4 == 1 then 1 else size
    if b.length < 3 || p.length < held || most < size then (.bad z, b)
    else
      let r : ZsEnd := match h / 2 % 4 with
        | 0 => .next (z.put (p.take size))
        | 1 => .next (z.put (List.replicate size (p.headD 0)))
        | 2 => match zsBlock window limit z (p.take size) with
          | .next y => if z.n + most < y.n then .bad y else .next y
          | e => e
        | _ => .bad z
      match r with
      | .next z =>
        if limit < z.n then (.over z, p)
        else if h % 2 == 1 then (.next z, p.drop held) else zsBlocks window limit f z (p.drop held)
      | e => (e, p)

/-! ### XXH64 -/

/-- 64-bit rotation to the left. -/
def rot64 (x n : Nat) : Nat := (x * 2 ^ n + x / 2 ^ (64 - n)) % 2 ^ 64

/-- XXH64: the first prime. -/
def xxP1 : Nat := 0x9E3779B185EBCA87
/-- XXH64: the second prime. -/
def xxP2 : Nat := 0xC2B2AE3D27D4EB4F
/-- XXH64: the third prime. -/
def xxP3 : Nat := 0x165667B19E3779F9
/-- XXH64: the fourth prime. -/
def xxP4 : Nat := 0x85EBCA77C2B2AE63
/-- XXH64: the fifth prime. -/
def xxP5 : Nat := 0x27D4EB2F165667C5

/-- A lane taken into an accumulator. -/
def xxRound (acc lane : Nat) : Nat := rot64 ((acc + lane * xxP2) % 2 ^ 64) 31 * xxP1 % 2 ^ 64

/-- Stripes of 32 bytes taken into the four accumulators. -/
def xxStripes : Nat → Bytes → Nat × Nat × Nat × Nat → Bytes × Nat × Nat × Nat × Nat
  | 0, b, a => (b, a)
  | f + 1, b, (v, w, x, y) =>
    if b.length < 32 then (b, v, w, x, y)
    else xxStripes f (b.drop 32) (xxRound v (field b 0 8), xxRound w (field b 8 8), xxRound x (field b 16 8), xxRound y (field b 24 8))

/-- The bytes after the stripes. -/
def xxTail : Nat → Bytes → Nat → Nat
  | 0, _, h => h
  | f + 1, b, h =>
    if 8 ≤ b.length then xxTail f (b.drop 8) ((rot64 (h ^^^ xxRound 0 (field b 0 8)) 27 * xxP1 + xxP4) % 2 ^ 64)
    else if 4 ≤ b.length then xxTail f (b.drop 4) ((rot64 (h ^^^ (field b 0 4 * xxP1 % 2 ^ 64)) 23 * xxP2 + xxP3) % 2 ^ 64)
    else match b with
      | [] => h
      | x :: b => xxTail f b (rot64 (h ^^^ (x.toNat * xxP5 % 2 ^ 64)) 11 * xxP1 % 2 ^ 64)

/-- XXH64 with seed 0. -/
def xxh64 (b : Bytes) : Nat :=
  let merge (h v : Nat) : Nat := ((h ^^^ xxRound 0 v) * xxP1 + xxP4) % 2 ^ 64
  let (rest, h) :=
    if 32 ≤ b.length then
      let (r, v, w, x, y) := xxStripes b.length b ((xxP1 + xxP2) % 2 ^ 64, xxP2, 0, 2 ^ 64 - xxP1)
      (r, merge (merge (merge (merge ((rot64 v 1 + rot64 w 7 + rot64 x 12 + rot64 y 18) % 2 ^ 64) v) w) x) y)
    else (b, xxP5)
  let h := xxTail rest.length rest ((h + b.length) % 2 ^ 64)
  let h := (h ^^^ (h / 2 ^ 33)) * xxP2 % 2 ^ 64
  let h := (h ^^^ (h / 2 ^ 29)) * xxP3 % 2 ^ 64
  h ^^^ (h / 2 ^ 32)

/-! ### The frame -/

/-- R212, R195: one Zstandard frame decoded to at most `limit` bytes; a frame that makes more answers its first `limit`. -/
def zstd (limit : Nat) (b : Bytes) : Decoded :=
  let d := field b 4 1
  let single := d / 32 % 2 == 1
  let dl := [0, 1, 2, 4].getD (d % 4) 0
  let fl := if d / 64 == 0 then (if single then 1 else 0) else 2 ^ (d / 64)
  let wl := if single then 0 else 1
  let hl := 5 + wl + dl + fl
  if b.length < hl || field b 0 4 != 0xFD2FB528 || d / 8 % 2 == 1 then .bad 0x05 0
  else
    let w := field b 5 1
    let size := field b (5 + wl + dl) fl + (if fl == 2 then 256 else 0)
    let window := if single then size else 2 ^ (10 + w / 8) + 2 ^ (7 + w / 8) * (w % 8)
    if 8388608 < window then .bad 0x03 0
    else if field b (5 + wl) dl != 0 then .bad 0x02 0
    else match zsBlocks window limit b.length {} (b.drop hl) with
      | (.bad z, _) => .bad 0x05 z.n
      | (.over z, _) => .ok (z.out.reverse.take limit)
      | (.next z, rest) =>
        let out := z.out.reverse
        let cl := if d / 4 % 2 == 1 then 4 else 0
        if rest.length != cl then .bad 0x05 z.n
        else if fl != 0 && size != z.n then .bad 0x06 z.n
        else if cl == 4 && field rest 0 4 != xxh64 out % 2 ^ 32 then .bad 0x06 z.n
        else .ok out

end Sys2Proof
end

