-- ==== Sys2Proof/Machine/Flac.lean ====
section
/-!
DEFINITION. FLAC decoding (RFC 9639) within R207, with the damage and the resynchronisation of R209.
-/
namespace Sys2Proof

/-- `n` bits as a two's complement number. -/
def MsbIn.signed (n : Nat) (i : MsbIn) : Option (Int × MsbIn) :=
  (i.take n).map fun (v, i) => (if n != 0 && 2 ^ (n - 1) ≤ v then (v : Int) - (2 ^ n : Nat) else v, i)

/-- Zeros up to the next 1. -/
def MsbIn.unary : Nat → Nat → MsbIn → Option (Nat × MsbIn)
  | 0, _, _ => none
  | f + 1, n, i => match i.bit with
    | none => none
    | some (b, i) => if b == 1 then some (n, i) else MsbIn.unary f (n + 1) i

end Sys2Proof

namespace Sys2Proof.Machine
open Sys2Proof

/-- What the FLAC decoder hands on (R207 to R209): runs of audio frames in order, each with its samples, or damaged. -/
inductive FlacScan
  | bad (code : Nat)
  | audio (sampleBits channels : Nat) (frames : List (Nat × Option (List Int)))
    -- block size and its interleaved samples, `none` for damaged frames (R209)
  deriving DecidableEq, Repr, Inhabited

/-- The STREAMINFO block. -/
structure FlacInfo where
  block    : Nat   -- largest block size
  channels : Nat
  bits     : Nat
  total    : Nat   -- audio frames; 0 for unknown
  deriving DecidableEq, Repr, Inhabited

/-- A frame header. -/
structure FlacHead where
  size  : Nat      -- audio frames
  chans : Nat      -- channel assignment code
  bits  : Nat
  start : Nat      -- number of its first audio frame
  len   : Nat      -- bytes, with the CRC-8
  deriving DecidableEq, Repr, Inhabited

/-- CRC of `n` bits with a polynomial, most significant bit first, from 0. -/
def crcMsb (n poly : Nat) (b : Bytes) : Nat :=
  b.foldl (fun c x => (List.range 8).foldl (fun c _ => if 2 ^ (n - 1) ≤ c then (2 * c) % 2 ^ n ^^^ poly else 2 * c) (c ^^^ (x.toNat * 2 ^ (n - 8)))) 0

/-- The coded number of a frame header at the head of bytes: the number and its length. -/
def flacNumber (b : Bytes) : Option (Nat × Nat) :=
  let x := field b 0 1
  let more (n v : Nat) : Option (Nat × Nat) :=
    let l := (b.drop 1).take n
    if l.length < n || l.any (fun y => y.toNat / 64 != 2) then none
    else some (l.foldl (fun a y => a * 64 + y.toNat % 64) v, n + 1)
  if b.isEmpty then none
  else if x < 0x80 then some (x, 1)
  else if x < 0xC0 then none
  else if x < 0xE0 then more 1 (x % 32)
  else if x < 0xF0 then more 2 (x % 16)
  else if x < 0xF8 then more 3 (x % 8)
  else if x < 0xFC then more 4 (x % 4)
  else if x < 0xFE then more 5 (x % 2)
  else if x == 0xFE then more 6 0
  else none

/-- A frame header at the head of bytes whose CRC-8 passes. The number of a stream of fixed block size counts blocks. -/
def flacHead (info : FlacInfo) (b : Bytes) : Option FlacHead :=
  let x := field b 1 1
  let bc := field b 2 1 / 16
  let rc := field b 2 1 % 16
  let ch := field b 3 1 / 16
  let dc := field b 3 1 / 2 % 8
  if field b 0 1 != 0xFF || x / 2 != 0x7C || bc == 0 || rc == 15 || 10 < ch || dc == 3 || field b 3 1 % 2 == 1 then none
  else match flacNumber (b.drop 4) with
    | none => none
    | some (num, nl) =>
      let bl := if bc == 6 then 1 else if bc == 7 then 2 else 0
      let rl := if rc == 12 then 1 else if rc == 13 || rc == 14 then 2 else 0
      let n := 4 + nl + bl + rl
      let size := if bc == 1 then 192 else if bc ≤ 5 then 144 * 2 ^ bc else if bc ≤ 7 then beNat (slice b (4 + nl) bl) + 1 else 2 ^ bc
      if b.length ≤ n || crcMsb 8 0x07 (b.take n) != field b n 1 || 65535 < size then none
      else some { size := size, chans := ch, bits := if dc == 0 then info.bits else [0, 8, 12, 0, 16, 20, 24, 32].getD dc 0,
                  start := if x % 2 == 1 then num else num * info.block, len := n + 1 }

/-- A Rice-coded residual of parameter `k`. -/
def flacRice (k : Nat) (i : MsbIn) : Option (Int × MsbIn) :=
  match i.unary (8 * i.rest.length + 1) 0 with
  | none => none
  | some (q, i) => (i.take k).map fun (r, i) =>
    let v := q * 2 ^ k + r
    (if v % 2 == 0 then ((v / 2 : Nat) : Int) else -(((v + 1) / 2 : Nat) : Int), i)

/-- `n` values read one after another, newest first before `acc`. -/
def flacMany (read : MsbIn → Option (Int × MsbIn)) : Nat → MsbIn → List Int → Option (List Int × MsbIn)
  | 0, i, acc => some (acc, i)
  | n + 1, i, acc => match read i with
    | none => none
    | some (v, i) => flacMany read n i (v :: acc)

/-- The partitions of a residual: sizes in order, newest first before `acc`; parameters of `w` bits. -/
def flacParts (w : Nat) : List Nat → MsbIn → List Int → Option (List Int × MsbIn)
  | [], i, acc => some (acc, i)
  | n :: l, i, acc => match i.take w with
    | none => none
    | some (k, i) =>
      let r := if k == 2 ^ w - 1 then match i.take 5 with
          | none => none
          | some (m, i) => flacMany (MsbIn.signed m) n i acc
        else flacMany (flacRice k) n i acc
      match r with
      | none => none
      | some (acc, i) => flacParts w l i acc

/-- A residual of `size` audio frames less the predictor's order, in order. -/
def flacResidual (size order : Nat) (i : MsbIn) : Option (List Int × MsbIn) :=
  match i.take 2 with
  | none => none
  | some (m, i) => match i.take 4 with
    | none => none
    | some (p, i) =>
      let per := size / 2 ^ p
      if 1 < m || size % 2 ^ p != 0 || per < order then none
      else (flacParts (4 + m) ((per - order) :: List.replicate (2 ^ p - 1) per) i []).map fun (l, i) => (l.reverse, i)

/-- Samples predicted from the ones before them (newest first): coefficients, shift, residual. -/
def flacPredict (coefs : List Int) (shift : Nat) (res past : List Int) : List Int :=
  res.foldl (fun past r => (r + ((coefs.zip past).map fun (c, s) => c * s).sum / (2 ^ shift : Nat)) :: past) past

/-- The coefficients of the fixed predictors. -/
def flacFixed (order : Nat) : List Int := [[], [1], [2, -1], [3, -3, 1], [4, -6, 4, -1]].getD order []

/-- A subframe's samples, before its wasted bits, newest first. -/
def flacKind (size bits kind : Nat) (i : MsbIn) : Option (List Int × MsbIn) :=
  if kind == 0 then (MsbIn.signed bits i).map fun (v, i) => (List.replicate size v, i)
  else if kind == 1 then flacMany (MsbIn.signed bits) size i []
  else
    let order := if kind < 32 then kind - 8 else kind - 31
    if kind < 8 || (12 < kind && kind < 32) || size < order then none
    else match flacMany (MsbIn.signed bits) order i [] with
      | none => none
      | some (past, i) =>
        if kind < 32 then (flacResidual size order i).map fun (r, i) => (flacPredict (flacFixed order) 0 r past, i)
        else match i.take 4 with
          | none => none
          | some (p, i) => match MsbIn.signed 5 i with
            | none => none
            | some (s, i) =>
              if p == 15 || s < 0 then none
              else match flacMany (MsbIn.signed (p + 1)) order i [] with
                | none => none
                | some (cs, i) => (flacResidual size order i).map fun (r, i) => (flacPredict cs.reverse s.toNat r past, i)

/-- A subframe: its samples in order. -/
def flacSubframe (size bits : Nat) (i : MsbIn) : Option (List Int × MsbIn) :=
  match i.take 8 with
  | none => none
  | some (h, i) =>
    let wasted := if h % 2 == 0 then some (0, i) else (i.unary (8 * i.rest.length + 1) 0).map fun (n, i) => (n + 1, i)
    match wasted with
    | none => none
    | some (w, i) =>
      if 128 ≤ h || bits ≤ w then none
      else (flacKind size (bits - w) (h / 2) i).map fun (l, i) => (l.reverse.map fun v => v * 2 ^ w, i)

/-- The subframes of a frame, one after another, each with its sample size. -/
def flacSubframes (size : Nat) : List Nat → MsbIn → List (List Int) → Option (List (List Int) × MsbIn)
  | [], i, acc => some (acc.reverse, i)
  | b :: l, i, acc => match flacSubframe size b i with
    | none => none
    | some (s, i) => flacSubframes size l i (s :: acc)

/-- The channels of a frame: stereo decorrelation undone. -/
def flacStereo (chans : Nat) (l : List (List Int)) : List (List Int) :=
  let a := l.getD 0 []
  let b := l.getD 1 []
  if chans == 8 then [a, List.zipWith (· - ·) a b]
  else if chans == 9 then [List.zipWith (· + ·) a b, b]
  else if chans == 10 then
    let m (x y : Int) : Int := 2 * x + y % 2
    [List.zipWith (fun x y => (m x y + y) / 2) a b, List.zipWith (fun x y => (m x y - y) / 2) a b]
  else l

/-- R209: the frame of a header at the head of bytes: its interleaved samples and its length in bytes, none when it cannot be decoded. A
frame that differs from STREAMINFO in its channels or sample size cannot. -/
def flacFrame (info : FlacInfo) (h : FlacHead) (b : Bytes) : Option (List Int × Nat) :=
  let n := if h.chans < 8 then h.chans + 1 else 2
  if n != info.channels || h.bits != info.bits then none
  else
    let side := if h.chans == 9 then 0 else 1
    let sizes := (List.range n).map fun k => if 8 ≤ h.chans && k == side then h.bits + 1 else h.bits
    match flacSubframes h.size sizes ⟨b.drop h.len, 0⟩ [] with
    | none => none
    | some (l, i) =>
      let rest := i.align
      let len := b.length - rest.length
      if rest.length < 2 || crcMsb 16 0x8005 (b.take len) != beNat (rest.take 2) then none
      else
        let cs := (flacStereo h.chans l).map List.toArray
        some ((List.range h.size).flatMap fun t => cs.map fun c => c.getD t 0, len + 2)

/-- R209: frames from a place on. `done` counts the audio frames up to the end of the last good frame; `lost` holds the audio frames of the
damaged frames with a sound header since then, and `junk` the bytes since the last header met (from none). A good frame that begins
before `done` is passed over. -/
def flacFrames (info : FlacInfo) : Nat → Bytes → Nat → Nat → Bytes → List (Nat × Option (List Int)) → List (Nat × Option (List Int)) × Nat × Nat × Bytes
  | 0, _, done, lost, junk, acc => (acc, done, lost, junk)
  | f + 1, b, done, lost, junk, acc =>
    match b with
    | [] => (acc, done, lost, junk)
    | x :: t => match flacHead info b with
      | none => flacFrames info f t done lost (junk ++ [x]) acc
      | some h => match flacFrame info h b with
        | none => flacFrames info f t done (lost + h.size) [] acc
        | some (s, n) =>
          if h.start < done then flacFrames info f (b.drop n) done lost [] acc
          else
            let gap := if done < h.start then [(h.start - done, none)] else []
            flacFrames info f (b.drop n) (h.start + h.size) 0 [] (acc ++ gap ++ [(h.size, some s)])

/-- Metadata blocks after STREAMINFO up to and with the last: the bytes after them. -/
def flacMeta : Nat → Bool → Bytes → Option Bytes
  | 0, _, _ => none
  | f + 1, last, b =>
    if last then some b
    else
      let n := beNat (slice b 1 3)
      if b.length < 4 + n || field b 0 1 % 128 == 127 then none
      else flacMeta f (field b 0 1 / 128 == 1) (b.drop (4 + n))

/-- R207, R209: a FLAC value. Audio frames missing at the end are those up to STREAMINFO's count, or, where it gives none, those of the
damaged frames met there. -/
def flacDecode (b : Bytes) : FlacScan :=
  let si := slice b 8 34
  let v := beNat (slice si 10 8)
  let info : FlacInfo := { block := beNat (slice si 2 2), channels := v / 2 ^ 41 % 8 + 1, bits := v / 2 ^ 36 % 32 + 1, total := v % 2 ^ 36 }
  if b.take 4 != [0x66, 0x4C, 0x61, 0x43] || field b 4 1 % 128 != 0 || beNat (slice b 5 3) != 34 || si.length != 34 then .bad 0x01
  else if beNat (slice si 0 2) < 16 || info.block < beNat (slice si 0 2) then .bad 0x01
  else if 24 < info.bits then .bad 0x02
  else if info.bits < 4 then .bad 0x01
  else match flacMeta b.length (128 ≤ field b 4 1) (b.drop 42) with
    | none => .bad 0x01
    | some rest =>
      let (frames, done, lost, junk) := flacFrames info rest.length rest 0 0 [] []
      let tail := if info.total != 0 then info.total - done else lost + (if junk.isEmpty then 0 else Config.flacTail junk)
      .audio info.bits info.channels (frames ++ if tail == 0 then [] else [(tail, none)])

end Sys2Proof.Machine
end

