-- ==== Sys2Proof/Machine/Formats.lean ====
section
/-!
DEFINITION. Number formats and rounding ("Sample engines, contexts and number formats"): values as exact dyadic numbers,
reading and writing each format, round to nearest even, stochastic rounding, MX blocks.
-/
namespace Sys2Proof

/-! ### Exact values -/

/-- A value of a number format: NaN, an infinity, or sign, magnitude `m` and exponent `e` of m × 2^e. -/
inductive FVal
  | nan
  | inf (neg : Bool)
  | fin (neg : Bool) (m : Nat) (e : Int)
  deriving DecidableEq, Repr, Inhabited

/-- A binary format of R178. `ieee`: all-ones exponents are infinity and NaN; `fn`: only the all-ones code is NaN (E4M3);
otherwise every code is a number. -/
structure Fmt where
  ebits : Nat
  mbits : Nat
  bias  : Nat
  ieee  : Bool
  fn    : Bool
  deriving DecidableEq, Repr, Inhabited

/-- R178 F64. -/
def f64 : Fmt := ⟨11, 52, 1023, true, false⟩
/-- R178 F32. -/
def f32 : Fmt := ⟨8, 23, 127, true, false⟩
/-- R178 F16. -/
def f16 : Fmt := ⟨5, 10, 15, true, false⟩
/-- R178 BF16. -/
def bf16 : Fmt := ⟨8, 7, 127, true, false⟩
/-- R178 E4M3. -/
def e4m3 : Fmt := ⟨4, 3, 7, false, true⟩
/-- R178 E5M2. -/
def e5m2 : Fmt := ⟨5, 2, 15, true, false⟩
/-- R178 E3M2. -/
def e3m2 : Fmt := ⟨3, 2, 3, false, false⟩
/-- R178 E2M3. -/
def e2m3 : Fmt := ⟨2, 3, 1, false, false⟩
/-- R178 E2M1. -/
def e2m1 : Fmt := ⟨2, 1, 1, false, false⟩

/-- The sign bit's place value. -/
def Fmt.signBit (f : Fmt) : Nat := 2 ^ (f.ebits + f.mbits)

/-- The magnitude code of infinity of an IEEE format. -/
def Fmt.infCode (f : Fmt) : Nat := (2 ^ f.ebits - 1) * 2 ^ f.mbits

/-- The magnitude code of the greatest finite value. -/
def Fmt.maxCode (f : Fmt) : Nat :=
  if f.ieee then f.infCode - 1 else if f.fn then f.signBit - 2 else f.signBit - 1

/-- R178, R181: the NaN a result writes; formats without one write 0 (R142 never asks them). -/
def Fmt.nanCode (f : Fmt) : Nat :=
  if f.ieee then f.infCode + 2 ^ (f.mbits - 1) else if f.fn then f.signBit - 1 else 0

/-- The value of a code of a format. -/
def Fmt.read (f : Fmt) (code : Nat) : FVal :=
  let mag := code % f.signBit
  let neg := code / f.signBit % 2 == 1
  if f.ieee && f.infCode ≤ mag then (if mag == f.infCode then .inf neg else .nan)
  else if f.fn && mag == f.signBit - 1 then .nan
  else
    let ex := mag / 2 ^ f.mbits
    let fr := mag % 2 ^ f.mbits
    if ex == 0 then .fin neg fr (1 - (f.bias : Int) - f.mbits)
    else .fin neg (fr + 2 ^ f.mbits) ((ex : Int) - f.bias - f.mbits)

/-- How a conversion rounds: to nearest even, or up by the 16 random bits `r` (R188). -/
inductive Rounding
  | nearest
  | stochastic (r : Nat)
  deriving DecidableEq, Repr, Inhabited

/-- m × 2^(e − q) rounded to an integer. Stochastic rounding compares the first 16 fraction bits with r (R188). -/
def roundScaled (md : Rounding) (m : Nat) (e q : Int) : Nat :=
  if q ≤ e then m * 2 ^ (e - q).toNat
  else
    let d := 2 ^ (q - e).toNat
    let lo := m / d
    let rem := m % d
    match md with
    | .nearest => if d < 2 * rem || (2 * rem == d && lo % 2 == 1) then lo + 1 else lo
    | .stochastic r => if 65536 ≤ rem * 65536 / d + r then lo + 1 else lo

/-- The exponent of the greatest power of two not above m × 2^e, for m > 0. -/
def floorLog2 (m : Nat) (e : Int) : Int := (m.log2 : Int) + e

/-- The magnitude code of m × 2^e rounded into a format, before infinity or saturation is judged. -/
def Fmt.roundMag (f : Fmt) (md : Rounding) (m : Nat) (e : Int) : Nat :=
  if m == 0 then 0 else
    let emin : Int := 1 - (f.bias : Int)
    let ex := max (floorLog2 m e) emin
    let k := roundScaled md m e (ex - f.mbits)
    ((ex - emin).toNat) * 2 ^ f.mbits + k

/-- Compare finite magnitudes: is ma × 2^ea less than mb × 2^eb? -/
def magLt (ma : Nat) (ea : Int) (mb : Nat) (eb : Int) : Bool :=
  let q := min ea eb
  ma * 2 ^ (ea - q).toNat < mb * 2 ^ (eb - q).toNat

/-- Is the magnitude m × 2^e above the greatest finite value of the format? -/
def Fmt.beyond (f : Fmt) (m : Nat) (e : Int) : Bool :=
  match f.read f.maxCode with
  | .fin _ n x => magLt n x m e
  | _ => false

/-- A value written in a format: R181 NaN, R182 overflow to infinity of F64, F32, F16 and BF16, R183 saturation of the
8-bit and narrower formats, R142 an infinity saturated by them. -/
def Fmt.write (f : Fmt) (md : Rounding) (v : FVal) : Nat :=
  let wide := 16 ≤ 1 + f.ebits + f.mbits
  let sgn (neg : Bool) : Nat := if neg then f.signBit else 0
  match v with
  | .nan => f.nanCode
  | .inf neg => sgn neg + (if wide then f.infCode else f.maxCode)
  | .fin neg m e =>
    -- R189: beyond the greatest finite value a stochastic rounding gives what the nearest one gives
    let code := if f.beyond m e then f.roundMag .nearest m e else f.roundMag md m e
    if wide then sgn neg + (if f.maxCode < code then f.infCode else code)
    else sgn neg + min f.maxCode code

/-- A finite value as integer numerator over a power of two: the integer m × 2^(e − q) with sign, for q ≤ e. -/
def finInt (neg : Bool) (m : Nat) (e q : Int) : Int :=
  let n : Int := (m * 2 ^ (e - q).toNat : Nat)
  if neg then -n else n

/-- The exact sum of two finite values; a zero sum is +0 unless both are negative (R182). -/
def FVal.add : FVal → FVal → FVal
  | .nan, _ => .nan
  | _, .nan => .nan
  | .inf a, .inf b => if a == b then .inf a else .nan
  | .inf a, _ => .inf a
  | _, .inf b => .inf b
  | .fin na ma ea, .fin nb mb eb =>
    let q := min ea eb
    let s := finInt na ma ea q + finInt nb mb eb q
    if s == 0 then .fin (na && nb) 0 q else .fin (s < 0) s.natAbs q

/-- Negation. -/
def FVal.neg : FVal → FVal
  | .nan => .nan
  | .inf n => .inf (!n)
  | .fin n m e => .fin (!n) m e

/-- The exact product. -/
def FVal.mul : FVal → FVal → FVal
  | .nan, _ => .nan
  | _, .nan => .nan
  | .inf a, .inf b => .inf (a != b)
  | .inf a, .fin b m _ => if m == 0 then .nan else .inf (a != b)
  | .fin a m _, .inf b => if m == 0 then .nan else .inf (a != b)
  | .fin a ma ea, .fin b mb eb => .fin (a != b) (ma * mb) (ea + eb)

/-- R179: the sum of two F32 codes, rounded once. -/
def addF32 (a b : Nat) : Nat := f32.write .nearest (FVal.add (f32.read a) (f32.read b))
/-- R179: the difference of two F32 codes. -/
def subF32 (a b : Nat) : Nat := f32.write .nearest (FVal.add (f32.read a) (FVal.neg (f32.read b)))
/-- R179: the product of two F32 codes. -/
def mulF32 (a b : Nat) : Nat := f32.write .nearest (FVal.mul (f32.read a) (f32.read b))

/-! ### Scalar types of R45 -/

/-- Size in bytes of a scalar type code; 0 for a code that is no scalar. -/
def typeSize (t : Nat) : Nat :=
  match t with
  | 0x01 => 1
  | 0x02 => 2
  | 0x03 => 4
  | 0x04 => 8
  | 0x05 => 1
  | 0x06 => 2
  | 0x07 => 4
  | 0x08 => 8
  | 0x09 => 2
  | 0x0A => 2
  | 0x0B => 4
  | 0x0C => 8
  | 0x0D => 1
  | 0x0E => 1
  | _ => 0

/-- Is the code a floating-point type? -/
def typeFmt (t : Nat) : Option Fmt :=
  match t with
  | 0x09 => some f16
  | 0x0A => some bf16
  | 0x0B => some f32
  | 0x0C => some f64
  | 0x0D => some e4m3
  | 0x0E => some e5m2
  | _ => none

/-- Is the code a signed integer type? -/
def typeSigned (t : Nat) : Bool := 0x05 ≤ t && t ≤ 0x08

/-- The integer an integer type's bit pattern stands for. -/
def typeInt (t v : Nat) : Int :=
  let n := 8 * typeSize t
  if typeSigned t && 2 ^ (n - 1) ≤ v then (v : Int) - 2 ^ n else v

/-- The exact value of a bit pattern of a scalar type. -/
def typeRead (t v : Nat) : FVal :=
  match typeFmt t with
  | some f => f.read v
  | none => let i := typeInt t v; .fin (i < 0) i.natAbs 0

/-- Least value of an integer type. -/
def typeMin (t : Nat) : Int := if typeSigned t then -(2 ^ (8 * typeSize t - 1) : Int) else 0
/-- Greatest value of an integer type. -/
def typeMax (t : Nat) : Int := if typeSigned t then 2 ^ (8 * typeSize t - 1) - 1 else 2 ^ (8 * typeSize t) - 1

/-- The bit pattern of an integer in an integer type. -/
def typePattern (t : Nat) (i : Int) : Nat := (i % (2 ^ (8 * typeSize t) : Int)).toNat

/-- A finite value rounded to an integer: to nearest even (R184), or stochastically between floor(v) and floor(v) + 1
(R188). -/
def roundInt (md : Rounding) (neg : Bool) (m : Nat) (e : Int) : Int :=
  match md with
  | .nearest => let k : Int := (roundScaled .nearest m e 0 : Nat); if neg then -k else k
  | .stochastic r =>
    if 0 ≤ e then finInt neg m e 0
    else
      let n : Int := if neg then -(m : Int) else m
      let d : Int := (2 ^ (-e).toNat : Nat)
      let lo := n / d
      let t := (n % d) * 65536 / d
      if 65536 ≤ t + r then lo + 1 else lo

/-- R140, R184: a value converted to a scalar type. -/
def typeWrite (t : Nat) (md : Rounding) (v : FVal) : Nat :=
  match typeFmt t with
  | some f => f.write md v
  | none => match v with
    | .nan => 0
    | .inf neg => typePattern t (if neg then typeMin t else typeMax t)
    | .fin neg m e => typePattern t (max (typeMin t) (min (typeMax t) (roundInt md neg m e)))

/-- R135 F32(v): an element as binary32, one conversion to nearest even. -/
def toF32 (t v : Nat) : Nat := if t == 0x0B then v else typeWrite 0x0B .nearest (typeRead t v)

/-! ### MX targets (R139, R141, R142) -/

/-- Is the target code an MX code? -/
def isMx (t : Nat) : Bool := 0x20 ≤ t && t ≤ 0x25

/-- R139: the element format of an MX code; none for MXINT8. -/
def mxFmt (t : Nat) : Option Fmt :=
  match t with
  | 0x20 => some e4m3
  | 0x21 => some e5m2
  | 0x22 => some e3m2
  | 0x23 => some e2m3
  | 0x24 => some e2m1
  | _ => none

/-- R139: emax of an MX code. -/
def mxEmax (t : Nat) : Int :=
  match t with
  | 0x20 => 8
  | 0x21 => 15
  | 0x22 => 4
  | 0x23 => 2
  | 0x24 => 2
  | _ => 0

/-- Bits of an MX element. -/
def mxBits (t : Nat) : Nat :=
  match t with
  | 0x22 => 6
  | 0x23 => 6
  | 0x24 => 4
  | _ => 8

/-- R185, R141: the greatest finite magnitude of a block as (m, e); m is 0 when there is none. -/
def blockAmax (vs : List FVal) : Nat × Int :=
  vs.foldl (fun (m, e) v => match v with
    | .fin _ n x => if magLt m e n x then (n, x) else (m, e)
    | _ => (m, e)) (0, 0)

/-- R141: the scale exponent X of a block. -/
def blockScale (t : Nat) (vs : List FVal) : Int :=
  let (m, e) := blockAmax vs
  if m == 0 then -127 else max (-127) (min 127 (floorLog2 m e - mxEmax t))

/-- An element scaled by 2^(−X) and written in the element format (R141, R142). MXINT8 saturates to ±127/64 (R183). -/
def mxElement (t : Nat) (md : Rounding) (x : Int) (v : FVal) : Nat :=
  match mxFmt t with
  | some f => match v with
    | .fin neg m e => f.write md (.fin neg m (e - x))
    | w => f.write md w
  | none => match v with
    | .nan => 0
    | .inf neg => if neg then 129 else 127
    | .fin neg m e =>
      let k := min 127 (roundScaled md m (e - x) (-6))
      if neg && k != 0 then 256 - k else k

/-- R141, R142: a block's scale byte and elements. `md i` is the rounding of element i of the block. -/
def mxBlock (t : Nat) (md : Nat → Rounding) (vs : List FVal) : Nat × List Nat :=
  let noNan := !(t == 0x20 || t == 0x21)
  if noNan && vs.any fun v => v == .nan then (0xFF, vs.map fun _ => 0)
  else
    let x := blockScale t vs
    ((x + 127).toNat, vs.zipIdx.map fun (v, i) => mxElement t (md i) x v)

end Sys2Proof
end

