-- ==== Sys2Proof/Machine/StageOps.lean ====
section
/-!
DEFINITION. The arithmetic stages of a recipe ("Recipes"): draws, crop, resize, flip, normalise, audio resample, convert
and concatenate (R129 to R142), the MX block layout (R249 to R252) and the bytes of a column (R244 to R246).
-/
namespace Sys2Proof.Machine

/-- A quotient rounded up (R153). -/
def ceilDiv (a b : Nat) : Nat := (a + b - 1) / b

/-- `n` chunks of `k` elements. -/
def chunks {α : Type} (k : Nat) : Nat → List α → List (List α)
  | 0, _ => []
  | n + 1, l => l.take k :: chunks k n (l.drop k)

/-- What the keyed choices of a stage depend on (R129, R187): seed, sample identifier, epoch, position and descriptor
index. -/
structure Keying where
  seed  : Nat
  sid   : Nat
  epoch : Nat
  pos   : Nat
  stage : Nat
  deriving DecidableEq, Repr, Inhabited

/-- R129: draw d of the stage. -/
def Keying.draw (k : Keying) (d : Nat) : Nat := keyed k.seed 0x03 [k.sid, k.epoch, k.pos, k.stage * 256 + d]

/-- R187: the random value of element j. -/
def Keying.rounding (k : Keying) (sr : Bool) (j : Nat) : Rounding :=
  if sr then .stochastic ((keyed k.seed 0x04 [k.sid, k.epoch, k.pos, k.stage * 2 ^ 40 + j / 4] >>> (16 * (j % 4))) % 65536)
  else .nearest

/-! ### Crop (R130, R131) -/

/-- R130: the window (x0, y0, cw, ch) of a w × h image under a crop descriptor. -/
def cropWindow (d : Bytes) (k : Keying) (w h : Nat) : Nat × Nat × Nat × Nat :=
  match bits d 71 64 with
  | 0 =>
    let x0 := min (bits d 239 224) (w - 1)
    let y0 := min (bits d 255 240) (h - 1)
    (x0, y0, min (bits d 207 192) (w - x0), min (bits d 223 208) (h - y0))
  | 1 =>
    let cw := min (bits d 207 192) w
    let ch := min (bits d 223 208) h
    ((w - cw) / 2, (h - ch) / 2, cw, ch)
  | _ =>
    let amin := bits d 127 96
    let amax := bits d 159 128
    let rmin := bits d 175 160
    let rmax := bits d 191 176
    let a := amin + (((amax - amin) * (k.draw 0 >>> 48)) >>> 16)
    let rho := rmin + (((rmax - rmin) * (k.draw 1 >>> 48)) >>> 16)
    let t := (w * h * a) >>> 16
    let cw := min (max (isqrt (t * rho / 4096)) 1) w
    let ch := min (max (isqrt (t * 4096 / rho)) 1) h
    (k.draw 2 % (w - cw + 1), k.draw 3 % (h - ch + 1), cw, ch)

/-- R131: the first frame and the frames of an audio window. -/
def cropFrames (d : Bytes) (k : Keying) (f : Nat) : Nat × Nat :=
  let n := min (bits d 287 256) f
  let start := match bits d 71 64 with
    | 0 => min (bits d 319 288) (f - n)
    | 1 => (f - n) / 2
    | _ => k.draw 0 % (f - n + 1)
  (start, n)

/-- The crop stage on an image or audio value. -/
def cropVal (d : Bytes) (k : Keying) (v : Val) : Val :=
  match v with
  | .image h w c et els =>
    let (x0, y0, cw, ch) := cropWindow d k w h
    .image ch cw c et ((List.range ch).flatMap fun y => (els.drop (((y0 + y) * w + x0) * c)).take (cw * c))
  | .audio f ch et els =>
    let (start, n) := cropFrames d k f
    .audio n ch et ((els.drop (start * ch)).take (n * ch))
  | v => v

/-! ### Resize (R132, R133) -/

/-- R132 src: source positions and Q0.14 weights (i0, i1, w0, w1). -/
def bilinearSrc (x iw ow : Nat) : Nat × Nat × Nat × Nat :=
  let num : Int := (((2 * x + 1) * iw : Nat) - (ow : Int)) * 65536
  let s := (num / (2 * ow : Nat)).toNat
  let i0 := s >>> 16
  let w1 := (s % 65536) >>> 2
  (i0, min (i0 + 1) (iw - 1), 16384 - w1, w1)

/-- One row through the horizontal pass of R132: `row` is the input row, `c` channels. -/
def bilinearRow (row : List Nat) (c iw ow : Nat) : List Nat :=
  let px := chunks c iw row
  (List.range ow).flatMap fun x =>
    let (i0, i1, w0, w1) := bilinearSrc x iw ow
    List.zipWith (fun a b => (w0 * a + w1 * b + 64) >>> 7) (px.getD i0 []) (px.getD i1 [])

/-- R132: bilinear. -/
def bilinear (h w c ow oh : Nat) (els : List Nat) : List Nat :=
  let t := (chunks (w * c) h els).map fun r => bilinearRow r c w ow
  (List.range oh).flatMap fun y =>
    let (j0, j1, v0, v1) := bilinearSrc y h oh
    List.zipWith (fun a b => (v0 * a + v1 * b + 1048576) >>> 21) (t.getD j0 []) (t.getD j1 [])

/-- R133: the input index of output index x. -/
def nearestSrc (x iw ow : Nat) : Nat := min (((2 * x + 1) * iw) / (2 * ow)) (iw - 1)

/-- R133: nearest. -/
def nearest (h w c ow oh : Nat) (els : List Nat) : List Nat :=
  let rows := chunks (w * c) h els
  (List.range oh).flatMap fun y =>
    let px := chunks c w (rows.getD (nearestSrc y h oh) [])
    (List.range ow).flatMap fun x => px.getD (nearestSrc x w ow) []

/-- The resize stage. -/
def resizeVal (d : Bytes) (v : Val) : Val :=
  let ow := bits d 87 72
  let oh := bits d 103 88
  match v with
  | .image h w c et els =>
    .image oh ow c et (if bits d 71 64 == 0 then nearest h w c ow oh els else bilinear h w c ow oh els)
  | v => v

/-! ### Flip (R134) -/

/-- The flip stage: draw 0 decides the horizontal flip, draw 1 the vertical one. -/
def flipVal (d : Bytes) (k : Keying) (v : Val) : Val :=
  match v with
  | .image h w c et els =>
    let fh := (k.draw 0 >>> 48) < bits d 95 64
    let fv := (k.draw 1 >>> 48) < bits d 127 96
    let rows := chunks (w * c) h els
    let rows := if fh then rows.map fun r => (chunks c w r).reverse.flatten else rows
    .image h w c et (if fv then rows.reverse.flatten else rows.flatten)
  | v => v

/-! ### Normalise (R135) -/

/-- Elements normalised: channel of element i is i mod c. -/
def normaliseEls (d : Bytes) (et c : Nat) (els : List Nat) : List Nat :=
  els.zipIdx.map fun (v, i) =>
    let ch := i % c
    mulF32 (subF32 (toF32 et v) (field d (8 + 4 * ch) 4)) (field d (24 + 4 * ch) 4)

/-- The normalise stage; none when a tensor's innermost dimension is outside 1 to 4. -/
def normaliseVal (d : Bytes) (v : Val) : Option Val :=
  match v with
  | .image h w c et els => some (.image h w c 0x0B (normaliseEls d et c els))
  | .tensor et dims els => match dims.getLast? with
    | some c => if 1 ≤ c && c ≤ 4 then some (.tensor 0x0B dims (normaliseEls d et c els)) else none
    | none => none
  | v => some v

/-! ### Audio resample (R136 to R138) -/

/-- Sample of a channel at frame i; 0 outside the input. -/
def frameAt (x : List Int) (i : Int) : Int := if i < 0 then 0 else x.getD i.toNat 0

/-- R137: one output sample in linear mode. -/
def linearSample (x : List Int) (f : Nat) (l m n : Nat) : Int :=
  let pos := n * m
  let base := pos / l
  let ph : Int := (pos % l : Nat)
  let a := frameAt x base
  let b := frameAt x (if base + 1 < f then base + 1 else base)
  (2 * (a * ((l : Int) - ph) + b * ph) + l) / (2 * l)

/-- R138: one output sample in table mode, before saturation. -/
def tableSample (x : List Int) (prog : Bytes) (taps toff l m n : Nat) : Int :=
  let pos := n * m
  let base := pos / l
  let ph := pos % l
  let acc := ((List.range taps).map fun k =>
    let c := field prog (toff + 2 * (ph * taps + k)) 2
    let ci : Int := if c < 32768 then c else (c : Int) - 65536
    ci * frameAt x ((base : Int) - (taps / 2 : Nat) + 1 + k)).sum
  (acc + 8192) / 16384

/-- R136: output frames of F input frames. -/
def resampleFrames (d : Bytes) (f : Nat) : Nat := max 1 (f * bits d 95 80 / bits d 111 96)

/-- The audio resample stage; `prog` is the program area. -/
def resampleVal (d prog : Bytes) (v : Val) : Val :=
  match v with
  | .audio f ch et els =>
    let l := bits d 95 80
    let m := bits d 111 96
    let n := resampleFrames d f
    let frames := chunks ch f els
    let chan (c : Nat) : List Nat :=
      let x := frames.map fun fr => typeInt et (fr.getD c 0)
      (List.range n).map fun i =>
        let y := if bits d 71 64 == 0 then linearSample x f l m i else tableSample x prog (bits d 79 72) (bits d 143 112) l m i
        typePattern et (max (typeMin et) (min (typeMax et) y))
    let chans := (List.range ch).map chan
    .audio n ch et ((List.range n).flatMap fun i => chans.map fun c => c.getD i 0)
  | v => v

/-! ### Convert (R139 to R142, R249 to R252) -/

/-- R251: the bytes of a block's elements. -/
def packBlock (bitsPer : Nat) (els : List Nat) : Bytes :=
  match bitsPer with
  | 8 => els.map byteOf
  | 6 => (chunks 4 (els.length / 4) els).flatMap fun g =>
      leBytes 3 (g.getD 0 0 + g.getD 1 0 * 64 + g.getD 2 0 * 4096 + g.getD 3 0 * 262144)
  | _ => (chunks 2 (els.length / 2) els).map fun g => byteOf (g.getD 0 0 + 16 * g.getD 1 0)

/-- R141, R250: the MX value of elements with their types read. -/
def mxBytes (t : Nat) (k : Keying) (sr : Bool) (vs : List FVal) : Bytes :=
  let n := ceilDiv vs.length 32
  let blocks := (chunks 32 n (vs ++ List.replicate (32 * n - vs.length) (.fin false 0 0))).zipIdx.map fun (b, i) =>
    mxBlock t (fun m => k.rounding sr (32 * i + m)) b
  blocks.flatMap (fun b => packBlock (mxBits t) b.2) ++ blocks.map fun b => byteOf b.1

/-- R250: bytes of an MX value of n elements. -/
def mxSize (t n : Nat) : Nat := ceilDiv n 32 * (4 * mxBits t + 1)

/-- R140: elements converted to a scalar type. -/
def convertEls (t et : Nat) (k : Keying) (sr : Bool) (els : List Nat) : List Nat :=
  els.zipIdx.map fun (v, j) => typeWrite t (k.rounding sr j) (typeRead et v)

/-- The convert stage. -/
def convertVal (d : Bytes) (k : Keying) (v : Val) : Val :=
  let t := bits d 71 64
  let sr := bits d 72 72 == 1
  let go (et dim0 : Nat) (els : List Nat) (scalar : List Nat → Val) : Val :=
    if isMx t then .mx t els.length dim0 (mxBytes t k sr (els.map (typeRead et)))
    else scalar (convertEls t et k sr els)
  match v with
  | .scalar et x => go et 1 [x] fun l => .scalar t (l.getD 0 0)
  | .tensor et dims els => go et (dims.headD 1) els (.tensor t dims)
  | .image h w c et els => go et h els (.image h w c t)
  | .audio f ch et els => go et f els (.audio f ch t)
  | v => v

/-! ### Values as bytes, counts and dimensions -/

/-- R244: the bytes of a value. -/
def Val.bytesOf : Val → Bytes
  | .null => []
  | .scalar t v => leBytes (typeSize t) v
  | .bytes _ b => b
  | .text b => b
  | .tokens ids => ids.flatMap (leBytes 4)
  | .tensor et _ els => els.flatMap (leBytes (typeSize et))
  | .image _ _ _ et els => els.flatMap (leBytes (typeSize et))
  | .audio _ _ et els => els.flatMap (leBytes (typeSize et))
  | .mx _ _ _ b => b
  | .subgraph _ _ _ b => b

/-- R246: bytes of one element of a value. -/
def Val.unitSize : Val → Nat
  | .scalar t _ => typeSize t
  | .tokens _ => 4
  | .tensor et _ _ => typeSize et
  | .image _ _ _ et _ => typeSize et
  | .audio _ _ et _ => typeSize et
  | _ => 1

/-- R145 items 32 to 47: element count of a slot. -/
def Val.count : Val → Int
  | .null => -9223372036854775808
  | .scalar _ _ => 1
  | .bytes _ b => b.length
  | .text b => b.length
  | .tokens ids => ids.length
  | .tensor _ dims els => if dims.isEmpty then 1 else els.length
  | .image h w c _ _ => (h * w * c : Nat)
  | .audio f ch _ _ => (f * ch : Nat)
  | .mx _ n _ _ => n
  | .subgraph nodes _ _ _ => nodes.length

/-- R145 items 48 to 63: outermost dimension of a slot. -/
def Val.dim0 : Val → Int
  | .null => -9223372036854775808
  | .scalar _ _ => 1
  | .bytes _ b => b.length
  | .text b => b.length
  | .tokens ids => ids.length
  | .tensor _ dims _ => dims.headD 1
  | .image h _ _ _ _ => h
  | .audio f _ _ _ => f
  | .mx _ _ d _ => d
  | .subgraph nodes _ _ _ => nodes.length

/-- R244 to R248: the bytes of a column, the bytes of the value written, and whether it was cut. -/
def columnBytes (len : Nat) (v : Val) : Bytes × Nat × Bool :=
  let b := v.bytesOf
  if b.length ≤ len then (fitTo len b, b.length, false)
  else
    let keep := len / v.unitSize * v.unitSize
    (fitTo len (b.take keep), keep, true)

/-! ### Concatenate (R124, R125) -/

/-- The concatenate stage on its sources in slot order. -/
def concatVal (vs : List Val) : Val :=
  let live := vs.filter fun v => v != .null
  match live with
  | [] => .null
  | .tokens _ :: _ => .tokens (live.flatMap fun v => match v with | .tokens l => l | _ => [])
  | .bytes tag _ :: _ =>
    .bytes (if live.all (fun v => match v with | .bytes t _ => t == tag | _ => false) then tag else 0)
      (live.flatMap fun v => match v with | .bytes _ b => b | _ => [])
  | .tensor et _ _ :: _ =>
    let els := live.flatMap fun v => match v with | .tensor _ _ l => l | _ => []
    .tensor et [els.length] els
  | v :: _ => v

end Sys2Proof.Machine
end

