-- ==== Sys2Proof/Machine/Jpeg.lean ====
section
/-!
DEFINITION. JPEG up to the dequantised coefficients (R197, R198, R215): the markers, the Huffman-coded scans of ITU-T T.81 within
the subset of R197, and the damage of R215. What R199 to R202 and R216 make of the coefficients stands in DecodeOps.
-/
namespace Sys2Proof

/-- A Huffman symbol, most significant bit first; none at the end of the bits or where they are no code. -/
def Huff.msbFrom (h : Huff) : Nat → Nat → Nat → Nat → Nat → MsbIn → Option (Nat × MsbIn)
  | 0, _, _, _, _, _ => none
  | fuel + 1, l, code, first, index, i =>
    match i.bit with
    | none => none
    | some (b, i) =>
      let code := code + b
      let count := h.counts.getD l 0
      if code < first + count && first ≤ code then (h.syms[index + (code - first)]?).map fun s => (s, i)
      else Huff.msbFrom h fuel (l + 1) (2 * code) (2 * (first + count)) (index + count) i

/-- A Huffman symbol of at most 16 bits. -/
def Huff.msb (h : Huff) (i : MsbIn) : Option (Nat × MsbIn) := Huff.msbFrom h 16 1 0 0 0 i

end Sys2Proof

namespace Sys2Proof.Machine
open Sys2Proof

/-- One component after entropy decoding and dequantisation (R197, R199). -/
structure JpegComp where
  /-- Sampling factors Hc and Vc. -/
  hf : Nat
  vf : Nat
  /-- Blocks per row of the component's block array. -/
  bw : Nat
  /-- Dequantised coefficients of each block, 64 in natural order, row-major blocks. -/
  blocks : List (List Int)
  /-- Damaged blocks (R215 step 5), by index in `blocks`. -/
  damaged : List Nat
  deriving DecidableEq, Repr, Inhabited

/-- What the entropy decoder of a pixel unit hands on for one JPEG value (R197, R215). -/
inductive JpegScan
  | bad (code : Nat)
  | image (w h : Nat) (rgb : Bool) (scanBlocks : Nat) (comps : List JpegComp)
  deriving DecidableEq, Repr, Inhabited

/-- A component of the frame header. -/
structure JpegPart where
  id : Nat
  hf : Nat
  vf : Nat
  tq : Nat
  deriving DecidableEq, Repr, Inhabited

/-- The frame header: its SOF, 0 to 2, and the image. -/
structure JpegFrame where
  sof   : Nat
  w     : Nat
  h     : Nat
  parts : List JpegPart
  deriving DecidableEq, Repr, Inhabited

/-- MCUs per row of an interleaved scan, and rows of them. -/
def JpegFrame.mcus (f : JpegFrame) : Nat × Nat :=
  let p := f.parts.headD default
  (ceilDiv f.w (8 * max 1 p.hf), ceilDiv f.h (8 * max 1 p.vf))

/-- The decoder between two markers. Blocks hold 64 coefficients in zigzag order, not dequantised. -/
structure JpegIn where
  /-- Quantisation tables: number, 16-bit values or not, 64 values in zigzag order. -/
  qt : List (Nat × Bool × List Nat) := []
  /-- Huffman tables: class (0 DC, 1 AC), number, code. -/
  ht : List (Nat × Nat × Huff) := []
  /-- Restart interval, MCUs. -/
  ri : Nat := 0
  frame : Option JpegFrame := none
  /-- Transform of the APP14 colour-transform segment (R198). -/
  xform : Option Nat := none
  /-- By component: the quantisation values, from its first scan on, and its blocks. -/
  quant : List (Option (List Nat)) := []
  planes : Array (Array (List Int)) := #[]
  /-- Damaged blocks: component, block. -/
  damaged : List (Nat × Nat) := []
  /-- R153: blocks of all scans. -/
  scanBlocks : Nat := 0
  /-- Scans met. -/
  scans : Nat := 0
  deriving DecidableEq, Repr, Inhabited

/-! ### Entropy coding -/

/-- T.81 EXTEND: the value of `n` bits, which below half their range are negative. -/
def jpegExtend (v n : Nat) : Int := if n != 0 && v < 2 ^ (n - 1) then (v : Int) - (2 ^ n - 1 : Nat) else v

/-- `n` bits as a signed value. -/
def jpegValue (n : Nat) (i : MsbIn) : Option (Int × MsbIn) := (i.take n).map fun (v, i) => (jpegExtend v n, i)

/-- The state of a restart interval: input, DC predictions by place in the scan, and blocks left of an end-of-band run. -/
structure JpegRun where
  inp : MsbIn
  preds : List Int
  eob : Nat := 0
  deriving DecidableEq, Repr, Inhabited

/-- What a scan header says of one component: place of the component, its tables, and the scan's spectral and bit range. -/
structure JpegSel where
  comp : Nat
  dc   : Huff
  ac   : Huff
  ss   : Nat
  se   : Nat
  ah   : Nat
  al   : Nat
  prog : Bool
  deriving DecidableEq, Repr, Inhabited

/-- The DC coefficient of a first DC scan or of a sequential block. -/
def jpegDc (s : JpegSel) (slot : Nat) (blk : List Int) (r : JpegRun) : Option (List Int × JpegRun) :=
  match s.dc.msb r.inp with
  | none => none
  | some (t, i) => match jpegValue t i with
    | none => none
    | some (v, i) =>
      let p := r.preds.getD slot 0 + v
      some (blk.set 0 (p * 2 ^ s.al), { r with inp := i, preds := r.preds.set slot p })

/-- AC coefficients from index `k` to the end of a sequential block; a coefficient index above 63 is a fault. -/
def jpegAcSeq (h : Huff) : Nat → Nat → List Int → MsbIn → Option (List Int × MsbIn)
  | 0, _, _, _ => none
  | f + 1, k, blk, i =>
    if 63 < k then some (blk, i)
    else match h.msb i with
      | none => none
      | some (rs, i) =>
        let k := k + rs / 16
        if rs % 16 == 0 then
          if rs / 16 != 15 then some (blk, i)
          else if 63 < k then none
          else jpegAcSeq h f (k + 1) blk i
        else if 63 < k then none
        else match jpegValue (rs % 16) i with
          | none => none
          | some (v, i) => jpegAcSeq h f (k + 1) (blk.set k v) i

/-- AC coefficients of a first progressive scan, and the end-of-band run that follows. -/
def jpegAcFirst (s : JpegSel) : Nat → Nat → List Int → MsbIn → Option (List Int × MsbIn × Nat)
  | 0, _, _, _ => none
  | f + 1, k, blk, i =>
    if s.se < k then some (blk, i, 0)
    else match s.ac.msb i with
      | none => none
      | some (rs, i) =>
        let run := rs / 16
        if rs % 16 == 0 then
          if run != 15 then (i.take run).map fun (v, i) => (blk, i, 2 ^ run + v - 1)
          else if 63 < k + 15 then none
          else jpegAcFirst s f (k + 16) blk i
        else if 63 < k + run then none
        else match jpegValue (rs % 16) i with
          | none => none
          | some (v, i) => jpegAcFirst s f (k + run + 1) (blk.set (k + run) (v * 2 ^ s.al)) i

/-- A correction bit for a coefficient that is not 0. -/
def jpegCorrect (al : Nat) (v : Int) (i : MsbIn) : Option (Int × MsbIn) :=
  match i.bit with
  | none => none
  | some (b, i) =>
    let p : Int := 2 ^ al
    some (if b == 1 && v.natAbs / 2 ^ al % 2 == 0 then (if v < 0 then v - p else v + p) else v, i)

/-- Coefficients passed from `k` on: those not 0 are corrected, `zeros` of those that are 0 are passed, up to `se`. The place stopped at. -/
def jpegPass (al se : Nat) : Nat → Nat → Nat → List Int → MsbIn → Option (Nat × List Int × MsbIn)
  | 0, _, _, _, _ => none
  | f + 1, zeros, k, blk, i =>
    if se < k then some (k, blk, i)
    else
      let v := blk.getD k 0
      if v == 0 then (if zeros == 0 then some (k, blk, i) else jpegPass al se f (zeros - 1) (k + 1) blk i)
      else match jpegCorrect al v i with
        | none => none
        | some (v, i) => jpegPass al se f zeros (k + 1) (blk.set k v) i

/-- AC coefficients of a refining scan: the block, and the end-of-band run with this block in it. -/
def jpegAcRefine (s : JpegSel) : Nat → Nat → List Int → MsbIn → Option (List Int × MsbIn × Nat)
  | 0, _, _, _ => none
  | f + 1, k, blk, i =>
    if s.se < k then some (blk, i, 0)
    else match s.ac.msb i with
      | none => none
      | some (rs, i) =>
        let run := rs / 16
        if rs % 16 == 0 && run != 15 then
          match i.take run with
          | none => none
          | some (v, i) => match jpegPass s.al s.se 65 64 k blk i with
            | none => none
            | some (_, blk, i) => some (blk, i, 2 ^ run + v)
        else if 1 < rs % 16 then none
        else
          let read : Option (Int × MsbIn) := if rs % 16 == 0 then some (0, i) else (i.take 1).map fun (b, i) => (if b == 1 then 2 ^ s.al else -(2 ^ s.al), i)
          match read with
          | none => none
          | some (v, i) => match jpegPass s.al s.se 65 run k blk i with
            | none => none
            | some (k, blk, i) =>
              if v != 0 && 63 < k then none
              else jpegAcRefine s f (k + 1) (if v == 0 then blk else blk.set k v) i

/-- One block of a scan. -/
def jpegBlock (s : JpegSel) (slot : Nat) (blk : List Int) (r : JpegRun) : Option (List Int × JpegRun) :=
  if !s.prog then
    match jpegDc s slot (List.replicate 64 0) r with
    | none => none
    | some (blk, r) => (jpegAcSeq s.ac 64 1 blk r.inp).map fun (b, i) => (b, { r with inp := i })
  else if s.ss == 0 then
    if s.ah == 0 then jpegDc s slot blk r
    else (r.inp.take 1).map fun (b, i) => (blk.set 0 (blk.headD 0 + b * 2 ^ s.al), { r with inp := i })
  else if s.ah == 0 then
    if r.eob != 0 then some (blk, { r with eob := r.eob - 1 })
    else (jpegAcFirst s 64 s.ss blk r.inp).map fun (b, i, e) => (b, { r with inp := i, eob := e })
  else if r.eob != 0 then
    (jpegPass s.al s.se 65 64 s.ss blk r.inp).map fun (_, b, i) => (b, { r with inp := i, eob := r.eob - 1 })
  else (jpegAcRefine s 65 s.ss blk r.inp).map fun (b, i, e) => (b, { r with inp := i, eob := e - 1 })

/-! ### Restart intervals and damage (R215) -/

/-- A block of an MCU: its place in the scan, its component and its number there. -/
abbrev JpegAt := Nat × Nat × Nat

/-- The blocks of an MCU decoded into the planes; none where a fault is met, with the planes before it. -/
def jpegMcu (sels : List JpegSel) : List JpegAt → Array (Array (List Int)) → JpegRun → Array (Array (List Int)) × Option JpegRun
  | [], p, r => (p, some r)
  | (slot, c, n) :: l, p, r =>
    match jpegBlock (sels.getD slot default) slot ((p.getD c #[]).getD n []) r with
    | none => (p, none)
    | some (b, r) => jpegMcu sels l (p.modify c fun a => a.setIfInBounds n b) r

/-- The MCUs of an interval in order: how many were decoded, the planes with them, and the planes with the blocks of a faulty one too. -/
def jpegMcus (sels : List JpegSel) : List (List JpegAt) → Array (Array (List Int)) → JpegRun → Nat →
    Nat × Array (Array (List Int)) × Array (Array (List Int))
  | [], p, _, n => (n, p, p)
  | m :: l, p, r, n => match jpegMcu sels m p r with
    | (q, none) => (n, p, q)
    | (q, some r) => jpegMcus sels l q r (n + 1)

/-- A marker RST0 to RST7. -/
def isRst (b x : Byte) : Bool := b == 0xFF && 0xD0 ≤ x.toNat && x.toNat ≤ 0xD7

/-- Does an RSTn marker come before the next SOS or EOI? -/
def rstAhead : Bytes → Bool
  | [] => false
  | [_] => false
  | b :: x :: l => if isRst b x then true else if b == 0xFF && (x == 0xD9 || x == 0xDA) then false else rstAhead (x :: l)

/-- Entropy-coded data cut at its RSTn markers: each piece with the number of the marker before it (8 for the first), last piece first,
and what follows the scan. With restart intervals, another marker ends its piece and the next is taken up at the next RSTn (R215 step 2);
`skip` while that is sought. -/
def jpegPieces (restarts : Bool) : Bytes → Nat → Bytes → Bool → List (Nat × Bytes) → List (Nat × Bytes) × Bytes
  | [], r, cur, _, acc => ((r, cur.reverse) :: acc, [])
  | [b], r, cur, _, acc => ((r, (if b == 0xFF then cur else b :: cur).reverse) :: acc, [])
  | b :: x :: l, r, cur, skip, acc =>
    if skip then (if isRst b x then jpegPieces restarts l (x.toNat - 0xD0) [] false acc else jpegPieces restarts (x :: l) r [] true acc)
    else if b != 0xFF then jpegPieces restarts (x :: l) r (b :: cur) false acc
    else if x == 0xFF then jpegPieces restarts (x :: l) r cur false acc
    else if x == 0 then jpegPieces restarts l r (0xFF :: cur) false acc
    else if isRst b x then jpegPieces restarts l (x.toNat - 0xD0) [] false ((r, cur.reverse) :: acc)
    else if restarts && rstAhead l then jpegPieces restarts (x :: l) r [] true ((r, cur.reverse) :: acc)
    else ((r, cur.reverse) :: acc, b :: x :: l)

/-- One restart interval decoded from a piece (R215 steps 1 to 3): the planes, and the MCUs of it that are damaged. With restart markers
every MCU of a faulty interval is damaged, without them the MCU of the fault and the later ones. Whether the blocks of damaged MCUs that
were decoded before the fault stay for later scans to refine is open (`Config.jpegKeeps`). -/
def jpegInterval (sels : List JpegSel) (scan k : Nat) (restarts : Bool) (mcus : List (List JpegAt)) (data : Bytes)
    (p : Array (Array (List Int))) : Array (Array (List Int)) × List (List JpegAt) :=
  let (n, whole, part) := jpegMcus sels mcus p { inp := ⟨data, 0⟩, preds := sels.map fun _ => 0 } 0
  if n == mcus.length then (whole, [])
  else (if Config.jpegKeeps scan k then part else if restarts then p else whole, if restarts then mcus else mcus.drop n)

/-- The intervals of a scan, from interval `k` and the piece that holds it: R215 step 4 counts those a wrong RSTn skips. -/
def jpegIntervals (sels : List JpegSel) (scan : Nat) (restarts : Bool) (ints : List (List (List JpegAt))) : List (Nat × Bytes) → Nat → Array (Array (List Int)) → List (List JpegAt) →
    Array (Array (List Int)) × List (List JpegAt)
  | [], k, p, dmg => (p, dmg ++ (ints.drop k).flatten)
  | (r, data) :: l, k, p, dmg =>
    let skip := if r == 8 then 0 else (r + 8 - (k + 7) % 8) % 8
    let at_ := k + skip
    if ints.length ≤ at_ then (p, dmg ++ (ints.drop k).flatten)
    else
      let (p, bad) := jpegInterval sels scan at_ restarts (ints.getD at_ []) data p
      jpegIntervals sels scan restarts ints l (at_ + 1) p (dmg ++ ((ints.drop k).take skip).flatten ++ bad)

/-- A list in parts of `n`. -/
def inParts {α : Type} (n : Nat) : Nat → List α → List (List α)
  | 0, _ => []
  | f + 1, l => if l.isEmpty then [] else l.take n :: inParts n f (l.drop n)

/-- The MCUs of a scan over components given by their places in the frame. -/
def jpegScanMcus (f : JpegFrame) (comps : List Nat) : List (List JpegAt) :=
  let (mw, mh) := f.mcus
  let lead := f.parts.headD default
  match comps with
  | [c] =>
    let p := f.parts.getD c default
    let bw := mw * p.hf
    (List.range (ceilDiv (ceilDiv (f.h * p.vf) (max 1 lead.vf)) 8)).flatMap fun y =>
      (List.range (ceilDiv (ceilDiv (f.w * p.hf) (max 1 lead.hf)) 8)).map fun x => [(0, c, y * bw + x)]
  | _ =>
    (List.range mh).flatMap fun my => (List.range mw).map fun mx => comps.zipIdx.flatMap fun (c, slot) =>
      let p := f.parts.getD c default
      (List.range p.vf).flatMap fun v => (List.range p.hf).map fun h => (slot, c, (my * p.vf + v) * (mw * p.hf) + mx * p.hf + h)

/-! ### Segments -/

/-- A quantisation table segment: tables until its end; fault code. -/
def jpegDqt : Nat → Bytes → List (Nat × Bool × List Nat) → List (Nat × Bool × List Nat) ⊕ Nat
  | 0, _, l => .inl l
  | f + 1, b, l =>
    match b with
    | [] => .inl l
    | x :: b =>
      let wide := x.toNat / 16 == 1
      let n := if wide then 128 else 64
      let vs := if wide then (List.range 64).map fun k => beNat (slice b (2 * k) 2) else (b.take 64).map (·.toNat)
      if 1 < x.toNat / 16 || 3 < x.toNat % 16 then .inr 0x02
      else if b.length < n || vs.contains 0 then .inr 0x04
      else jpegDqt f (b.drop n) ((x.toNat % 16, wide, vs) :: l)

/-- A Huffman table segment. -/
def jpegDht : Nat → Bytes → List (Nat × Nat × Huff) → List (Nat × Nat × Huff) ⊕ Nat
  | 0, _, l => .inl l
  | f + 1, b, l =>
    match b with
    | [] => .inl l
    | x :: b =>
      let counts := (b.take 16).map (·.toNat)
      let n := counts.sum
      let syms := (slice b 16 n).map (·.toNat)
      let h : Huff := { counts := 0 :: counts, syms := syms }
      if 1 < x.toNat / 16 || 3 < x.toNat % 16 then .inr 0x02
      else if b.length < 16 + n || 256 < n || h.left < 0 || (x.toNat / 16 == 0 && syms.any fun s => 15 < s) then .inr 0x04
      else jpegDht f (b.drop (16 + n)) ((x.toNat / 16, x.toNat % 16, h) :: l)

/-- A frame header segment. -/
def jpegSof (sof : Nat) (b : Bytes) : JpegFrame ⊕ Nat :=
  let n := beNat (slice b 5 1)
  let h := beNat (slice b 1 2)
  let w := beNat (slice b 3 2)
  let parts := (List.range n).map fun k =>
    let x := (b.getD (7 + 3 * k) 0).toNat
    ({ id := (b.getD (6 + 3 * k) 0).toNat, hf := x / 16, vf := x % 16, tq := (b.getD (8 + 3 * k) 0).toNat } : JpegPart)
  let lead := parts.headD default
  if b.length < 6 || b.length != 6 + 3 * n then .inr 0x01
  else if beNat (slice b 0 1) != 8 || (n != 1 && n != 3) || h == 0 then .inr 0x02
  else if w == 0 || 16384 < w || 16384 < h || 67108864 < w * h then .inr 0x03
  else if lead.hf == 0 || 2 < lead.hf || lead.vf == 0 || 2 < lead.vf || (parts.drop 1).any (fun p => p.hf != 1 || p.vf != 1) ||
      parts.any (fun p => 3 < p.tq) || !(parts.map (·.id)).Nodup then .inr 0x02
  else .inl { sof := sof, w := w, h := h, parts := parts }

/-- A scan header against the frame: the selections, in scan order, or the fault code. -/
def jpegSos (j : JpegIn) (f : JpegFrame) (b : Bytes) : List JpegSel ⊕ Nat :=
  let n := (b.getD 0 0).toNat
  let ss := (b.getD (1 + 2 * n) 0).toNat
  let se := (b.getD (2 + 2 * n) 0).toNat
  let x := (b.getD (3 + 2 * n) 0).toNat
  let ah := x / 16
  let al := x % 16
  let prog := f.sof == 2
  let picks := (List.range n).map fun k => (f.parts.findIdx? fun p => p.id == (b.getD (1 + 2 * k) 0).toNat, (b.getD (2 + 2 * k) 0).toNat)
  let table (cls t : Nat) : Option Huff := (j.ht.find? fun h => h.1 == cls && h.2.1 == t).map (·.2.2)
  let range := if prog then
      (if ss == 0 then se == 0 else ss ≤ se && se ≤ 63 && n == 1) && al ≤ 13 && (ah == 0 || ah == al + 1)
    else ss == 0 && se == 63 && x == 0
  let needDc := !prog || (ss == 0 && ah == 0)
  let needAc := !prog || ss != 0
  if b.length != 4 + 2 * n then .inr 0x01
  else if n == 0 || 3 < n || !range || picks.any (fun p => p.1.isNone || 3 < p.2 / 16 || 3 < p.2 % 16) || !(picks.map (·.1)).Nodup then .inr 0x02
  else if picks.any (fun p => (needDc && (table 0 (p.2 / 16)).isNone) || (needAc && (table 1 (p.2 % 16)).isNone)) then .inr 0x04
  else .inl (picks.map fun p => { comp := p.1.getD 0, dc := (table 0 (p.2 / 16)).getD default, ac := (table 1 (p.2 % 16)).getD default,
                                  ss := ss, se := se, ah := ah, al := al, prog := prog })

/-- The quantisation values of a scan's components, taken at each one's first scan: the fault code where one is missing or has 16-bit
values in a baseline frame. -/
def jpegQuant (j : JpegIn) (f : JpegFrame) : List Nat → List (Option (List Nat)) → List (Option (List Nat)) ⊕ Nat
  | [], q => .inl q
  | c :: l, q =>
    if (q.getD c none).isSome then jpegQuant j f l q
    else match j.qt.find? fun t => t.1 == (f.parts.getD c default).tq with
      | none => .inr 0x04
      | some t => if t.2.1 && f.sof == 0 then .inr 0x02 else jpegQuant j f l (q.set c (some t.2.2))

/-- A scan: its header and its entropy-coded data; the data after it. -/
def jpegScan (j : JpegIn) (f : JpegFrame) (head data : Bytes) : (JpegIn × Bytes) ⊕ Nat :=
  match jpegSos j f head with
  | .inr c => .inr c
  | .inl sels => match jpegQuant j f (sels.map (·.comp)) j.quant with
    | .inr c => .inr c
    | .inl q =>
      let (pieces, rest) := jpegPieces (j.ri != 0) data 8 [] false []
      let mcus := jpegScanMcus f (sels.map (·.comp))
      let ints := if j.ri == 0 then [mcus] else inParts j.ri mcus.length mcus
      let used := if j.ri == 0 then pieces.reverse.take 1 else pieces.reverse
      let (p, dmg) := jpegIntervals sels j.scans (j.ri != 0) ints used 0 j.planes []
      .inl ({ j with quant := q, planes := p, damaged := j.damaged ++ (dmg.flatten.map fun a => (a.2.1, a.2.2)), scans := j.scans + 1,
                     scanBlocks := j.scanBlocks + (mcus.map List.length).sum }, rest)

/-- The frame taken: its planes of zero coefficients. -/
def JpegIn.start (j : JpegIn) (f : JpegFrame) : JpegIn :=
  let (mw, mh) := f.mcus
  { j with frame := some f, quant := f.parts.map fun _ => none,
           planes := (f.parts.map fun p => Array.replicate (mw * p.hf * (mh * p.vf)) (List.replicate 64 (0 : Int))).toArray }

/-- R198: the transform of an APP14 segment in the colour-transform form. -/
def app14 (b : Bytes) : Option Nat :=
  if b.length == 12 && b.take 5 == [0x41, 0x64, 0x6F, 0x62, 0x65] then some (b.getD 11 0).toNat else none

/-- R197: has a table of 16-bit quantisation values been read? -/
def JpegIn.wide (j : JpegIn) : Bool := j.qt.any fun t => t.2.1

/-- The segments from a marker on, up to EOI or the end of the value: the decoder, or the fault code. -/
def jpegSegments : Nat → JpegIn → Bytes → JpegIn ⊕ Nat
  | 0, j, _ => .inl j
  | f + 1, j, b =>
    match b with
    | [] => if j.scans == 0 then .inr 0x01 else .inl j
    | [_] => if j.scans == 0 then .inr 0x01 else .inl j
    | m :: x :: b =>
      let c := x.toNat
      if m != 0xFF then .inr 0x01
      else if c == 0xFF then jpegSegments f j (x :: b)
      else if c == 0xD9 then (if j.scans == 0 then .inr 0x01 else .inl j)
      else if (0xD0 ≤ c && c ≤ 0xD8) || c == 0 then .inr 0x01
      else if !([0xC0, 0xC1, 0xC2, 0xC4, 0xDA, 0xDB, 0xDD, 0xFE].contains c || (0xE0 ≤ c && c ≤ 0xEF)) then .inr 0x02
      else
        let n := beNat (b.take 2)
        if b.length < 2 || n < 2 || b.length < n then .inr 0x01
        else
          let body := slice b 2 (n - 2)
          let rest := b.drop n
          if c ≤ 0xC2 then
            if j.frame.isSome then .inr 0x01 else match jpegSof (c - 0xC0) body with
              | .inr e => .inr e
              | .inl fr => if c == 0xC0 && j.wide then .inr 0x02 else jpegSegments f (j.start fr) rest
          else if c == 0xC4 then match jpegDht body.length body j.ht with
            | .inr e => .inr e
            | .inl t => jpegSegments f { j with ht := t } rest
          else if c == 0xDB then match jpegDqt body.length body j.qt with
            | .inr e => .inr e
            | .inl t =>
              if (j.frame.map (·.sof)) == some 0 && { j with qt := t }.wide then .inr 0x02 else jpegSegments f { j with qt := t } rest
          else if c == 0xDD then (if n != 4 then .inr 0x01 else jpegSegments f { j with ri := beNat body } rest)
          else if c == 0xDA then match j.frame with
            | none => .inr 0x01
            | some fr => match jpegScan j fr body rest with
              | .inr e => .inr e
              | .inl (j, rest) => jpegSegments f j rest
          else if c == 0xEE then match app14 body with
            | none => jpegSegments f j rest
            | some t => if 1 < t then .inr 0x02 else jpegSegments f { j with xform := some t } rest
          else jpegSegments f j rest

/-- Natural order of the zigzag places: row × 8 + column of each. -/
def zigzag : List Nat := [0, 1, 8, 16, 9, 2, 3, 10, 17, 24, 32, 25, 18, 11, 4, 5, 12, 19, 26, 33, 40, 48, 41, 34, 27, 20, 13, 6, 7, 14, 21, 28,
  35, 42, 49, 56, 57, 50, 43, 36, 29, 22, 15, 23, 30, 37, 44, 51, 58, 59, 52, 45, 38, 31, 39, 46, 53, 60, 61, 54, 47, 55, 62, 63]

/-- A block dequantised, in natural order. -/
def jpegDequant (q : List Nat) (blk : List Int) : List Int :=
  ((zigzag.zip (blk.zip q)).foldl (fun (a : Array Int) (z, v, q) => a.setIfInBounds z (v * q)) (Array.replicate 64 0)).toList

/-- R197, R198, R215: a JPEG value up to its dequantised coefficients. A component that no scan carries has none. -/
def jpegDecode (b : Bytes) : JpegScan :=
  if b.take 2 != [0xFF, 0xD8] then .bad 0x01
  else match jpegSegments b.length {} (b.drop 2) with
    | .inr c => .bad c
    | .inl j => match j.frame with
      | none => .bad 0x01
      | some f => .image f.w f.h (f.parts.length == 3 && j.xform == some 0) j.scanBlocks (f.parts.zipIdx.map fun (p, c) =>
          { hf := p.hf, vf := p.vf, bw := f.mcus.1 * p.hf, damaged := ((j.damaged.filter fun d => d.1 == c).map (·.2)).eraseDups,
            blocks := ((j.planes.getD c #[]).toList).map (jpegDequant ((j.quant.getD c none).getD [])) })

end Sys2Proof.Machine
end

