-- ==== Sys2Proof/Machine/DecodeOps.lean ====
section
/-!
DEFINITION. Content decoding ("Decoders, concealment and the compression engine"): PNG, the reconstruction of JPEG,
FLAC frames, PCM, with damage and concealment (R195 to R218).
-/
namespace Sys2Proof.Machine

/-- What a decode stage finds: a structural fault of R195, or a value with its damage: d, t, first and last as the FIRST and
LAST fields of R220, and the charge of JPEG scans (R153). -/
inductive DecodeRes
  | bad (code : Nat)
  | ok (v : Val) (d t first last scanBlocks : Nat)
  deriving DecidableEq, Repr, Inhabited

/-- R214, R220: damaged pixels of a w × h image as count, FIRST and LAST. -/
def damageBounds (dmg : List (Nat × Nat)) : Nat × Nat × Nat :=
  match dmg with
  | [] => (0, 0, 0)
  | (x, y) :: _ =>
    let xs := dmg.map (·.1)
    let ys := dmg.map (·.2)
    (dmg.length, xs.foldl min x + 65536 * ys.foldl min y, xs.foldl max 0 + 65536 * ys.foldl max 0)

/-! ### PNG -/

/-- The fields of IHDR that decoding uses. -/
structure PngHead where
  w : Nat
  h : Nat
  depth : Nat
  ct : Nat
  il : Nat
  deriving DecidableEq, Repr, Inhabited

/-- R203: channels stored per pixel by colour type. -/
def pngChannels (ct : Nat) : Nat := match ct with | 2 => 3 | 4 => 2 | 6 => 4 | _ => 1

/-- ISO/IEC 15948: the bit depths of a colour type. -/
def pngDepths (ct : Nat) : List Nat :=
  match ct with
  | 0 => [1, 2, 4, 8, 16]
  | 2 => [8, 16]
  | 3 => [1, 2, 4, 8]
  | 4 => [8, 16]
  | 6 => [8, 16]
  | _ => []

/-- What the chunks give: header, palette (R, G, B), the bytes of the zlib stream up to the first failing IDAT chunk. -/
structure PngParts where
  head : PngHead
  plte : List (List Nat)
  idat : Bytes
  deriving DecidableEq, Repr, Inhabited

/-- State of the walk over the chunks. -/
structure PngWalk where
  head : Option PngHead := none
  plte : Option (List (List Nat)) := none
  idat : Bytes := []
  inData : Bool := false
  /-- Another chunk has followed the image data. -/
  gap : Bool := false

/-- "IHDR". -/
def tIHDR : Bytes := [0x49, 0x48, 0x44, 0x52]
/-- "PLTE". -/
def tPLTE : Bytes := [0x50, 0x4C, 0x54, 0x45]
/-- "IDAT". -/
def tIDAT : Bytes := [0x49, 0x44, 0x41, 0x54]
/-- "IEND". -/
def tIEND : Bytes := [0x49, 0x45, 0x4E, 0x44]

/-- IHDR judged (R203): the header, or a fault code. -/
def pngHead (b : Bytes) : PngHead ⊕ Nat :=
  let w := beNat (slice b 0 4)
  let h := beNat (slice b 4 4)
  let n (i : Nat) : Nat := (b.getD i 0).toNat
  if !(pngDepths (n 9)).contains (n 8) || n 10 != 0 || n 11 != 0 || 1 < n 12 then .inr 0x02
  else if w == 0 || h == 0 || 16384 < w || 16384 < h || 67108864 < w * h then .inr 0x03
  else .inl { w := w, h := h, depth := n 8, ct := n 9, il := n 12 }

/-- Entries of three of a list. -/
def chunk3 : List Nat → List (List Nat)
  | a :: b :: c :: r => [a, b, c] :: chunk3 r
  | _ => []

/-- R204: do these bytes of image data hold the whole zlib stream, its Adler-32 with it? -/
def zlibWhole (b : Bytes) : Bool :=
  match inflate (2 ^ 40) (b.drop 2) with
  | (_, .done rest) => 4 ≤ rest.length
  | _ => false

/-- R204, R206: the chunks of a PNG value, from the chunk at the head of the bytes on, to the end of the zlib stream of its image data or
to the first fault of an IDAT chunk. -/
def pngChunks : Nat → PngWalk → Bytes → PngWalk ⊕ Nat
  | 0, st, _ => .inl st
  | fuel + 1, st, b =>
    if b.length < 8 then (if st.inData then .inl st else .inr 0x01)
    else
      let len := beNat (slice b 0 4)
      let typ := slice b 4 4
      let body := slice b 8 len
      let whole := 12 + len ≤ b.length
      let good := whole && crc32 (typ ++ body) == beNat (slice b (8 + len) 4)
      let next := b.drop (12 + len)
      if st.head.isNone && typ != tIHDR then .inr 0x01
      else if typ == tIDAT then
        let full := { st with inData := true, idat := st.idat ++ body }
        if st.gap then .inr 0x01
        else if zlibWhole full.idat || !whole then .inl full
        else if !good then .inl { st with inData := true }
        else pngChunks fuel full next
      else if !whole then (if st.inData then .inl st else .inr 0x01)
      else
        let critical := (typ.headD 0).toNat / 32 % 2 == 0
        if critical && !good then .inr 0x01
        else if typ == tIHDR then
          if st.head.isSome || len != 13 then .inr 0x01
          else match pngHead body with
            | .inr c => .inr c
            | .inl hd => pngChunks fuel { st with head := some hd } next
        else if typ == tPLTE then
          let ct := (st.head.map (·.ct)).getD 0
          let depth := (st.head.map (·.depth)).getD 8
          if st.plte.isSome || st.inData || ct == 0 || ct == 4 then .inr 0x01
          else if len == 0 || len % 3 != 0 || min 256 (2 ^ depth) < len / 3 then .inr 0x04
          else pngChunks fuel { st with plte := some (chunk3 (body.map (·.toNat))) } next
        else if typ == tIEND then .inl st
        else if critical then .inr 0x02
        else pngChunks fuel { st with gap := st.inData } next

/-- The 8 signature bytes of PNG. -/
def pngSig : Bytes := [0x89, 0x50, 0x4E, 0x47, 0x0D, 0x0A, 0x1A, 0x0A]

/-- The parts of a PNG value, or a structural fault. -/
def pngParts (b : Bytes) : PngParts ⊕ Nat :=
  if b.take 8 != pngSig then .inr 0x01
  else match pngChunks b.length {} (b.drop 8) with
    | .inr c => .inr c
    | .inl st => match st.head with
      | none => .inr 0x01
      | some hd =>
        if !st.inData then .inr 0x01
        else if hd.ct == 3 && st.plte.isNone then .inr 0x04
        else .inl { head := hd, plte := st.plte.getD [], idat := st.idat }

/-- A pass of an image: first column and row, steps, width and height. -/
structure Pass where
  x0 : Nat
  y0 : Nat
  dx : Nat
  dy : Nat
  w : Nat
  h : Nat
  deriving DecidableEq, Repr, Inhabited

/-- The passes of an image: one, or the seven of Adam7 that hold pixels. -/
def passes (hd : PngHead) : List Pass :=
  let raw := if hd.il == 0 then [(0, 0, 1, 1)] else
    [(0, 0, 8, 8), (4, 0, 8, 8), (0, 4, 4, 8), (2, 0, 4, 4), (0, 2, 2, 4), (1, 0, 2, 2), (0, 1, 1, 2)]
  (raw.map fun (x, y, dx, dy) => (⟨x, y, dx, dy, (hd.w - x + dx - 1) / dx, (hd.h - y + dy - 1) / dy⟩ : Pass)).filter
    fun p => 0 < p.w && 0 < p.h

/-- The Paeth predictor. -/
def paeth (a b c : Nat) : Nat :=
  let p : Int := (a : Int) + b - c
  let pa := (p - a).natAbs
  let pb := (p - b).natAbs
  let pc := (p - c).natAbs
  if pa ≤ pb && pa ≤ pc then a else if pb ≤ pc then b else c

/-- Filter reversal of a row: bytes so far newest first, `bpp` bytes per pixel. -/
def unfilter (ft bpp : Nat) : List Nat → List Nat → List Nat → List Nat → List Nat
  | [], _, _, acc => acc.reverse
  | x :: xs, prev, left, acc =>
    -- `prev` begins at the byte above; `left` at the byte above and to the left, padded by bpp zeros
    let a := acc.getD (bpp - 1) 0
    let b := prev.headD 0
    let c := left.headD 0
    let v := match ft with
      | 1 => x + a
      | 2 => x + b
      | 3 => x + (a + b) / 2
      | 4 => x + paeth a b c
      | _ => x
    unfilter ft bpp xs prev.tail left.tail (v % 256 :: acc)

/-- The samples of a row. -/
def unpackRow (depth n : Nat) (row : List Nat) : List Nat :=
  match depth with
  | 8 => row.take n
  | 16 => (List.range n).map fun i => row.getD (2 * i) 0 * 256 + row.getD (2 * i + 1) 0
  | _ =>
    let per := 8 / depth
    (List.range n).map fun i => row.getD (i / per) 0 / 2 ^ (8 - depth * (i % per + 1)) % 2 ^ depth

/-- Rows of a pass read from the inflated bytes: the rows produced and the bytes left; stops at a filter type above 4 or
where data end. -/
def passRows (bpp rb depth n : Nat) : Nat → List Nat → Bytes → List (List Nat) × Bytes × Bool
  | 0, _, b => ([], b, true)
  | k + 1, prev, b =>
    if b.length < 1 + rb || 4 < (b.headD 0).toNat then ([], b, false)
    else
      let raw := (slice b 1 rb).map (·.toNat)
      let row := unfilter (b.headD 0).toNat bpp raw prev (List.replicate bpp 0 ++ prev) []
      let (rest, b', done) := passRows bpp rb depth n k row (b.drop (1 + rb))
      (unpackRow depth n row :: rest, b', done)

/-- The rows produced of every pass; after the first fault no later pass has any. -/
def allPasses (bpp ch depth : Nat) : List Pass → Bytes → Bool → List (List (List Nat)) × Bool
  | [], _, ok => ([], ok)
  | p :: ps, b, ok =>
    if ok then
      let (rows, b', done) := passRows bpp ((p.w * ch * depth + 7) / 8) depth (p.w * ch) p.h [] b
      let (rest, ok') := allPasses bpp ch depth ps b' done
      (rows :: rest, ok')
    else let (rest, ok') := allPasses bpp ch depth ps b false; ([] :: rest, ok')

/-- R217: the rows of a pass with damaged rows filled: a damaged row copies the last row produced without damage in the
same pass, or is zero. `good` is how many rows from the top stand. -/
def fillRows (n h good : Nat) (rows : List (List Nat)) : List (List Nat) :=
  let kept := rows.take good
  kept ++ List.replicate (h - kept.length) (kept.getLast?.getD (List.replicate n 0))

/-- R205: a pixel's stored samples as its image channels by OUTFMT. -/
def pngPixel (ct outfmt : Nat) (px : List Nat) : List Nat :=
  let colour := ct == 2 || ct == 3 || ct == 6
  if outfmt == 0 then px
  else if outfmt == 1 then (if colour then px.take 3 else List.replicate 3 (px.headD 0))
  else if colour then [(19595 * px.getD 0 0 + 38470 * px.getD 1 0 + 7471 * px.getD 2 0 + 32768) / 65536]
  else [px.headD 0]

/-- R203 to R206, R217: a PNG value decoded. -/
def decodePng (b : Bytes) (outfmt : Nat) : DecodeRes :=
  match pngParts b with
  | .inr c => .bad c
  | .inl parts =>
    let hd := parts.head
    let ch := pngChannels hd.ct
    let ps := passes hd
    let cmf := (parts.idat.getD 0 0).toNat
    let flg := (parts.idat.getD 1 0).toNat
    if 2 ≤ parts.idat.length && (cmf % 16 != 8 || flg / 32 % 2 == 1) then .bad 0x02
    else
      let sound := 2 ≤ parts.idat.length && cmf / 16 ≤ 7 && (cmf * 256 + flg) % 31 == 0
      let (out, fin) := if sound then inflate (2 ^ 40) (parts.idat.drop 2) else ([], InflEnd.bad)
      let bpp := max 1 (ch * hd.depth / 8)
      let (rows, all) := allPasses bpp ch hd.depth ps out true
      -- R206: once every row stands, the rest of the zlib stream decides
      let ends := match fin with
        | .done rest => 4 ≤ rest.length && beNat (rest.take 4) == adler32 out
        | _ => false
      let goods := rows.map fun r => if all && !ends then 0 else r.length
      let filled := ((ps.zip rows).zip goods).map fun ((p, r), g) => (fillRows (p.w * ch) p.h g r).toArray.map List.toArray
      let arr := (ps.zip (filled.zip goods)).toArray
      let at_ (x y : Nat) : List Nat × Bool :=
        match arr.find? fun (p, _, _) => p.x0 ≤ x && p.y0 ≤ y && (x - p.x0) % p.dx == 0 && (y - p.y0) % p.dy == 0 with
        | none => ([], true)
        | some (p, f, g) =>
          let r := (y - p.y0) / p.dy
          let c := (x - p.x0) / p.dx
          ((List.range ch).map fun k => ((f.getD r #[]).getD (c * ch + k) 0), g ≤ r)
      let cells := (List.range hd.h).flatMap fun y => (List.range hd.w).map fun x => (x, y, at_ x y)
      let palOut (px : List Nat) : Bool := hd.ct == 3 && parts.plte.length ≤ px.headD 0
      let mult := if hd.ct == 0 then (match hd.depth with | 1 => 255 | 2 => 85 | 4 => 17 | _ => 1) else 1
      let colour (px : List Nat) : List Nat :=
        if hd.ct == 3 then (if palOut px then [0, 0, 0] else parts.plte.getD (px.headD 0) [0, 0, 0]) else px.map (· * mult)
      let dmg := (cells.filter fun (_, _, px, bad) => bad || palOut px).map fun (x, y, _) => (x, y)
      let els := cells.flatMap fun (_, _, px, _) => pngPixel hd.ct outfmt (colour px)
      let outCh := if outfmt == 1 then 3 else if outfmt == 2 then 1 else if hd.ct == 3 then 3 else ch
      let (d, first, last) := damageBounds dmg
      .ok (.image hd.h hd.w outCh (if hd.depth == 16 then 0x02 else 0x01) els) d (hd.w * hd.h) first last 0

/-! ### JPEG after entropy decoding (R199 to R202, R215, R216) -/

/-- R199: the constants c[0] to c[8]; c[0] is not used. -/
def idctC : List Int := [4096, 4017, 3784, 3406, 2896, 2276, 1567, 799, 0]

/-- R199: T[k][n]. -/
def idctT (k n : Nat) : Int :=
  if k == 0 then 2896
  else
    let j := ((2 * n + 1) * k) % 32
    if j ≤ 8 then idctC.getD j 0
    else if j ≤ 16 then -(idctC.getD (16 - j) 0)
    else if j ≤ 24 then -(idctC.getD (j - 16) 0)
    else idctC.getD (32 - j) 0

/-- Clamp to 0 to 255. -/
def clamp255 (x : Int) : Nat := (max 0 (min 255 x)).toNat

/-- R199: the 64 samples of a block from its dequantised coefficients. -/
def idct (f : List Int) : List Nat :=
  let r8 := List.range 8
  let fa := f.toArray
  let b := (r8.flatMap fun v => r8.map fun n =>
    ((r8.map fun u => idctT u n * fa.getD (8 * v + u) 0).sum + 1024) / 2048).toArray
  r8.flatMap fun m => r8.map fun n =>
    clamp255 (((r8.map fun v => idctT v m * b.getD (8 * v + n) 0).sum + 16384) / 32768 + 128)

/-- R216: the blocks with damaged ones filled: DC of the block directly above after its own concealment, AC 0. -/
def concealBlocks (c : JpegComp) : List (List Int) :=
  let dmg (i : Nat) : Bool := c.damaged.contains i
  (c.blocks.zipIdx.foldl (fun (acc : Array (List Int)) (blk, i) =>
    if dmg i then
      let dc := if i < c.bw then 0 else ((acc.getD (i - c.bw) []).headD 0)
      acc.push (dc :: List.replicate 63 0)
    else acc.push blk) #[]).toList

/-- R200 to R202, R215: a JPEG image decoded from its coefficient blocks. -/
def decodeJpegComps (w h : Nat) (rgb : Bool) (scanBlocks outfmt : Nat) (comps : List JpegComp) : DecodeRes :=
  let hmax := (comps.headD default).hf
  let vmax := (comps.headD default).vf
  let planes := comps.map fun c => (((concealBlocks c).map fun b => (idct b).toArray).toArray, c)
  let sample (pl : Array (Array Nat) × JpegComp) (x y : Nat) : Nat × Bool :=
    let cx := x * pl.2.hf / max 1 hmax
    let cy := y * pl.2.vf / max 1 vmax
    let blk := cy / 8 * pl.2.bw + cx / 8
    ((pl.1.getD blk #[]).getD (cy % 8 * 8 + cx % 8) 0, pl.2.damaged.contains blk)
  let cells := (List.range h).flatMap fun y => (List.range w).map fun x => (x, y, planes.map fun p => sample p x y)
  let dmg := (cells.filter fun (_, _, l) => l.any (·.2)).map fun (x, y, _) => (x, y)
  let conv (l : List Nat) : List Nat :=
    if comps.length == 1 then (if outfmt == 1 then List.replicate 3 (l.headD 0) else [l.headD 0])
    else if rgb then
      (if outfmt == 2 then [(19595 * l.getD 0 0 + 38470 * l.getD 1 0 + 7471 * l.getD 2 0 + 32768) / 65536] else l)
    else if outfmt == 2 then [l.headD 0]
    else
      let y : Int := l.getD 0 0
      let cb : Int := (l.getD 1 0 : Int) - 128
      let cr : Int := (l.getD 2 0 : Int) - 128
      [clamp255 (y + (91881 * cr + 32768) / 65536), clamp255 (y + (-22554 * cb - 46802 * cr + 32768) / 65536),
       clamp255 (y + (116130 * cb + 32768) / 65536)]
  let els := cells.flatMap fun (_, _, l) => conv (l.map (·.1))
  let outCh := if outfmt == 1 then 3 else if outfmt == 2 then 1 else comps.length
  let (d, first, last) := damageBounds dmg
  .ok (.image h w outCh 0x01 els) d (w * h) first last scanBlocks

/-- R197: a JPEG value decoded; `jpegDecode` reads its markers and its entropy-coded data. -/
def decodeJpeg (b : Bytes) (outfmt : Nat) : DecodeRes :=
  match jpegDecode b with
  | .bad c => .bad c
  | .image w h rgb scans comps => decodeJpegComps w h rgb scans outfmt comps

/-! ### FLAC and PCM -/

/-- R208, R209, R218: the audio of decoded FLAC frames; a damaged frame is zero in every channel. -/
def flacAudio (bits ch : Nat) (frames : List (Nat × Option (List Int))) : DecodeRes :=
  let et := if bits ≤ 16 then 0x06 else 0x07
  let pat (i : Int) : Nat := (i % (if bits ≤ 16 then 65536 else 4294967296)).toNat
  let els := frames.flatMap fun (n, s) => match s with
    | some l => l.map pat
    | none => List.replicate (n * ch) 0
  let t := (frames.map (·.1)).sum
  let starts := frames.foldl (fun (acc : List (Nat × Nat) × Nat) f =>
    (if f.2.isNone then acc.1 ++ [(acc.2, f.1)] else acc.1, acc.2 + f.1)) ([], 0)
  let d := (starts.1.map (·.2)).sum
  let first := (starts.1.head?.map (·.1)).getD 0
  let last := (starts.1.getLast?.map fun p => p.1 + p.2 - 1).getD 0
  .ok (.audio t ch et els) d t first last 0

/-- R207: a FLAC value decoded; `flacDecode` holds RFC 9639. -/
def decodeFlac (b : Bytes) : DecodeRes :=
  match flacDecode b with
  | .bad c => .bad c
  | .audio bits ch frames => flacAudio bits ch frames

/-- Little-endian elements of `n` bytes each; `fuel` bounds their number. -/
def leWords (n : Nat) : Nat → Bytes → List Nat
  | 0, _ => []
  | fuel + 1, b => if b.isEmpty then [] else leNat (b.take n) :: leWords n fuel (b.drop n)

/-- R210: PCM unpacked. -/
def decodePcm (tag pcmch : Nat) (b : Bytes) : DecodeRes :=
  let size := if tag == 0x04 then 2 else 4
  if pcmch == 0 || b.length % (size * pcmch) != 0 then .bad 0x07
  else .ok (.audio (b.length / (size * pcmch)) pcmch (if tag == 0x04 then 0x06 else 0x0B) (leWords size b.length b)) 0
    (b.length / (size * pcmch)) 0 0 0

/-- R125 decode: a value by its content tag. -/
def decodeContent (tag outfmt pcmch : Nat) (b : Bytes) : DecodeRes :=
  match tag with
  | 0x01 => decodeJpeg b outfmt
  | 0x02 => decodePng b outfmt
  | 0x03 => decodeFlac b
  | 0x04 => decodePcm tag pcmch b
  | 0x05 => decodePcm tag pcmch b
  | _ => .bad 0x02

end Sys2Proof.Machine
end

