-- ==== Sys2Proof/Machine/FilterOps.lean ====
section
/-!
DEFINITION. Filter programs (R143 to R147) and set membership (R148 to R150).
-/
namespace Sys2Proof.Machine

/-- R144: arithmetic wraps mod 2^64, read as signed. -/
def wrap64 (x : Int) : Int := (x + 9223372036854775808) % 18446744073709551616 - 9223372036854775808

/-- A filter instruction (R143). -/
structure FilterInstr where
  op  : Nat
  a   : Nat
  imm : Int
  deriving DecidableEq, Repr, Inhabited

/-- R143: an instruction's 8 bytes read. -/
def filterInstr (b : Bytes) : FilterInstr :=
  let m := field b 2 6
  { op := field b 0 1, a := field b 1 1, imm := if m < 140737488355328 then m else (m : Int) - 281474976710656 }

/-- `n` instructions of a program area from its word `off`. -/
def filterCode (prog : Bytes) (off n : Nat) : List FilterInstr :=
  (List.range n).map fun i => filterInstr (slice prog (8 * (off + i)) 8)

/-- What a program reads from outside: record fields with their immediate, META items, RAND draws. -/
structure FilterEnv where
  fields : Nat → Int → Int
  items  : Nat → Int
  draw   : Nat → Nat

/-- R144: one instruction on a stack, top first: the stack after, and the jump distance. `r` counts RANDs so far. -/
def filterStep (env : FilterEnv) (i : FilterInstr) (r : Nat) (st : List Int) : List Int × Nat × Nat :=
  let x := st.getD 0 0
  let y := st.getD 1 0
  let one (v : Int) := (v :: st.drop 1, r, 0)
  let two (v : Int) := (wrap64 v :: st.drop 2, r, 0)
  match i.op with
  | 0x00 => (i.imm :: st, r, 0)
  | 0x01 => (env.fields i.a i.imm :: st, r, 0)
  | 0x02 => (wrap64 (env.items i.a) :: st, r, 0)
  | 0x03 => (x :: st, r, 0)
  | 0x04 => (y :: x :: st.drop 2, r, 0)
  | 0x05 => two (y + x)
  | 0x06 => two (y - x)
  | 0x07 => two (y * x)
  | 0x08 => two (if x == 0 then 0 else y.tdiv x)
  | 0x09 => two (((y % 18446744073709551616).toNat &&& (x % 18446744073709551616).toNat : Nat))
  | 0x0A => two (((y % 18446744073709551616).toNat ||| (x % 18446744073709551616).toNat : Nat))
  | 0x0B => two (if y < x then 1 else 0)
  | 0x0C => two (if y == x then 1 else 0)
  | 0x0D => one (if x == 0 then 1 else 0)
  | 0x0E => (st.drop 1, r, if x == 0 then i.imm.toNat else 0)
  | _ => (((env.draw r >>> 16 : Nat) : Int) :: st, r + 1, 0)

/-- R146: the program run from its current instruction: result and instructions executed; `fuel` bounds them (jumps go
forward only). -/
def filterRun (env : FilterEnv) : Nat → List FilterInstr → Nat → List Int → Nat → Int × Nat
  | 0, _, _, st, n => (st.getD 0 0, n)
  | fuel + 1, code, r, st, n =>
    match code with
    | [] => (st.getD 0 0, n)
    | i :: rest =>
      let (st, r, jump) := filterStep env i r st
      filterRun env fuel (rest.drop jump) r st (n + 1)

/-- A program run from its start: result and instructions executed. -/
def runFilter (env : FilterEnv) (code : List FilterInstr) : Int × Nat := filterRun env code.length code 0 [] 0

/-- R144 FIELD: a field's value pushed. -/
def fieldPush (v : Val) (imm : Int) : Int :=
  match v with
  | .null => -9223372036854775808
  | .scalar t x => match typeFmt t with
    | none => wrap64 (typeInt t x)
    | some f => match f.read x with
      | .nan => 0
      | .inf neg => if neg then -9223372036854775808 else 9223372036854775807
      | .fin neg m e =>
        let sh := e + imm
        let k : Int := if 0 ≤ sh then (m * 2 ^ sh.toNat : Nat) else (m / 2 ^ (-sh).toNat : Nat)
        max (-9223372036854775808) (min 9223372036854775807 (if neg then -k else k))
  | v => v.count

/-- Pops and pushes of an opcode (R144). -/
def filterArity (op : Nat) : Nat × Nat :=
  match op with
  | 0x00 => (0, 1)
  | 0x01 => (0, 1)
  | 0x02 => (0, 1)
  | 0x03 => (1, 2)
  | 0x04 => (2, 2)
  | 0x0D => (1, 1)
  | 0x0E => (1, 0)
  | 0x0F => (0, 1)
  | _ => (2, 1)

/-- R147, first part: the index of the first instruction that breaks a check of its own. `fcount` is the schema's field count
where it is known, `itemOk` the items that are defined. -/
def filterBad (fcount : Option Nat) (itemOk : Nat → Bool) (code : List FilterInstr) : Option Nat :=
  (code.zipIdx.find? fun (i, n) =>
    0x0F < i.op ||
    (i.op == 0x0E && (i.imm < 0 || (code.length : Int) < (n : Int) + 1 + i.imm)) ||
    (i.op == 0x02 && !itemOk i.a) ||
    (i.op == 0x01 && ((match fcount with | some k => k ≤ i.a | none => false) || i.imm < 0 || 32 < i.imm))).map (·.2)

/-- R147: a depth entered for an instruction, or for the end, whose index is `n`: unknown, known, or one that breaks a rule (two
depths at an instruction, a depth of 0 at the end). -/
def reach (n : Nat) (ds : List (Option (Option Nat))) (i d : Nat) : List (Option (Option Nat)) :=
  if i == n then (if d == 0 then ds.set i (some none) else ds)
  else match ds.getD i none with
    | none => ds.set i (some (some d))
    | some x => if x == some d then ds else ds.set i (some none)

/-- R147, second part: stack depths along every path, instruction by instruction. Jumps go forward only, so one pass in order sees
every path. The answer is the lowest index that breaks a rule; the end is no instruction (0xFFFF). -/
def filterDepths (len : Nat) : List (FilterInstr × Nat) → List (Option (Option Nat)) → Option Nat
  | [], ds => if ds.getD len none == some none then some 0xFFFF else none
  | (i, n) :: rest, ds =>
    match ds.getD n none with
    | none => filterDepths len rest ds
    | some none => some n
    | some (some d) =>
      let (pop, push) := filterArity i.op
      if d < pop || 16 < d - pop + push then some n
      else
        let ds := reach len ds (n + 1) (d - pop + push)
        filterDepths len rest (if i.op == 0x0E then reach len ds (n + 1 + i.imm.toNat) (d - pop + push) else ds)

/-- R147: the index of the failing instruction of a program; none when the program passes. -/
def filterCheck (fcount : Option Nat) (itemOk : Nat → Bool) (code : List FilterInstr) : Option Nat :=
  match filterBad fcount itemOk code with
  | some n => some n
  | none => filterDepths code.length code.zipIdx ((List.replicate (code.length + 1) (none : Option (Option Nat))).set 0 (some (some 0)))

/-! ### Set membership (R148 to R150) -/

/-- R148: the key of a value. -/
def setKey (v : Val) : Option Nat :=
  match v with
  | .scalar t x => some ((typeInt t x % 18446744073709551616).toNat)
  | .bytes _ b => some (contentKey b)
  | .text b => some (contentKey b)
  | .tokens ids => some (contentKey (ids.flatMap (leBytes 4)))
  | _ => none

/-- R149: the slot where linear probing from `i` ends for a key: its own slot or a free one; `fuel` bounds the probes. -/
def probe (keys : List (Nat × Nat)) (slots key : Nat) : Nat → Nat → Nat
  | 0, i => i
  | fuel + 1, i => match keys.find? fun p => p.1 == i with
    | none => i
    | some p => if p.2 == key then i else probe keys slots key fuel ((i + 1) % slots)

/-- R149: a key inserted once. -/
def SetTable.insert (seed : Nat) (t : SetTable) (key : Nat) : SetTable :=
  let i := probe t.keys t.slots key t.slots (keyed seed 0x06 [key, t.dset] % t.slots)
  if t.keys.any (fun p => p.1 == i) then t else { t with keys := t.keys ++ [(i, key)] }

/-- R150: is a key in the table? -/
def SetTable.has (seed : Nat) (t : SetTable) (key : Nat) : Bool :=
  let i := probe t.keys t.slots key t.slots (keyed seed 0x06 [key, t.dset] % t.slots)
  !(t.keyBytes == 4 && 4294967295 < key) && t.keys.any fun p => p.1 == i && p.2 == key

/-- R149: slots of a table for `n` keys: a power of two, at least 1,024 and at least 2n. -/
def tableSlots (n : Nat) : Nat := max 1024 (2 ^ ceilLog2 64 0 (2 * n))

/-- R149: the table of an array of keys. -/
def buildTable (seed dset keyBytes : Nat) (keys : List Nat) : SetTable :=
  keys.foldl (SetTable.insert seed) { dset := dset, keyBytes := keyBytes, slots := tableSlots keys.length, keys := [] }

end Sys2Proof.Machine
end

