-- ==== Sys2Proof/Machine/GraphOps.lean ====
section
/-!
DEFINITION. Graph neighbourhood sampling (R276 to R287): the drawing of a subgraph and the SUBGRAPH value.
-/
namespace Sys2Proof.Machine

/-- An element of an array shard as a walk reads it: its value, a granule that fails its check (R72), or a read that ends
unrecovered (R487). -/
inductive Elem
  | val (n : Nat)
  | bad
  | lost
  deriving DecidableEq, Repr, Inhabited

/-- What a walk does: a subgraph, or a drop with the node whose list was read, the edge index where one applies, and
whether a read ended unrecovered; each with its charge (R153, R280). -/
inductive Walk
  | done (nodes : List Nat) (edges : List (Nat × Nat)) (hend : List Nat) (charge : Nat)
  | drop (node : Nat) (edge : Option Nat) (lost : Bool) (charge : Nat)
  deriving DecidableEq, Repr, Inhabited

/-- Insertion into a list ascending by key, then edge index (R277). -/
def insertKey (x : Nat × Nat) : List (Nat × Nat) → List (Nat × Nat)
  | [] => [x]
  | y :: ys => if x.1 < y.1 || (x.1 == y.1 && x.2 < y.2) then x :: y :: ys else y :: insertKey x ys

/-- R276, R277: the first `f` edges of a list `a` to `z − 1` by key. -/
def smallestKeys (key : Nat → Nat) (a z f : Nat) : List Nat :=
  (((List.range (z - a)).foldl (fun acc i => (insertKey (key (a + i), a + i) acc).take f) []).map (·.2))

/-- The graph as a walk reads it. -/
structure GraphEnv where
  v      : Nat
  e      : Nat
  rowoff : Nat → Elem
  col    : Nat → Elem
  key    : Nat → Nat

/-- A walk under way: nodes and edges so far and the charge. -/
structure WalkSt where
  nodes  : List Nat
  edges  : List (Nat × Nat)
  charge : Nat

/-- R277, R278: the selected edges of local node u entered in order. -/
def takeEdges (g : GraphEnv) (node u : Nat) : List Nat → WalkSt → WalkSt ⊕ Walk
  | [], w => .inl w
  | x :: xs, w => match g.col x with
    | .bad => .inr (.drop node (some x) false w.charge)
    | .lost => .inr (.drop node (some x) true w.charge)
    | .val c =>
      if g.v ≤ c then .inr (.drop node (some x) false w.charge) else
        match w.nodes.findIdx? fun n => n == c with
        | some i => takeEdges g node u xs { w with edges := w.edges ++ [(u, i)] }
        | none => takeEdges g node u xs { w with nodes := w.nodes ++ [c], edges := w.edges ++ [(u, w.nodes.length)] }

/-- R277: local nodes of a frontier expanded in ascending order with fan-out `f`. A list whose charge already passes `cap`
selects nothing more: the sample is aborted by the cap (R152) whatever follows. -/
def expand (g : GraphEnv) (f cap : Nat) : List Nat → WalkSt → WalkSt ⊕ Walk
  | [], w => .inl w
  | u :: us, w =>
    let node := w.nodes.getD u 0
    let w := { w with charge := w.charge + 4 }
    match g.rowoff node, g.rowoff (node + 1) with
    | .val a, .val z =>
      if z < a || g.e < z then .inr (.drop node none false w.charge) else
        let w := { w with charge := w.charge + (z - a) }
        if cap < w.charge then .inr (.drop node none false w.charge) else
          match takeEdges g node u (smallestKeys g.key a z f) w with
          | .inl w => expand g f cap us w
          | .inr d => .inr d
    | .lost, _ => .inr (.drop node none true w.charge)
    | .val _, .lost => .inr (.drop node none true w.charge)
    | _, _ => .inr (.drop node none false w.charge)

/-- R277: the hops, each expanding what the one before discovered. -/
def walkHops (g : GraphEnv) (cap : Nat) : List Nat → Nat → WalkSt → List Nat → Walk
  | [], _, w, hend => .done w.nodes w.edges hend w.charge
  | f :: fs, lo, w, hend =>
    let hi := w.nodes.length
    match expand g f cap ((List.range (hi - lo)).map fun i => lo + i) w with
    | .inl w => walkHops g cap fs hi w (hend ++ [w.nodes.length])
    | .inr d => d

/-- R277: the subgraph of seed node v0 with the fan-outs of its hops; `cap` is what is left of the work-unit cap. -/
def graphSample (g : GraphEnv) (cap : Nat) (fans : List Nat) (v0 : Nat) : Walk :=
  if g.v ≤ v0 then .drop v0 none false 0
  else walkHops g cap fans 0 { nodes := [v0], edges := [], charge := 0 } []

/-- R281: NMAX of the fan-outs used. -/
def nmaxOf (fans : List Nat) : Nat := (fans.foldl (fun (acc : Nat × Nat) f => (acc.1 + acc.2 * f, acc.2 * f)) (1, 1)).1

/-- R282: bytes of a SUBGRAPH value. -/
def subgraphSize (nmax : Nat) : Nat := 24 + 12 * nmax

/-- R282 to R284: the SUBGRAPH value. -/
def subgraphBytes (hops nmax : Nat) (nodes : List Nat) (edges : List (Nat × Nat)) (hend : List Nat) : Bytes :=
  let n := nodes.length
  [0x01, byteOf hops, 0, 0] ++ leBytes 4 n ++ leBytes 4 edges.length ++ leBytes 4 nmax ++
  ((List.range 4).flatMap fun i => leBytes 4 (hend.getD i n)) ++
  nodes.flatMap (leBytes 4) ++ List.replicate (4 * (nmax - n)) 0xFF ++
  edges.flatMap (fun e => leBytes 4 e.1 ++ leBytes 4 e.2) ++ List.replicate (8 * (nmax - 1 - edges.length)) 0xFF

end Sys2Proof.Machine
end

