-- ==== Sys2Proof/Machine/MediaOps.lean ====
section
/-!
DEFINITION. The flash translation layer's operations ("Flash media management"): geometry and format, page placement and
programs, the map, logical reads and writes, trims, relocation and erase, LUN failures and rebuild, mount.
-/
namespace Sys2Proof.Machine

/-! ### Geometry (R465 to R470, R477) -/

/-- The data area of a page, and a map unit (R465, R476). -/
def unitBytes : Nat := 16384

/-- R465: does the DX36 accept this NAND? -/
def geomSupported (g : NandGeometry) : Bool :=
  g.uniform && g.dataBytes == 16384 && 2112 ≤ g.spareBytes && within 512 3072 g.pagesPerBlock && g.pagesPerBlock % 512 == 0 &&
  (g.planes == 1 || g.planes == 2 || g.planes == 4) &&
  (g.channels == List.range 16 || g.channels == List.range 32) &&
  (g.ces == 1 || g.ces == 2 || g.ces == 4 || g.ces == 8) &&
  (g.lunsPerCe == 1 || g.lunsPerCe == 2 || g.lunsPerCe == 4) && 0 < g.pagesPerWl

/-- "Groups, superblocks and stripes": LUN positions of a channel. -/
def geomPositions (g : NandGeometry) : Nat := g.ces * g.lunsPerCe

/-- R33: the unit id of the LUN at a channel and position. -/
def geomLunUnit (g : NandGeometry) (ch pos : Nat) : Nat :=
  0x300 + 32 * ch + 4 * (pos / max 1 g.lunsPerCe) + pos % max 1 g.lunsPerCe

/-- R469: good blocks of a LUN, ascending: all but the factory-marked bad ones. -/
def geomGood (g : NandGeometry) (ch pos : Nat) : List Nat :=
  let bad := (g.bad.filter fun b => b.1 == ch && b.2.1 == pos).map (·.2.2)
  (List.range g.blocksPerLun).filter fun b => !bad.contains b

/-- R469: how many blocks a LUN with `good` good blocks keeps in reserve. -/
def reserveOf (good : Nat) : Nat := max 8 (good * 2 / 100)

/-- A group by number. -/
def Media.group (m : Media) (g : Nat) : Option Group := m.groups.find? fun x => x.g == g

/-- A group changed. -/
def Media.modGroup (m : Media) (g : Nat) (f : Group → Group) : Media :=
  { m with groups := updWhere (fun x => x.g == g) f m.groups }

/-- A superblock by group and number. -/
def Media.sblk (m : Media) (g k : Nat) : Option Sblk := m.sblks.find? fun x => x.g == g && x.k == k

/-- A superblock changed. -/
def Media.modSblk (m : Media) (g k : Nat) (f : Sblk → Sblk) : Media :=
  { m with sblks := updWhere (fun x => x.g == g && x.k == k) f m.sblks }

/-- A LUN changed. -/
def Media.modLun (m : Media) (ch pos : Nat) (f : Lun → Lun) : Media :=
  { m with luns := updWhere (fun x => x.ch == ch && x.pos == pos) f m.luns }

/-- The page written at a place. -/
def Media.pageAt (m : Media) (l : Loc) : Option Page := m.pages.find? fun p => p.loc == l

/-- R468: the LUN that serves a place: channel and position. -/
def Media.lunOf (m : Media) (l : Loc) : Nat × Nat :=
  match m.group l.g with | some g => g.members.getD l.m (0, 0) | none => (0, 0)

/-- R469: the block address of a place in its LUN: the k-th good block, or the replacement its superblock took for it. -/
def Media.blockOf (m : Media) (l : Loc) : Nat :=
  let lun := m.lunOf l
  let swapped := match m.sblk l.g l.k with | some x => x.swapped.find? fun (y : Nat × Nat) => y.1 == l.m | none => none
  match swapped with
  | some y => y.2
  | none => (geomGood m.geom lun.1 lun.2).getD l.k 0

/-- The page index of a place within its LUN (R476). -/
def Media.pageIndex (m : Media) (l : Loc) : Nat := m.blockOf l * m.geom.pagesPerBlock + l.p

/-- R470: is page index p of a block a summary page? -/
def isSummary (p : Nat) : Bool := p % 512 == 511

/-- R470: the member that holds the parity page of stripe p. -/
def parityMember (p : Nat) : Nat := p % 16

/-- Data-page bytes of a superblock (R477, R470). -/
def Media.sblkBytes (m : Media) : Nat := m.geom.pagesPerBlock / 512 * 511 * 15 * unitBytes

/-- 64 GiB, the metadata space. -/
def metaSpace : Nat := 68719476736

/-! ### The map and logical contents (R476, R494) -/

/-- The place a map entry names. -/
def Media.entry (m : Media) (space lmu : Nat) : Option Loc :=
  (m.map.find? fun e => e.1 == space && e.2.1 == lmu).map (·.2.2)

/-- A map entry set to a place, or to deallocated. -/
def Media.setEntry (m : Media) (space lmu : Nat) (l : Option Loc) : Media :=
  let rest := m.map.filter fun e => !(e.1 == space && e.2.1 == lmu)
  { m with map := match l with | some l => rest ++ [(space, lmu, l)] | none => rest }

/-- Is a map unit lost? -/
def Media.isLost (m : Media) (space lmu : Nat) : Bool := m.lost.contains (space, lmu)

/-- R476: the 5-byte forward map entry of a unit: channel in [4:0], chip enable in [7:5], LUN index in [9:8] and page index in
[39:10], or deallocated, or lost. -/
def Media.entryBits (m : Media) (space lmu : Nat) : Nat :=
  if m.isLost space lmu then 0xFFFFFFFFFE
  else match m.entry space lmu with
    | none => 0xFFFFFFFFFF
    | some l =>
      let lun := m.lunOf l
      let n := max 1 m.geom.lunsPerCe
      lun.1 + lun.2 / n * 32 + lun.2 % n * 256 + m.pageIndex l * 1024

/-- Trailing zero bytes dropped: pages and parts are kept so. -/
def trimZeros (b : Bytes) : Bytes := (b.reverse.dropWhile fun x => x == 0).reverse

/-- Bytes `new` laid over `old` from offset `off`. -/
def overlay (old : Bytes) (off : Nat) (new : Bytes) : Bytes := fitTo off old ++ new ++ old.drop (off + new.length)

/-- R473 BMASK: the 16,384 bytes of a unit with the blocks of clear bits read as zeros. -/
def maskUnit (bmask : Nat) (data : Bytes) : Bytes :=
  (List.range 4).flatMap fun i => if bmask / 2 ^ i % 2 == 1 then fitTo 4096 (data.drop (4096 * i)) else zeros 4096

/-- R493: is any block of the host range inside a SECURE DEALLOCATE under way (R496)? -/
def Media.inSecure (m : Media) (first n : Nat) : Bool := m.secure.any fun r => first < r.1 + r.2 && r.1 < first + n

/-- The contents of a map unit: the page its entry names, or zeros when it is deallocated (R493). -/
def Media.unit (m : Media) (space lmu : Nat) : Bytes :=
  match m.entry space lmu with
  | none => zeros unitBytes
  | some l => match m.pageAt l with
    | none => zeros unitBytes
    | some p => maskUnit p.bmask p.data

/-- BMASK of a map unit. -/
def Media.unitMask (m : Media) (space lmu : Nat) : Nat :=
  match m.entry space lmu with
  | none => 0
  | some l => match m.pageAt l with | none => 0 | some p => p.bmask

/-- `n` bytes of the host space from byte `a`; zeros inside a SECURE DEALLOCATE under way (R496). -/
def Media.readBytes (m : Media) (a n : Nat) : Bytes :=
  let first := a / unitBytes
  let last := (a + n + unitBytes - 1) / unitBytes
  let whole := (List.range (last - first)).flatMap fun i =>
    let u := m.unit 0 (first + i)
    if m.secure.isEmpty then u else
      (List.range 4).flatMap fun b =>
        if m.inSecure (4 * (first + i) + b) 1 then zeros 4096 else slice u (4096 * b) 4096
  slice whole (a % unitBytes) n

/-- Does a byte range of the host space touch a lost map unit (R487, R523)? -/
def Media.lostIn (m : Media) (a n : Nat) : Bool :=
  n != 0 && m.lost.any fun u => u.1 == 0 && a / unitBytes ≤ u.2 && u.2 ≤ (a + n - 1) / unitBytes

/-! ### Placing pages (R474, R479, R480, R483) -/

/-- A page that may hold a map unit: host, relocated or metadata. -/
def Page.isData (p : Page) : Bool := p.kind == 1 || p.kind == 2 || p.kind == 5

/-- The 16,384 data bytes of a page. -/
def Page.bytes (p : Page) : Bytes := fitTo unitBytes p.data

/-- R473: the 64-byte page tag. -/
def Page.tag (p : Page) : Bytes :=
  let b := leBytes 4 (0x01 + p.kind * 2 ^ 8 + p.space * 2 ^ 12 + p.bmask * 2 ^ 16) ++ leBytes 5 p.lmu ++ zeros 7 ++
    leBytes 8 p.seq ++ leBytes 8 p.dseq ++ leBytes 4 (crc32c p.bytes) ++ zeros 24
  b ++ leBytes 4 (crc32c b)

/-- R471, R473: what the tag area of a page holds: its tag, or a parity page's exclusive-or of its stripe's; one whose program
failed counts as zeros. -/
def Page.tagArea (p : Page) : Bytes := if p.prog == .failed then [] else if p.kind == 4 then fitTo 64 p.xtag else p.tag

/-- R472: the four codewords of a page: 4,096 data bytes each, the fourth with the tag, and the 512 parity bytes that protect
them. -/
def Page.codewords (p : Page) : List (Bytes × Bytes) :=
  (List.range 4).map fun i =>
    let d := slice p.bytes (4096 * i) 4096 ++ (if i == 3 then p.tagArea else [])
    (d, fitTo 512 (Config.ldpcParity d))

/-- R472: the spare area of a page: the parity of its codewords, then the tag. -/
def Page.spare (p : Page) : Bytes := p.codewords.flatMap (·.2) ++ p.tagArea

/-- The open superblock of a stream in a group. -/
def Media.openSblk (m : Media) (g stream : Nat) : Option Sblk :=
  m.sblks.find? fun x => x.g == g && x.use == .opened stream

/-- Free superblocks of a group. -/
def Media.freeSblks (m : Media) (g : Nat) : List Sblk := m.sblks.filter fun x => x.g == g && x.use == .free

/-- The free superblock opened next: lowest erase count, then lowest number. -/
def Media.pickFree (m : Media) (g : Nat) : Option Sblk :=
  (m.freeSblks g).foldl (fun a x => match a with
    | none => some x
    | some y => if x.erases < y.erases then some x else some y) none

/-- A superblock of the group open for the stream, opened from a free one when there is none; host data leave the reserve R of
2 superblocks (R514), which metadata and relocation may use (R516). -/
def Media.ensureOpen (m : Media) (g stream : Nat) : Option (Sblk × Media) :=
  match m.openSblk g stream with
  | some x => some (x, m)
  | none =>
    if stream == 0 && (m.freeSblks g).length ≤ 2 then none else
      match m.pickFree g with
      | none => none
      | some x => some ({ x with use := .opened stream, next := 0 },
                        m.modSblk g x.k fun y => { y with use := .opened stream, next := 0 })

/-- R474: a page given to the NAND: it takes the next SEQ and counts in MediaBytesWritten; WP_N is high (R467). -/
def Media.issue (m : Media) (pg : Page) : Media :=
  let lun := m.lunOf pg.loc
  { m with pages := m.pages.filter (fun p => p.loc != pg.loc) ++ [{ pg with prog := .issued }],
           seq := m.seq + 1, mediaBytes := m.mediaBytes + unitBytes, wpN := true,
           bus := (lun.1, lun.2, .pageProgram (m.pageIndex pg.loc)) :: m.bus }

/-- R497: a summary entry of a page. -/
def summaryEntry (p : Page) : Bytes :=
  leBytes 8 ((if p.kind == 4 || p.kind == 6 then 0 else p.lmu) + p.bmask * 2 ^ 40 + p.kind * 2 ^ 44 + p.space * 2 ^ 48) ++
  leBytes 8 p.seq ++ leBytes 8 p.dseq

/-- R497: the contents of the summary page of a segment of a member's block. -/
def Media.summaryData (m : Media) (g k mem seg : Nat) : Bytes :=
  let mine := m.pages.filter fun p => p.loc.g == g && p.loc.k == k && p.loc.m == mem && p.loc.p / 512 == seg
  let seqs := mine.map (·.seq)
  let lo := seqs.foldl min (seqs.headD 0)
  let hi := seqs.foldl max 0
  let ec := match m.sblk g k with | some x => x.erases | none => 0
  let head := [0x01, byteOf g] ++ leBytes 2 mem ++ leBytes 3 k ++ [byteOf seg] ++ leBytes 4 ec ++ zeros 4 ++ leBytes 8 lo ++
    leBytes 8 hi ++ zeros 32
  head ++ (List.range 511).flatMap fun n =>
    match mine.find? fun p => p.loc.p % 512 == n with
    | some p => summaryEntry p
    | none => zeros 24

/-- R497: the summary page of a member's segment, when all of the segment's 511 pages have been given to the NAND and it has
none yet. -/
def Media.summarize (m : Media) (g k mem seg : Nat) : Media :=
  let mine := m.pages.filter fun p => p.loc.g == g && p.loc.k == k && p.loc.m == mem && p.loc.p / 512 == seg
  if mine.length == 511 && mine.all (fun p => !isSummary p.loc.p) then
    m.issue { loc := ⟨g, k, mem, 512 * seg + 511⟩, kind := 3, space := 0, bmask := 0, lmu := 0, seq := m.seq, dseq := m.seq,
              data := trimZeros (m.summaryData g k mem seg), prog := .issued }
  else m

/-- The summary page of a segment whose last page is its parity page, once the superblock has gone past it. -/
def Media.lateSummary (m : Media) (g k mem seg : Nat) : Media :=
  match m.sblk g k with
  | some x => if 16 * (512 * seg + 511) + mem < x.next then m.summarize g k mem seg else m
  | none => m

/-- The next slot that takes a page with data in an open superblock: slots run by page, then by member; parity slots are
passed over, and a summary row programs the summary pages whose segments are full. -/
def Media.advance : Nat → Media → Nat → Nat → Media
  | 0, m, _, _ => m
  | fuel + 1, m, g, k =>
    match m.sblk g k with
    | none => m
    | some x =>
      let p := x.next / 16
      let mem := x.next % 16
      if m.geom.pagesPerBlock ≤ p then m.modSblk g k fun y => { y with use := .full }
      else if isSummary p then
        Media.advance fuel ((m.summarize g k mem (p / 512)).modSblk g k fun y => { y with next := y.next + 1 }) g k
      else if mem == parityMember p then
        Media.advance fuel (m.modSblk g k fun y => { y with next := y.next + 1 }) g k
      else m

/-- A page with data placed in a stream's open superblock of a group (R479): its place and the media after. -/
def Media.place (m : Media) (g stream : Nat) (pg : Page) : Option (Loc × Media) :=
  match m.ensureOpen g stream with
  | none => none
  | some (x, m) =>
    let m := m.advance 40 g x.k
    match m.sblk g x.k with
    | none => none
    | some x =>
      if x.use != .opened stream then none else
        let l : Loc := ⟨g, x.k, x.next % 16, x.next / 16⟩
        let m := m.issue { pg with loc := l, seq := m.seq, dseq := if pg.kind == 2 then pg.dseq else m.seq }
        some (l, (m.modSblk g x.k fun y => { y with next := y.next + 1 }).advance 40 g x.k)

/-- Groups that accept writes, starting with number `from_`, round. -/
def Media.accepting (m : Media) (from_ : Nat) : List Nat :=
  let gs := (m.groups.filter (·.accepts)).map (·.g)
  (gs.filter fun g => from_ ≤ g) ++ gs.filter fun g => g < from_

/-- The first group of a list in which a page can be placed. -/
def Media.placeIn (m : Media) (stream : Nat) (pg : Page) : List Nat → Option (Loc × Media)
  | [] => none
  | g :: gs => match m.place g stream pg with
    | some r => some r
    | none => Media.placeIn m stream pg gs

/-! ### The metadata space -/

/-- Map units of the metadata space. -/
def metaUnits : Nat := metaSpace / unitBytes

/-- The SEQ of the page at a place of the media after it was written. -/
def Media.seqAt (before : Media) (m : Media) (l : Loc) : Nat := match m.pageAt l with | some p => p.seq | none => before.seq

/-- One unit of the metadata space written, in the first group that takes it (R479). -/
def Media.metaUnit (m : Media) (data : Bytes) : Option (Nat × Media) :=
  match m.placeIn 2 { loc := ⟨0, 0, 0, 0⟩, kind := 5, space := 1, bmask := 15, lmu := m.metaNext, seq := 0, dseq := 0,
                      data := trimZeros data, prog := .issued } (m.accepting 0) with
  | none => none
  | some (l, m') => some (m.seqAt m' l, { m'.setEntry 1 m.metaNext (some l) with metaNext := (m.metaNext + 1) % metaUnits })

/-- The units of a record, in the metadata space's next units. -/
def Media.metaWrite (data : Bytes) : Nat → Nat → Media → Option (List Nat × Media)
  | 0, _, m => some ([], m)
  | n + 1, i, m => match m.metaUnit (slice data (unitBytes * i) unitBytes) with
    | none => none
    | some (q, m) => (Media.metaWrite data n (i + 1) m).map fun r => (q :: r.1, r.2)

/-- A record written into the metadata space: its programs, and the media with the record under way; none when no group can take
it. -/
def Media.record (m : Media) (data : Bytes) (rec_ : MetaRec) : Option (List Nat × Media) :=
  (m.metaWrite data (max 1 ((data.length + unitBytes - 1) / unitBytes)) 0).map fun r =>
    (r.1, { r.2 with records := r.2.records ++ [(r.1, rec_)] })

/-- R479: host data go round the groups, one map unit per member per turn: a group takes a stripe, then the next group's
turn comes. The entry of the unit then names the new page. -/
def Media.writeUnit (m : Media) (lmu bmask : Nat) (data : Bytes) : Option (Nat × Media) :=
  let seq := m.seq
  match m.placeIn 0 { loc := ⟨0, 0, 0, 0⟩, kind := 1, space := 0, bmask := bmask, lmu := lmu, seq := 0, dseq := 0,
                      data := trimZeros data, prog := .issued, wasLost := m.isLost 0 lmu } (m.accepting m.rr) with
  | none => none
  | some (l, m') =>
    let last := if parityMember l.p == 15 then 14 else 15
    let m' := m'.setEntry 0 lmu (some l)
    let m' := { m' with rr := if l.m == last then l.g + 1 else l.g, lost := m'.lost.filter fun u => u != (0, lmu) }
    match m'.pageAt l with
    | some p => some (p.seq, m')
    | none => some (seq, m')

/-- The units a range of host blocks touches, with the covered blocks of each as a mask. -/
def coverUnits (slba nlb : Nat) : List (Nat × Nat) :=
  (List.range ((slba + nlb + 3) / 4 - slba / 4)).map fun i =>
    let u := slba / 4 + i
    (u, ((List.range 4).map fun b => if slba ≤ 4 * u + b && 4 * u + b < slba + nlb then 2 ^ b else 0).sum)

/-- R771: does the range cover part, and not the whole, of a lost map unit? -/
def Media.partLost (m : Media) (slba nlb : Nat) : Bool := (coverUnits slba nlb).any fun u => u.2 != 15 && m.isLost 0 u.1

/-- R478: the units of a host write, one after another, each read, changed and written whole. Answers the program sequence
numbers, oldest first; none when no group can take a page. -/
def Media.writeUnits (m : Media) (slba : Nat) (data : Bytes) : List (Nat × Nat) → Option (List Nat × Media)
  | [] => some ([], m)
  | (u, mask) :: us =>
    let old := m.unit 0 u
    let start := if 4 * u < slba then 4096 * (slba - 4 * u) else 0
    let part := slice data (4 * u * 4096 + start - slba * 4096) (4096 * ((List.range 4).filter fun b => mask / 2 ^ b % 2 == 1).length)
    match m.writeUnit u (m.unitMask 0 u ||| mask) (overlay old start part) with
    | none => none
    | some (q, m) => match Media.writeUnits m slba data us with
      | none => none
      | some (qs, m) => some (q :: qs, m)

/-- A host write of `data` at block `slba`, `nlb` blocks. -/
def Media.write (m : Media) (slba nlb : Nat) (data : Bytes) : Option (List Nat × Media) :=
  m.writeUnits slba data (coverUnits slba nlb)

/-! ### Programs completing (R480, R483) -/

/-- Two places on one word line. -/
def Media.sameWl (m : Media) (a b : Loc) : Bool :=
  a.g == b.g && a.k == b.k && a.m == b.m && a.p / max 1 m.geom.pagesPerWl == b.p / max 1 m.geom.pagesPerWl

/-- R480: is every page of the place's word line programmed with success reported? A page whose program failed keeps its word
line from ever being so. -/
def Media.wlDone (m : Media) (l : Loc) : Bool :=
  let w := max 1 m.geom.pagesPerWl
  let first := l.p / w * w
  (List.range w).all fun i =>
    m.geom.pagesPerBlock ≤ first + i ||
    match m.pageAt ({ l with p := first + i } : Loc) with
    | some p => p.prog == .reported || p.prog == .whole
    | none => false

/-- The word lines of a place whose every page has reported become whole. -/
def Media.settleWl (m : Media) (l : Loc) : Media :=
  if m.wlDone l then { m with pages := updWhere (fun p => m.sameWl p.loc l) (fun p => { p with prog := .whole }) m.pages } else m

/-- Bytewise exclusive-or, the shorter continued with zeros. -/
def xorBytes : Bytes → Bytes → Bytes
  | [], b => b
  | a, [] => a
  | x :: xs, y :: ys => (x ^^^ y) :: xorBytes xs ys

/-- R483, R471: the parity page of a stripe whose fifteen data pages are programmed and whose parity is not: its data area and
its tag area are the exclusive-or of theirs. A segment it fills gets its summary page. -/
def Media.closeStripe (m : Media) (l : Loc) : Media :=
  if isSummary l.p then m else
    let stripe := m.pages.filter fun p => p.loc.g == l.g && p.loc.k == l.k && p.loc.p == l.p
    let datas := stripe.filter fun p => p.loc.m != parityMember l.p && p.prog != .issued
    if datas.length == 15 && stripe.length == 15 then
      (m.issue { loc := { l with m := parityMember l.p }, kind := 4, space := 0, bmask := 0, lmu := 0, seq := m.seq, dseq := m.seq,
                 data := trimZeros (datas.foldl (fun a p => xorBytes a p.data) []),
                 xtag := datas.foldl (fun a p => xorBytes a p.tagArea) [], prog := .issued }).lateSummary l.g l.k (parityMember l.p)
        (l.p / 512)
    else m

/-- The program of a page reports success. -/
def Media.mark (m : Media) (l : Loc) : Media :=
  let done (p : Page) : Page := if p.prog == ProgState.issued then { p with prog := ProgState.reported } else p
  { m with pages := updWhere (fun p => p.loc == l) done m.pages }

/-- R480, R483: a page reports success: it is marked, its stripe takes its parity page when it was the last, and its word line settles. -/
def Media.report (m : Media) (l : Loc) : Media := ((m.mark l).closeStripe l).settleWl l

/-! ### Records of the metadata space under way (R490, R493, R509 to R511, R515) -/

/-- Does what a program sequence number wrote still wait to count as programmed (R480)? A copy of it that does so stands for it. -/
def Media.under (m : Media) (seq : Nat) : Bool :=
  m.pages.any fun p => p.seq == seq && (p.prog == .issued || p.prog == .reported) &&
    !(m.pages.any fun x => x.isData && x.prog == .whole && x.space == p.space && x.lmu == p.lmu && x.dseq == p.dseq && x.loc != p.loc)

/-- Do all programs of a record count as programmed? -/
def Media.recordDone (m : Media) (r : List Nat × MetaRec) : Bool := !r.1.any m.under

/-- A program or an erase is under way (R467). -/
def Media.busy (m : Media) : Bool := m.pages.any (fun p => p.prog == .issued) || m.sblks.any (·.intent)

/-- R480: filler pages placed in an open superblock until `done` holds of the slot; `fuel` bounds their number. -/
def Media.fillWhile (stop : Nat → Bool) : Nat → Media → Nat → Nat → Media
  | 0, m, _, _ => m
  | fuel + 1, m, g, stream =>
    match m.openSblk g stream with
    | none => m
    | some x =>
      if stop x.next then m else
        match m.place g stream { loc := ⟨0, 0, 0, 0⟩, kind := 6, space := 0, bmask := 0, lmu := 0, seq := 0, dseq := 0,
                                 data := [], prog := .issued } with
        | none => m
        | some (_, m) => Media.fillWhile stop fuel m g stream

/-- Is a slot the first that takes data in a row of `w` pages of the superblock (a parity slot before it is passed over)? -/
def slotRow (w slot : Nat) : Bool :=
  let p := slot / 16
  p % w == 0 && (slot % 16 == 0 || (slot % 16 == 1 && parityMember p == 0))

/-- R480: open word lines of a stream's superblock completed with filler. -/
def Media.fillWl (m : Media) (g stream : Nat) : Media :=
  let w := max 1 m.geom.pagesPerWl
  m.fillWhile (slotRow w) (16 * w) g stream

/-! ### Trims, resolution and mount (R493, R499) -/

/-- Does a trim record newer than a page's data cover its unit? -/
def Media.trimmed (m : Media) (space lmu dseq : Nat) : Bool :=
  m.trims.any fun t => t.space == space && t.first ≤ lmu && lmu < t.first + t.count && dseq < t.seq

/-- R499: of two pages of a unit, the one mount keeps. -/
def newerPage (a b : Page) : Page := if a.dseq < b.dseq || (a.dseq == b.dseq && a.seq < b.seq) then b else a

/-- R499: the page mount keeps for a unit: highest DSEQ, then highest SEQ; none when a newer trim covers it. -/
def Media.resolve (m : Media) (space lmu : Nat) (ok : Page → Bool) : Option Page :=
  let cands := m.pages.filter fun p => p.isData && p.prog != .failed && p.space == space && p.lmu == lmu && ok p
  match cands with
  | [] => none
  | c :: cs => let best := cs.foldl newerPage c
    if m.trimmed space lmu best.dseq then none else some best

/-- The units that any written page belongs to. -/
def Media.unitsWritten (m : Media) : List (Nat × Nat) :=
  ((m.pages.filter fun p => p.isData && p.prog != .failed).map fun p => (p.space, p.lmu)).eraseDups

/-- R498 steps 2 and 3, R499: both maps built from the pages that `ok` admits, trims left aside until step 4. -/
def Media.buildMap (m : Media) (ok : Page → Bool) (trims : Bool) : Media :=
  let w : Media := if trims then m else { m with trims := [] }
  { m with map := (m.unitsWritten.filterMap fun u =>
      if m.isLost u.1 u.2 then none else (w.resolve u.1 u.2 ok).map fun p => (u.1, u.2, p.loc)) }

/-- A page whose program failed or was interrupted: what lies in its place fails its checks and nothing reads it. -/
def Page.dead (p : Page) : Page :=
  { p with kind := 6, space := 0, bmask := 0, lmu := 0, data := [], xtag := [], prog := .failed, source := none, failures := 0 }

/-- R502, R467: power is lost: pages under way and every page of their word lines fail, a lost unit rewritten whole by such a page is lost
again, and WP_N is low. -/
def Media.cutShort (m : Media) : Media :=
  let hit := (m.pages.filter fun p => p.prog == .issued).map (·.loc)
  let isHit (p : Page) : Bool := hit.any fun l => m.sameWl l p.loc
  let again := (m.pages.filter fun p => p.isData && p.wasLost && isHit p && !m.isLost p.space p.lmu).map fun p => (p.space, p.lmu)
  { m with pages := updWhere isHit Page.dead (m.pages.filter fun p => !(p.kind == 4 && isHit p)), lost := m.lost ++ again.eraseDups,
           wpN := false }

/-- Every program under way reports success, as a mount or a format that ends has waited for them. -/
def Media.finishPrograms : Nat → Media → Media
  | 0, m => m
  | n + 1, m => match m.pages.find? fun p => p.prog == .issued with
    | none => m
    | some p => Media.finishPrograms n (m.report p.loc)

/-- R498 step 5: open stripes completed with filler and parity. -/
def Media.mountLast (m : Media) : Media :=
  let opens := m.sblks.filterMap fun x => match x.use with | .opened t => some (x.g, t) | _ => none
  let m := opens.foldl (fun (m : Media) (o : Nat × Nat) => m.fillWhile (slotRow 1) 16 o.1 o.2) m
  let stripes := (m.pages.map fun p => ({ p.loc with m := 0 } : Loc)).eraseDups
  let m := stripes.foldl Media.closeStripe m
  m.finishPrograms (2 * m.pages.length + 64)

/-- Open word lines filled and every program ended, so that all that is under way takes effect. -/
def Media.drain (m : Media) : Media :=
  let opens := m.sblks.filterMap fun x => match x.use with | .opened t => some (x.g, t) | _ => none
  let m := opens.foldl (fun (m : Media) (o : Nat × Nat) => m.fillWl o.1 o.2) m
  m.finishPrograms (2 * m.pages.length + 64)

/-- R498 step 2: does a page lie in a segment whose summary page holds? -/
def Media.summarized (m : Media) (p : Page) : Bool :=
  m.pages.any fun x => x.kind == 3 && x.prog != .failed && x.loc == ⟨p.loc.g, p.loc.k, p.loc.m, p.loc.p / 512 * 512 + 511⟩

/-- R493: a trim record over count units from first, and the map entries set to deallocated; none when the metadata space has no room for
the record. -/
def Media.trim (m : Media) (space first count : Nat) : Option (List Nat × Media) :=
  let seq := m.seq
  let inside (u : Nat × Nat) : Bool := u.1 == space && first ≤ u.2 && u.2 < first + count
  match m.record (leBytes 5 first ++ leBytes 3 count ++ leBytes 8 seq) (.trim seq) with
  | none => none
  | some (qs, m) =>
    some (qs, { m with trims := m.trims ++ [{ space := space, first := first, count := count, seq := seq, lost := m.lost.filter inside }],
                       map := m.map.filter (fun e => !inside (e.1, e.2.1)),
                       lost := m.lost.filter fun u => !inside u })

/-- R507, R510: trim records that did not take effect are gone; what they covered is lost again where it was and nothing newer was
written. -/
def Media.dropTrims (m : Media) (gone : Trim → Bool) : Media :=
  let back := (m.trims.filter gone).flatMap fun t => t.lost.filter fun u =>
    !(m.pages.any fun p => p.isData && p.prog != .failed && p.space == u.1 && p.lmu == u.2 && t.seq < p.seq)
  { m with trims := m.trims.filter fun t => !gone t, lost := m.lost ++ back.filter fun u => !m.lost.contains u }

/-- R494: a trim record is kept until every superblock programmed before its SEQ has an erase-done record. -/
def Media.pruneTrims (m : Media) : Media :=
  { m with trims := m.trims.filter fun t =>
      !t.durable || m.pages.any (fun p => p.seq < t.seq) ||
      m.sblks.any fun x => match x.firstSeq with | some q => q < t.seq | none => false }

/-- R494: how long trim records are, 16 bytes each; 12 GiB of the metadata space is their limit. -/
def Media.trimsFull (m : Media) : Bool := 12884901888 ≤ m.trims.length * 16

/-- R493: DEALLOCATE of host blocks: whole units trimmed, partly covered units rewritten with the covered blocks' bits
clear. Answers the programs to await. -/
def Media.deallocate (m : Media) (slba nlb : Nat) : Option (List Nat × Media) :=
  let units := coverUnits slba nlb
  let full := (units.filter fun u => u.2 == 15).map (·.1)
  (units.filter fun u => u.2 != 15).foldl (fun acc u => match acc with
      | none => none
      | some (qs, m) =>
        let old := m.unitMask 0 u.1
        let mask := old &&& (15 ^^^ u.2)
        if (m.entry 0 u.1).isNone then some (qs, m)
        else match m.writeUnit u.1 mask (maskUnit mask (m.unit 0 u.1)) with
          | none => none
          | some (q, m) => some (qs ++ [q], m)) (if full.isEmpty then some ([], m) else m.trim 0 (full.headD 0) full.length)

/-- R336: what a sink's unsealed shards held is deallocated at mount. -/
def Media.dropUnsealed (m : Media) : Media :=
  { m.discard.foldl (fun (m : Media) r => if r.2 == 0 then m else match m.deallocate r.1 r.2 with | some (_, m) => m | none => m) m with
    discard := [] }

/-! ### Capacity (R477, R514, R774) -/

/-- A: data-page bytes of superblocks not retired in groups that accept writes. -/
def Media.usable (m : Media) : Nat :=
  ((m.sblks.filter fun x => x.use != .retired && ((m.group x.g).map (·.accepts)).getD false).length) * m.sblkBytes

/-- R: 2 superblocks per such group. -/
def Media.reserveBytes (m : Media) : Nat := 2 * (m.groups.filter (·.accepts)).length * m.sblkBytes

/-- V of the host space: every valid map unit at 16 KiB; buffered writes are valid units whose programs are under way. -/
def Media.validBytes (m : Media) : Nat := m.map.length * unitBytes

/-- Bytes of the media write buffer (R481): host units whose programs are not whole. -/
def Media.bufferedBytes (m : Media) : Nat :=
  (m.pages.filter fun p => p.kind == 1 && p.prog != .whole).length * unitBytes

/-- Does some LUN still hold a reserve block (R514)? -/
def Media.anyReserve (m : Media) : Bool := m.luns.any fun l => !l.reserve.isEmpty

/-- Fresh units a host range needs. -/
def Media.freshUnits (m : Media) (slba nlb : Nat) : Nat :=
  ((coverUnits slba nlb).filter fun u => (m.entry 0 u.1).isNone).length

/-- R529 0x5000 MediaState: 0 and 1 are told apart by the groups. -/
def Media.stateCode (m : Media) : Nat :=
  if m.state == 0 || m.state == 1 then (if m.groups.any fun g => !g.failed.isEmpty || g.rebuilding.isSome then 1 else 0)
  else m.state

/-- Is the media mounted and answering media commands (R466, R694)? -/
def Media.mounted (m : Media) : Bool := m.stateCode ≤ 2

/-! ### Format (R468, R469, R477, R527) -/

/-- The erases a superblock's blocks had before a format: those of the superblock that its first member served. -/
def Media.erasesAt (m : Media) (lun : Nat × Nat) (k : Nat) : Nat :=
  match m.groups.find? fun g => g.members.contains lun with
  | some g => match m.sblk g.g k with | some x => x.erases | none => 0
  | none => 0

/-- R527: the formatted media of a geometry, with Overprovision `op` and `s` spare LUNs per channel: every block of every LUN is
erased, the factory marks are read, and each LUN keeps its highest-numbered good blocks in reserve (R469). -/
def Media.format (m : Media) (op s : Nat) : Media :=
  let g := m.geom
  let pos := geomPositions g - s
  let halves := g.channels.length / 16
  let luns := g.channels.flatMap fun ch => (List.range (geomPositions g)).map fun p =>
    let good := geomGood g ch p
    ({ ch := ch, pos := p, spare := pos ≤ p, reserve := good.drop (good.length - reserveOf good.length) } : Lun)
  let groups := (List.range halves).flatMap fun h => (List.range pos).map fun q =>
    ({ g := q + pos * h, members := (List.range 16).map fun i => (16 * h + i, q) } : Group)
  let sblks := groups.flatMap fun gr =>
    let counts := gr.members.map fun x => let n := (geomGood g x.1 x.2).length; n - reserveOf n
    (List.range (counts.foldl min (counts.headD 0))).map fun k =>
      ({ g := gr.g, k := k, erases := m.erasesAt (gr.members.headD (0, 0)) k + 1 } : Sblk)
  let d := sblks.length * m.sblkBytes - metaSpace
  { geom := g, state := 0, formatted := true, formatting := false, luns := luns, groups := groups, sblks := sblks,
    capacity := d * 1000 / (1000 + op) / 16384 * 4, lastMount := m.lastMount, mountBegan := m.mountBegan,
    frozen := m.frozen, iface := m.iface, bus := m.bus }

/-! ### Lost units and page 0x50 (R487, R523, R525) -/

/-- A page 0x50 entry. -/
def lostEntry (cause g lunA lunB slba nlb eseq : Nat) : Bytes :=
  [0x01, byteOf cause, byteOf g, 0] ++ leBytes 4 (lunA + lunB * 4096) ++ leBytes 8 slba ++ leBytes 4 nlb ++ zeros 4 ++ leBytes 8 eseq

/-- R525: an entry joined to an adjacent one with equal CAUSE and LUNs, else added; the log holds 65,536. -/
def addLost (log : List Bytes) (e : Bytes) : List Bytes × Bool :=
  let key (x : Bytes) : Bytes := slice x 0 8
  match log.find? fun x => key x == key e && field x 8 8 + field x 16 4 == field e 8 8 with
  | some x =>
    (updWhere (fun y => y == x) (fun y => overlay y 16 (leBytes 4 (field x 16 4 + field e 16 4))) log, false)
  | none => match log.find? fun x => key x == key e && field e 8 8 + field e 16 4 == field x 8 8 with
    | some x =>
      (updWhere (fun y => y == x) (fun y => overlay (overlay y 8 (slice e 8 8)) 16 (leBytes 4 (field x 16 4 + field e 16 4))) log, false)
    | none => if log.length < 65536 then (log ++ [e], false) else (log, true)

/-- A map unit becomes lost: its entry says so, and a host unit's range enters page 0x50. -/
def Media.lose (m : Media) (cause g lunA lunB space lmu : Nat) : Media :=
  if m.isLost space lmu then m else
    let m := (m.setEntry space lmu none)
    let m := { m with lost := m.lost ++ [(space, lmu)], lostUnits := m.lostUnits + 1 }
    if space == 0 then
      let (log, ovf) := addLost m.lostLog (lostEntry cause g lunA lunB (4 * lmu) 4 m.seq)
      { m with lostLog := log, lostOvf := m.lostOvf || ovf }
    else m

/-- R526: entries of page 0x50 whose blocks are all valid or deallocated again leave it. -/
def Media.pruneLost (m : Media) : Media :=
  { m with lostLog := m.lostLog.filter fun e =>
      m.lost.any fun u => u.1 == 0 && field e 8 8 < 4 * u.2 + 4 && 4 * u.2 < field e 8 8 + field e 16 4 }

/-! ### Relocation and erase (R488 to R495, R524) -/

/-- Valid pages of a superblock: those a map entry names. -/
def Media.validIn (m : Media) (g k : Nat) : List (Nat × Nat × Loc) := m.map.filter fun e => e.2.2.g == g && e.2.2.k == k

/-- R489: every valid page of a superblock copied: a relocated-data page with the DSEQ of its source, in the group itself
or, when it takes no writes, in another (R522). -/
def Media.copyOut (m : Media) (g k : Nat) : Media :=
  let here := ((m.group g).map (·.accepts)).getD false
  (m.validIn g k).foldl (fun m e =>
    match m.pageAt e.2.2 with
    | none => m
    | some p =>
      if m.pages.any (fun x => x.source == some e.2.2 && x.prog != ProgState.whole) then m else
        match m.placeIn 1 { p with kind := 2, source := some p.loc, failures := 0 } (if here then [g] else m.accepting 0) with
        | some (_, m) => m
        | none => m) m

/-- Does the stripe of a place carry its parity (R490)? -/
def Media.hasParity (m : Media) (l : Loc) : Bool :=
  isSummary l.p || match m.pageAt { l with m := parityMember l.p } with
    | some p => p.kind == 4 && (p.prog == .reported || p.prog == .whole)
    | none => false

/-- R478: could a loss of power make this page the content of its map unit? It could while no newer page of the unit counts as
programmed and no newer trim is durable. -/
def Media.needed (m : Media) (p : Page) : Bool :=
  p.isData && p.prog != .failed &&
  !(m.pages.any fun x => x.isData && x.prog == .whole && x.space == p.space && x.lmu == p.lmu &&
      (p.dseq < x.dseq || (p.dseq == x.dseq && p.seq < x.seq))) &&
  !(m.trims.any fun t => t.durable && t.space == p.space && t.first ≤ p.lmu && p.lmu < t.first + t.count && p.dseq < t.seq)

/-- R490: a superblock chosen for relocation that holds no valid page, whose copies' stripes all carry parity, and which no map
unit could still fall back to, gets its erase-intent record. -/
def Media.intend (m : Media) : Media :=
  (m.sblks.filter fun x =>
      x.moving && !x.intent && (m.validIn x.g x.k).isEmpty &&
      (m.pages.all fun p => !(p.loc.g == x.g && p.loc.k == x.k) || !m.needed p) &&
      (m.pages.all fun p => match p.source with
          | some l => !(l.g == x.g && l.k == x.k) || m.hasParity p.loc
          | none => true)).foldl (fun (m : Media) x =>
    match m.record (leBytes 1 x.g ++ leBytes 3 x.k) (.intent x.g x.k) with
    | some (_, m) => m.modSblk x.g x.k fun y => { y with intent := true }
    | none => m) m

/-- R488, R492, R494, R516, R522, R524: the superblock of group g that relocation takes next and why (0 urgent, 1 for room, 2 evacuation). -/
def Media.pickRelocate (m : Media) (g : Nat) : Option (Nat × Sblk) :=
  let mine := m.sblks.filter fun x => x.g == g && !x.moving && x.use != .retired
  let full := mine.filter fun x => x.use == .full
  let urgent := mine.filter fun x => x.use != .free && m.urgent.contains (g, x.k)
  let least (key : Sblk → Nat) (l : List Sblk) : Option Sblk :=
    l.foldl (fun a x => match a with | none => some x | some y => if key x < key y then some x else some y) none
  let fewest := least (fun x => (m.validIn g x.k).length * 4294967296 + x.erases) full
  match urgent with
  | x :: _ => some (0, x)
  | [] =>
    let evac := !((m.group g).map (·.accepts)).getD true
    let spread := (mine.map (·.erases)).foldl max 0 - (mine.map (·.erases)).foldl min ((mine.map (·.erases)).headD 0)
    let coldest := match least (fun x => x.erases) mine with | some (x : Sblk) => if x.use == SblkUse.full then some x else none | none => none
    if m.stateCode == 2 then none
    else if m.trimsFull then
      (least (fun x => ((m.pages.filter fun p => p.loc.g == g && p.loc.k == x.k).map (·.seq)).foldl max 0) full).map fun x => (1, x)
    else if evac then fewest.map fun x => (2, x)
    else if (m.freeSblks g).length < 4 then fewest.map fun x => (1, x)
    else if 512 < spread then coldest.map fun x => (1, x)
    else none

/-- R490, R492: the erase-done record stands: the superblock is free, or retired with its good blocks back in the reserves. -/
def Media.eraseDone (m : Media) (g k : Nat) : Media :=
  match m.sblk g k with
  | none => m
  | some x =>
    let m := if x.dying.isEmpty then m else
      ((List.range 16).filter fun i => !x.dying.contains i).foldl (fun (m : Media) i =>
        let lun := m.lunOf ⟨g, k, i, 0⟩
        m.modLun lun.1 lun.2 fun l =>
          let b := m.blockOf ⟨g, k, i, 0⟩
          { l with reserve := (l.reserve.filter (· < b)) ++ b :: l.reserve.filter (b < ·) }) m
    (m.modSblk g k fun x => { x with use := if x.dying.isEmpty then .free else .retired, intent := false, erasedOnce := false,
                                     firstSeq := none, moving := false }).pruneTrims

/-- What a record does when it stands. -/
def Media.applyRecord (m : Media) : MetaRec → Media
  | .trim q => { m with trims := updWhere (fun t => t.seq == q) (fun t => { t with durable := true }) m.trims }
  | .intent _ _ => m
  | .done g k => m.eraseDone g k
  | .patrol g k => { m with patrolSaved := (g, k) }
  | .rebuild g n => m.modGroup g fun x => { x with recorded := n }
  | .readonly => { m with readonly := true }

/-- R510: records whose programs all count as programmed take effect. -/
def Media.settleRecords (m : Media) : Media :=
  (m.records.filter m.recordDone).foldl (fun (m : Media) r => m.applyRecord r.2) { m with records := m.records.filter fun r => !m.recordDone r }

/-- R490: the blocks of a superblock are erased, its pages are gone, and the erase-done record is written. -/
def Media.erased (m : Media) (g k : Nat) : Media :=
  let blocks := (List.range 16).map fun i => let x := m.lunOf ⟨g, k, i, 0⟩; (x.1, x.2, NandOp.blockErase (m.blockOf ⟨g, k, i, 0⟩))
  let seqs := (m.pages.filter fun p => p.loc.g == g && p.loc.k == k).map (·.seq)
  let m := { m with pages := m.pages.filter (fun p => !(p.loc.g == g && p.loc.k == k)), bus := blocks.reverse ++ m.bus,
                    urgent := m.urgent.filter fun u => u != (g, k) }
  let m := m.modSblk g k fun x => { x with erases := x.erases + 1, next := 0, erasedOnce := true,
                                           firstSeq := match seqs with | [] => x.firstSeq | q :: qs => some (qs.foldl min q),
                                           swapped := (x.swapped.filter fun y => !x.swaps.any fun z => z.1 == y.1) ++ x.swaps,
                                           swaps := [] }
  match m.record (leBytes 1 g ++ leBytes 3 k) (.done g k) with
  | some (_, m) => m
  | none => m.eraseDone g k

/-- R492: the block of a member of a superblock is retired: a replacement comes from its LUN's reserve, in use from the
superblock's next erase, or the whole superblock goes after relocation. -/
def Media.retireBlock (m : Media) (g k mem : Nat) : Media :=
  let place := m.lunOf ⟨g, k, mem, 0⟩
  let reserve := match m.luns.find? fun l => l.ch == place.1 && l.pos == place.2 with | some l => l.reserve | none => []
  let shut (x : Sblk) : Sblk :=
    { x with moving := true, use := if x.use == .free then .full else match x.use with | .opened _ => .full | u => u }
  match reserve with
  | b :: rest =>
    (m.modLun place.1 place.2 fun l => { l with reserve := rest }).modSblk g k fun x =>
      { shut x with swaps := (x.swaps.filter fun y => y.1 != mem) ++ [(mem, b)] }
  | [] => m.modSblk g k fun x => { shut x with dying := if x.dying.contains mem then x.dying else x.dying ++ [mem] }

/-! ### LUN failure and rebuild (R519 to R524) -/

/-- The group and member a LUN serves. -/
def Media.memberOf (m : Media) (ch pos : Nat) : Option (Nat × Nat) :=
  m.groups.findSome? fun g => (g.members.findIdx? fun x => x == (ch, pos)).map fun i => (g.g, i)

/-- R520: the spare taken for a failed LUN. -/
def Media.pickSpare (m : Media) (ch : Nat) : Option Lun :=
  let free := m.luns.filter fun l => l.spare && !l.failed
  match free.filter fun l => l.ch == ch with
  | l :: _ => some l
  | [] => (free.filter fun l => l.ch / 16 != ch / 16).head?

/-- R521: the stripes of a group's superblocks that hold programmed pages, in order. -/
def Media.stripes (m : Media) (g : Nat) : List (Nat × Nat) :=
  (m.sblks.filter fun x => x.g == g).flatMap fun x =>
    let ps := (m.pages.filter fun p => p.loc.g == g && p.loc.k == x.k).map (·.loc.p)
    ((List.range m.geom.pagesPerBlock).filter fun p => ps.contains p).map fun p => (x.k, p)

/-- Members of a group that failed and have a spare in place: the first of them is the one under rebuild. -/
def Media.nextRebuild (m : Media) (g : Nat) : Option Nat :=
  match m.group g with
  | none => none
  | some gr => gr.failed.find? fun i =>
      let at_ := gr.members.getD i (0, 0)
      m.luns.any fun l => l.ch == at_.1 && l.pos == at_.2 && !l.failed

/-- R525: the unit id of the LUN that failed as a member of a group; of the member's LUN when it has not failed. -/
def Media.failedUnit (m : Media) (gr : Group) (i : Nat) : Nat :=
  match gr.was.find? fun y => y.1 == i with
  | some y => geomLunUnit m.geom y.2.1 y.2.2
  | none => let x := gr.members.getD i (0, 0); geomLunUnit m.geom x.1 x.2

/-- R523, R524: units on either of two failed members, in the stripes that the rebuild of the first has not reached, are lost; the
superblocks that hold them are relocated first. -/
def Media.loseTwo (m : Media) (gr : Group) (first mem unitB : Nat) : Media :=
  let left := (m.stripes gr.g).drop (if gr.rebuilding == some first then gr.rebuilt else 0)
  let hit := m.map.filter fun (e : Nat × Nat × Loc) =>
    e.2.2.g == gr.g && (e.2.2.m == mem || e.2.2.m == first) && left.contains (e.2.2.k, e.2.2.p)
  let m := hit.foldl (fun (m : Media) (e : Nat × Nat × Loc) => m.lose 1 gr.g (m.failedUnit gr first) unitB e.1 e.2.1) m
  { m with urgent := m.urgent ++ ((left.map fun (x : Nat × Nat) => (gr.g, x.1)).eraseDups.filter fun u => !m.urgent.contains u) }

/-- R519, R520, R522, R523: a LUN fails: units whose stripe lost two members are lost, and a spare takes its place and is rebuilt, or the
group stops taking writes. -/
def Media.failLun (m : Media) (ch pos : Nat) : Media :=
  if m.luns.any (fun l => l.ch == ch && l.pos == pos && l.failed) then m else
    let m := m.modLun ch pos fun l => { l with failed := true }
    match m.memberOf ch pos with
    | none => m
    | some (g, mem) =>
      let gr := (m.group g).getD { g := g, members := [] }
      let m := (gr.failed.filter fun i => i != mem).foldl (fun (m : Media) i => m.loseTwo gr i mem (geomLunUnit m.geom ch pos)) m
      let busy := gr.rebuilding.isSome && gr.rebuilding != some mem
      let m := m.modGroup g fun x => { x with failed := x.failed.erase mem ++ [mem],
                                              was := (x.was.filter fun y => y.1 != mem) ++ [(mem, ch, pos)] }
      match m.pickSpare ch with
      | none => m.modGroup g fun x =>
          { x with accepts := false, rebuilding := if busy then x.rebuilding else none, rebuilt := if busy then x.rebuilt else 0,
                   recorded := if busy then x.recorded else 0 }
      | some sp =>
        let m := m.modLun sp.ch sp.pos fun l => { l with spare := false }
        m.modGroup g fun x => { x with members := x.members.set mem (sp.ch, sp.pos),
                                       rebuilding := if busy then x.rebuilding else some mem,
                                       rebuilt := if busy then x.rebuilt else 0,
                                       recorded := if busy then x.recorded else 0 }

end Sys2Proof.Machine
end

