-- ==== Sys2Proof/Machine/DatasetOps.lean ====
section
/-!
DEFINITION. Datasets ("Shards, records and sample identifiers"): manifests, registration, records and array shards as they
read back from the media (R40 to R78).
-/
namespace Sys2Proof.Machine

/-! ### Manifests (R59) -/

/-- Dataset kind. -/
def manKind (m : Bytes) : Nat := field m 5 1
/-- FCOUNT. -/
def manFcount (m : Bytes) : Nat := field m 6 1
/-- DSET. -/
def manDset (m : Bytes) : Nat := field m 8 2
/-- SCOUNT. -/
def manScount (m : Bytes) : Nat := field m 12 4
/-- NREC. -/
def manNrec (m : Bytes) : Nat := field m 16 8
/-- GEN. -/
def manGen (m : Bytes) : Nat := field m 24 8
/-- Field descriptor i. -/
def manField (m : Bytes) (i : Nat) : Bytes := slice m (64 + 32 * i) 32
/-- Offset of the entry of the i-th listed shard. -/
def manEntryOff (m : Bytes) (i : Nat) : Nat := 64 + 32 * manFcount m + 32 * i
/-- The entry of the i-th listed shard. -/
def manEntry (m : Bytes) (i : Nat) : Bytes := slice m (manEntryOff m i) 32
/-- Shard number of the i-th listed shard. -/
def manShard (m : Bytes) (i : Nat) : Nat := field (manEntry m i) 0 3
/-- Record or granule count of the i-th listed shard. -/
def manCount (m : Bytes) (i : Nat) : Nat := field (manEntry m i) 4 4
/-- SLEN of the i-th listed shard. -/
def manSlen (m : Bytes) (i : Nat) : Nat := field (manEntry m i) 8 8
/-- R74: V of a graph manifest. -/
def manV (m : Bytes) : Nat := field m 32 8
/-- R74: E of a graph manifest. -/
def manE (m : Bytes) : Nat := field m 40 8
/-- R77: rows of a tensor manifest. -/
def manRows (m : Bytes) : Nat := field m 32 8
/-- R77: D of a tensor manifest, 1 to 65,536: its 16 bits hold 65,536 as 0. -/
def manD (m : Bytes) : Nat := let d := field m 40 2; if d == 0 then 65536 else d
/-- R77: element type of a tensor manifest. -/
def manEtype (m : Bytes) : Nat := field m 42 1

/-- R63: logical blocks of a shard. -/
def shardBlocks (slen : Nat) : Nat := ceilDiv slen 4096

/-- R42: P(i), the records before the i-th listed shard. -/
def manPrefix (m : Bytes) (i : Nat) : Nat := ((List.range i).map (manCount m)).sum

/-- R42: the listed shard and record index of an ordinal, from shard i up. -/
def ordinalFrom (m : Bytes) : Nat → Nat → Nat → Nat × Nat
  | 0, i, g => (i, g)
  | fuel + 1, i, g => if g < manCount m i then (i, g) else ordinalFrom m fuel (i + 1) (g - manCount m i)

/-- R42: the listed shard and record index an ordinal names. -/
def ordinalRecord (m : Bytes) (g : Nat) : Nat × Nat := ordinalFrom m (manScount m) 0 g

/-- A sample identifier: dataset, shard, record index. -/
def sampleId (dset shard rec : Nat) : Nat := dset * 2 ^ 48 + shard * 2 ^ 24 + rec

/-- R42: the sample identifier of an ordinal. -/
def ordinalSid (m : Bytes) (g : Nat) : Nat :=
  let (i, r) := ordinalRecord m g
  sampleId (manDset m) (manShard m i) r

/-- The index in the manifest of a shard number. -/
def shardIndex (m : Bytes) (shard : Nat) : Option Nat := (List.range (manScount m)).find? fun i => manShard m i == shard

/-- R105: first ordinal and number of ordinals of the shard set of the i-th listed shard. -/
def shardSet (m : Bytes) (i : Nat) : Nat × Nat :=
  let s := i / 64
  let g0 := manPrefix m (64 * s)
  (g0, manPrefix m (min (manScount m) (64 * s + 64)) - g0)

/-! ### Reading the media -/

/-- `len` bytes of a shard from byte `off`; none when a lost map unit is touched (R487). -/
def Media.shard (m : Media) (slba off len : Nat) : Option Bytes :=
  if m.lostIn (4096 * slba + off) len then none else some (m.readBytes (4096 * slba + off) len)

/-! ### Registration (R61 to R67) -/

/-- The rollout schema of R79: name, type. -/
def rolloutSchema : List (Bytes × Nat) :=
  [([0x70, 0x72, 0x6F, 0x6D, 0x70, 0x74, 0x5F, 0x69, 0x64], 0x04),        -- prompt_id
   ([0x73, 0x74, 0x72, 0x65, 0x61, 0x6D], 0x03),                          -- stream
   ([0x76, 0x65, 0x72, 0x64, 0x69, 0x63, 0x74], 0x01),                    -- verdict
   ([0x73, 0x74, 0x6F, 0x70, 0x5F, 0x69, 0x6E, 0x64, 0x65, 0x78], 0x01),  -- stop_index
   ([0x73, 0x74, 0x6F, 0x70, 0x5F, 0x6F, 0x66, 0x66, 0x73, 0x65, 0x74], 0x03), -- stop_offset
   ([0x74, 0x6F, 0x6B, 0x65, 0x6E, 0x73], 0x12),                          -- tokens
   ([0x74, 0x65, 0x78, 0x74], 0x11)]                                      -- text

/-- R79: the field descriptors of a rollout dataset; R79 gives names and types, NULLABLE 0 and MAXLEN 0 are the model's (DESIGN CHOICE, log 131). -/
def rolloutFields : Bytes := rolloutSchema.flatMap fun f => fitTo 16 f.1 ++ [byteOf f.2] ++ zeros 15

/-- R48: what two descriptors of a field must share: everything but RSVD bits. -/
def fieldKey (d : Bytes) : Bytes × Nat × Nat := (slice d 0 19, field d 19 1 % 2, field d 20 4)

/-- R48: the byte offset within a field descriptor of its first value out of range. -/
def fieldBad (d : Bytes) : Option Nat :=
  let t := field d 16 1
  let sub := field d 17 1
  if !(within 1 0x0E t || within 0x10 0x13 t) then some 16
  else if !(if t == 0x10 then sub ≤ 5 else if t == 0x13 then within 1 0x0E sub else sub == 0) then some 17
  else if (if t == 0x13 then 4 else 0) < field d 18 1 then some 18
  else none

/-- R772: a failed registration: step, status, shard, FOFF, WHERE, and the offset in the command's data (step 1). -/
structure RegFail where
  step : Nat
  status : Nat
  shard : Nat := 0xFFFFFF
  foff : Nat := 0xFFFFFFFF
  place : Nat := 1
  off : Nat := 0
  deriving DecidableEq, Repr, Inhabited

/-- The first failure of a list of checks. -/
def firstFail (l : List (Option RegFail)) : Option RegFail := l.findSome? id

/-- A check of step 1: the failing byte of the command's data, and the structure it lies in. -/
def need1 (ok : Bool) (mlen off : Nat) (shard : Nat := 0xFFFFFF) : Option RegFail :=
  if ok then none else some
    { step := 1, status := 0x02, shard := shard, off := off,
      place := if off < 64 then 0 else if off < 64 + mlen then 1 else 2,
      foff := if off < 64 then off else if off < 64 + mlen then off - 64 else (off - 64 - mlen) % 16 }

/-- Do two block ranges overlap? -/
def overlaps (a n b k : Nat) : Bool := a < b + k && b < a + n

/-- Extents of a dataset's shards: (first block, blocks). -/
def Dataset.extents (d : Dataset) : List (Nat × Nat) :=
  d.place.zipIdx.map fun (p, i) => (p.2, shardBlocks (manSlen d.manifest i))

/-- R70, R73, R78: type and elements of the i-th array shard of a graph or tensor manifest. -/
def arrayShape (m : Bytes) (i : Nat) : Nat × Nat :=
  if manKind m == 2 then (if i == 0 then (0x04, manV m + 1) else (0x03, manE m))
  else (manEtype m, manD m * min (2 ^ 24) (manRows m - i * 2 ^ 24))

/-- Granules of an array shard. -/
def arrayGranules (m : Bytes) (i : Nat) : Nat := let (t, n) := arrayShape m i; ceilDiv (n * typeSize t) 4096

/-- R64 step 1, the manifest's own fields. NAME of the dataset is not checked, those of fields for uniqueness only (DESIGN CHOICE, log 131). -/
def manifestFail (man : Bytes) : Option RegFail :=
  let mlen := man.length
  let kind := manKind man
  let fc := manFcount man
  let sc := manScount man
  let rec_ := kind == 1 || kind == 4
  firstFail [
    need1 (field man 4 1 == 1) mlen 68,
    need1 (field man 0 4 == 0xC4A5D337) mlen 64,
    need1 (within 1 4 kind) mlen 69,
    need1 (match kind with | 1 => within 1 32 fc | 4 => fc == 7 | _ => fc == 0) mlen 70,
    need1 (within 1 (2 ^ 24) sc) mlen 76,
    need1 (mlen == 64 + 32 * fc + 32 * sc) mlen 48,
    need1 (kind == 4 || manGen man == 0) mlen 88,
    ((List.range fc).find? fun i => (fieldBad (manField man i)).isSome ||
        (List.range i).any fun j => slice (manField man j) 0 16 == slice (manField man i) 0 16 ||
        (kind == 4 && fieldKey (manField man i) != fieldKey (slice rolloutFields (32 * i) 32))).bind fun i =>
      need1 false mlen (128 + 32 * i + (fieldBad (manField man i)).getD 0),
    ((List.range sc).find? fun i => 0 < i && manShard man i ≤ manShard man (i - 1)).bind fun i =>
      need1 false mlen (64 + manEntryOff man i) (manShard man i),
    if rec_ then
      (((List.range sc).find? fun i => !within 1 (2 ^ 24) (manCount man i)).bind fun i =>
        need1 false mlen (64 + manEntryOff man i + 4) (manShard man i))
    else none,
    need1 (if rec_ then manNrec man == manPrefix man sc && within 1 (2 ^ 48) (manNrec man) else manNrec man == 0) mlen 80,
    need1 (!rec_ || (slice man 32 32).all fun b => b == 0) mlen 96,
    if rec_ then none else firstFail [
      (((List.range sc).find? fun i => field (manEntry man i) 20 4 != 0).bind fun i =>
        need1 false mlen (64 + manEntryOff man i + 20) (manShard man i)),
      if kind == 2 then firstFail [
        need1 (within 1 (2 ^ 32 - 1) (manV man)) mlen 96,
        need1 (within 1 (2 ^ 40) (manE man)) mlen 104,
        need1 (sc == 2 && manShard man 0 == 0 && manShard man 1 == 1) mlen 76]
      else firstFail [
        need1 (within 1 (2 ^ 32) (manRows man)) mlen 96,
        need1 (within 1 0x0E (manEtype man)) mlen 106,
        need1 (sc == ceilDiv (manRows man) (2 ^ 24) && (List.range sc).all fun i => manShard man i == i) mlen 76],
      (((List.range sc).find? fun i => manCount man i != arrayGranules man i).bind fun i =>
        need1 false mlen (64 + manEntryOff man i + 4) (manShard man i))]]

/-- R63, R64 step 1, the placement; `taken` are the extents of registered datasets. SLEN below 4,096 has no extent and is refused at the
entry's starting block (DESIGN CHOICE, log 131). -/
def placementFail (man data : Bytes) (taken : List (Nat × Nat)) (capacity : Nat) : Option RegFail :=
  let mlen := man.length
  let base := 64 + mlen
  let ext (i : Nat) : Nat × Nat := (field data (base + 16 * i + 8) 8, shardBlocks (manSlen man i))
  ((List.range (manScount man)).findSome? fun i =>
    let num := manShard man i
    let e := ext i
    firstFail [
      need1 (field data (base + 16 * i) 3 == num) mlen (base + 16 * i) num,
      need1 (4096 ≤ manSlen man i && e.1 + e.2 ≤ capacity &&
             !(taken.any fun t => overlaps e.1 e.2 t.1 t.2) &&
             !((List.range i).any fun j => overlaps e.1 e.2 (ext j).1 (ext j).2)) mlen (base + 16 * i + 8) num])

/-- R64 step 1: the registration's data; `used` says whether the dataset number is registered. Data of another length than the manifest
and placements name data offset 48, the manifest length (DESIGN CHOICE, log 131). -/
def structureFail (data : Bytes) (used : Nat → Bool) (taken : List (Nat × Nat)) (capacity : Nat) : Option RegFail :=
  let mlen := field data 48 4
  let man := slice data 64 mlen
  if data.length < 128 || mlen < 64 || data.length < 64 + mlen then need1 false mlen 48
  else
    match firstFail [need1 (field man 4 1 == 1) mlen 68, need1 (manDset man != 0 && !used (manDset man)) mlen 72] with
    | some f => some f
    | none => match manifestFail man with
      | some f => some f
      | none =>
        if data.length != 64 + mlen + 16 * manScount man then need1 false mlen 48
        else placementFail man data taken capacity

/-- A check of step 4 on a shard header, FOFF its byte. -/
def need4 (ok : Bool) (shard foff : Nat) : Option RegFail :=
  if ok then none else some { step := 4, status := 0x22, shard := shard, foff := foff, place := 3 }

/-- R47, R70, R64 step 4: a shard header against the manifest, in the order of this list (DEDUCED, log 132); a content tag outside R46 is Invalid field,
which RES0 locates at the shard's starting block in its placement entry. -/
def headerFail (man : Bytes) (i : Nat) (h : Bytes) : Option RegFail :=
  let num := manShard man i
  let e := manEntry man i
  let fc := manFcount man
  let ck (ok : Bool) (foff : Nat) := need4 ok num foff
  let rec_ := manKind man == 1 || manKind man == 4
  let n := manCount man i
  firstFail ([
    ck (field h 4 1 == 1) 4,
    ck (field h 0 4 == 0xC4A5D336) 0,
    ck (field h 5 1 == if rec_ then 1 else 2) 5,
    ck (field h 8 2 == manDset man) 8,
    ck (field h 12 3 == num) 12,
    ck (field h 16 4 == n) 16] ++
    (if rec_ then
      let olen := field h 56 8
      let bc := field h 32 4
      [ck (field h 20 1 == fc) 20,
       ck (within 1 (2 ^ 48 - 1) olen) 56,
       ck (field h 24 8 == 4096 + 16 * n) 24,
       ck (bc == ceilDiv olen 65536) 32,
       ck (field h 40 8 == ceilDiv (4096 + 16 * n + 16 * bc) 4096 * 4096) 40,
       ck (field h 36 4 == field e 20 4) 36,
       ((List.range fc).find? fun k => field h (80 + 32 * k) 1 == 0x10 && 5 < field h (81 + 32 * k) 1).bind fun k =>
         some { step := 4, status := 0x02, shard := num, foff := 81 + 32 * k, place := 3, off := 64 + man.length + 16 * i + 8 },
       ck ((List.range fc).all (fun k => fieldKey (slice h (64 + 32 * k) 32) == fieldKey (manField man k)) &&
           (slice h (64 + 32 * fc) (1024 - 32 * fc)).all fun b => b == 0) 64]
    else
      let (t, els) := arrayShape man i
      let g := arrayGranules man i
      [ck (field h 20 1 == t) 20,
       ck (field h 56 8 == els && within 1 (2 ^ 40) els) 56,
       ck (n == g) 16,
       ck (field h 24 8 == 4096 * (1 + g)) 24,
       ck (field h 40 8 == 4096) 40,
       ck (manSlen man i == ceilDiv (4096 * (1 + g) + 4 * g) 4096 * 4096) 48,
       ck ((slice h 64 1024).all fun b => b == 0) 64]) ++ [
    ck (field h 48 8 == manSlen man i) 48,
    ck (field h 4092 4 == crc32c (h.take 4092) && field h 4092 4 == field e 16 4) 4092])

/-- A check of step 5. -/
def need5 (ok : Bool) (shard foff : Nat) : Option RegFail :=
  if ok then none else some { step := 5, status := 0x22, shard := shard, foff := foff, place := 4 }

/-- R49: index entries checked in order; `lo` is the end of the last present record. -/
def indexFail (num olen : Nat) (tab : Bytes) : Nat → Nat → Nat → Option RegFail
  | 0, _, _ => none
  | k + 1, r, lo =>
    let e := slice tab (16 * r) 16
    let roff := field e 0 6
    let rlen := field e 8 4
    if bits e 48 48 == 1 then
      if rlen == 0 && field e 12 4 == 0 then indexFail num olen tab k (r + 1) lo
      else need5 false num (16 * r + 8)
    else if !within 4 67108864 rlen then need5 false num (16 * r + 8)
    else if roff < lo || olen < roff + rlen then need5 false num (16 * r)
    else indexFail num olen tab k (r + 1) (roff + rlen)

/-- R51: block table entries checked in order; `lo` is the end of the block before. -/
def blocksFail (num slen : Nat) (tab : Bytes) : Nat → Nat → Nat → Option RegFail
  | 0, _, _ => none
  | k + 1, n, lo =>
    let e := slice tab (16 * n) 16
    let boff := field e 0 8
    let blen := field e 8 4
    if boff % 16 == 0 && lo ≤ boff && 16 ≤ blen && boff + blen ≤ slen then blocksFail num slen tab k (n + 1) (boff + blen)
    else need5 false num (16 * n)

/-- R64 step 5: the tables of a shard whose header is `h`; `read off len` reads the shard. A graph's first and last row offsets are read
with their whole granules, each checked (R72, R76). -/
def tablesFail (man : Bytes) (i : Nat) (h : Bytes) (read : Nat → Nat → Option Bytes) : Option RegFail :=
  let num := manShard man i
  let lost : RegFail := { step := 5, status := 0x10, shard := num, place := 5 }
  if manKind man == 1 || manKind man == 4 then
    let rc := field h 16 4
    let bc := field h 32 4
    match read 4096 (16 * rc + 16 * bc) with
    | none => some lost
    | some tab =>
      if crc32c tab != field h 36 4 then some { step := 5, status := 0x22, shard := num, place := 4 }
      else match indexFail num (field h 56 8) tab rc 0 0 with
        | some f => some f
        | none => blocksFail num (field h 48 8) tab bc rc (field h 40 8)
  else
    let g := field h 16 4
    match read (field h 24 8) (4 * g) with
    | none => some lost
    | some tab =>
      if crc32c tab != field h 36 4 then some { step := 5, status := 0x22, shard := num, place := 4 }
      else if manKind man == 2 && i == 0 then
        let z := 8 * manV man
        let gr (n : Nat) : Option Bytes := read (4096 * (1 + n)) 4096
        let good (n : Nat) (b : Bytes) : Bool := crc32c b == field tab (4 * n) 4
        match gr 0, gr (z / 4096) with
        | some a, some b =>
          if !good 0 a then need5 false num 0
          else if !good (z / 4096) b then need5 false num (4 * (z / 4096))
          else if field a 0 8 == 0 && field b (z % 4096) 8 == manE man then none
          else some { step := 5, status := 0x22, shard := num, place := 4 }
        | _, _ => some lost
      else none

/-- R64: the steps of a registration after step 1, on the media, for the shards whose first block `here` admits. -/
def registerFail (m : Media) (data : Bytes) (here : Nat → Bool := fun _ => true) : Option RegFail :=
  let mlen := field data 48 4
  let man := slice data 64 mlen
  let slba (i : Nat) : Nat := field data (64 + mlen + 16 * i + 8) 8
  let head (i : Nat) : Option Bytes := m.shard (slba i) 0 4096
  if sha384 man != data.take 48 then some { step := 2, status := 0x22, place := 0, foff := 0 }
  else
    match ((List.range (manScount man)).filter fun i => here (slba i)).findSome? fun i => match head i with
      | none => some ({ step := 4, status := 0x10, shard := manShard man i, place := 5 } : RegFail)
      | some h => headerFail man i h with
    | some f => some f
    | none => ((List.range (manScount man)).filter fun i => here (slba i)).findSome? fun i =>
        tablesFail man i ((head i).getD []) fun off len => m.shard (slba i) off len

/-- R62: the dataset a registration's data describes. -/
def registered (data : Bytes) : Dataset :=
  let mlen := field data 48 4
  let man := slice data 64 mlen
  { dset := manDset man, kind := manKind man, manifest := man, mhash := sha384 man, gen := manGen man,
    place := (List.range (manScount man)).map fun i => (manShard man i, field data (64 + mlen + 16 * i + 8) 8) }

/-- R772: a page 0x31 entry. -/
def regEntry (f : RegFail) (dset uptime : Nat) : Bytes :=
  let b := [0x01, byteOf f.step, byteOf f.status, 0] ++ leBytes 2 dset ++ zeros 2 ++ leBytes 3 f.shard ++ [0] ++
    leBytes 4 f.foff ++ [byteOf f.place] ++ zeros 7 ++ leBytes 8 uptime ++ zeros 28
  b ++ leBytes 4 (crc32c b)

/-! ### Records (R50 to R58) -/

/-- A record as it reads back. -/
inductive RecRes
  | ok (body : Bytes) (rcrc : Nat) (coded : Bool)  -- `coded`: a block of it is DEFLATE or Zstandard
  | absent
  | bad (block : Option Nat)      -- R57, with the block number where a block failed
  | lost
  deriving DecidableEq, Repr, Inhabited

/-- R52: a stored block decoded: its original bytes, or none; a stream that makes more than the block's original length, or has a fault
after it, is a mismatch too (R213). -/
def decodeBlock (raw : Bytes) (blen olenb bcrc : Nat) : Option Bytes :=
  let pay := raw.drop 16
  let ok (b : Bytes) : Option Bytes := if b.length == olenb && crc32c b == bcrc then some b else none
  if raw.length != blen || field raw 0 1 != 1 || field raw 4 4 != olenb || field raw 8 4 != blen - 16 || field raw 12 4 != bcrc then none
  else match field raw 1 1 with
    | 0 => ok pay
    | 1 => match inflate olenb pay with
      | (b, .done []) => ok b
      | _ => none
    | 2 => match zstd (olenb + 1) pay with
      | .ok b => ok b
      | _ => none
    | _ => none

/-- "Reading a record", steps 2 to 4: blocks `n` to `n + k − 1` decoded in order. -/
def readBlocks (m : Media) (slba olen : Nat) (h : Bytes) : Nat → Nat → Bytes → Bytes ⊕ RecRes
  | 0, _, acc => .inl acc
  | k + 1, n, acc =>
    match m.shard slba (field h 24 8 + 16 * n) 16 with
    | none => .inr .lost
    | some e =>
      match m.shard slba (field e 0 8) (field e 8 4) with
      | none => .inr .lost
      | some raw => match decodeBlock raw (field e 8 4) (min 65536 (olen - 65536 * n)) (field e 12 4) with
        | none => .inr (.bad (some n))
        | some b => readBlocks m slba olen h k (n + 1) (acc ++ b)

/-- "Reading a record": record r of a shard that starts at block slba. -/
def readRecord (m : Media) (slba r : Nat) : RecRes :=
  match m.shard slba 0 4096, m.shard slba (4096 + 16 * r) 16 with
  | some h, some e =>
    if bits e 48 48 == 1 then .absent else
      let roff := field e 0 6
      let rlen := field e 8 4
      let first := roff / 65536
      let last := (roff + rlen - 1) / 65536
      match readBlocks m slba (field h 56 8) h (last + 1 - first) first [] with
      | .inr x => x
      | .inl data =>
        let body := slice data (roff - 65536 * first) rlen
        let codec (n : Nat) : Nat := match m.shard slba (field h 24 8 + 16 * n) 8 with
          | some b => leNat ((m.shard slba (leNat b + 1) 1).getD [])
          | none => 0
        if body.length == rlen && crc32c body == field e 12 4 then
          .ok body (field e 12 4) ((List.range (last + 1 - first)).any fun i => codec (first + i) != 0)
        else .bad none
  | _, _ => .lost

/-- R53 to R56: a value of a field descriptor from its bytes. -/
def fieldVal (d b : Bytes) : Option Val :=
  let t := field d 16 1
  let sub := field d 17 1
  let rank := field d 18 1
  let maxlen := field d 20 4
  if maxlen != 0 && maxlen < b.length then none
  else if t ≤ 0x0E then (if b.length == typeSize t then some (.scalar t (leNat b)) else none)
  else match t with
    | 0x10 => some (.bytes sub b)
    | 0x11 => some (.text b)
    | 0x12 => if b.length % 4 == 0 then some (.tokens ((chunks 4 (b.length / 4) b).map leNat)) else none
    | _ =>
      let dims := (List.range rank).map fun i => field b (4 * i) 4
      let n := dims.foldl (· * ·) 1
      if b.length == 4 * rank + n * typeSize sub then
        some (.tensor sub dims ((chunks (typeSize sub) n (b.drop (4 * rank))).map leNat))
      else none

/-- R53 to R56: the values of a record body from field i on; `off` is the end of the values so far. -/
def bodyFields (man body : Bytes) : Nat → Nat → Nat → List Val → Option (List Val × Nat)
  | 0, _, off, acc => some (acc.reverse, off)
  | k + 1, i, off, acc =>
    let len := field body (4 * i) 4
    let d := manField man i
    if len == 0xFFFFFFFF then
      if field d 19 1 % 2 == 1 then bodyFields man body k (i + 1) off (.null :: acc) else none
    else
      let start := ceilDiv off 4 * 4
      if body.length < start + len || (slice body off (start - off)).any (fun b => b != 0) then none
      else match fieldVal d (slice body start len) with
        | none => none
        | some v => bodyFields man body k (i + 1) (start + len) (v :: acc)

/-- R53 to R56: a record body as its field values. -/
def parseBody (man body : Bytes) : Option (List Val) :=
  let fc := manFcount man
  if body.length < 4 * fc then none
  else match bodyFields man body fc 0 (4 * fc) [] with
    | none => none
    | some (vs, stop) =>
      if ceilDiv stop 4 * 4 == body.length && (body.drop stop).all (fun b => b == 0) then some vs else none

/-! ### Array shards (R70 to R78) -/

/-- R72: a granule read and checked. -/
def readGranule (m : Media) (slba ctoff g : Nat) : Option Bytes × Bool :=
  match m.shard slba (4096 * (1 + g)) 4096, m.shard slba (ctoff + 4 * g) 4 with
  | some b, some c => (if crc32c b == leNat c then some b else none, false)
  | _, _ => (none, true)

/-- R71, R72: elements `first` to `first + n − 1` of the i-th array shard of a dataset: their bytes, or the drop, with
whether the read ended unrecovered and the granule. -/
def readElems (m : Media) (man : Bytes) (place : List (Nat × Nat)) (i first n : Nat) : Bytes ⊕ (Bool × Nat) :=
  let (t, _) := arrayShape man i
  let size := typeSize t
  let slba := (place.getD i (0, 0)).2
  let ctoff := 4096 * (1 + arrayGranules man i)
  let b0 := first * size
  let g0 := b0 / 4096
  let gs := (List.range ((b0 + n * size + 4095) / 4096 - g0)).map fun k => g0 + k
  let rec go : List Nat → Bytes → Bytes ⊕ (Bool × Nat)
    | [], acc => .inl acc
    | g :: gs, acc => match readGranule m slba ctoff g with
      | (some b, _) => go gs (acc ++ b)
      | (none, lost) => .inr (lost, g)
  match go gs [] with
  | .inl b => .inl (slice b (b0 - 4096 * g0) (n * size))
  | .inr x => .inr x

/-- One element of the i-th array shard. -/
def readElem (m : Media) (man : Bytes) (place : List (Nat × Nat)) (i e : Nat) : Elem :=
  match readElems m man place i e 1 with
  | .inl b => .val (leNat b)
  | .inr (lost, _) => if lost then .lost else .bad

/-- R78: row r of a tensor dataset. -/
def readRow (m : Media) (man : Bytes) (place : List (Nat × Nat)) (r : Nat) : Bytes ⊕ (Bool × Nat) :=
  readElems m man place (r / 2 ^ 24) (manD man * (r % 2 ^ 24)) (manD man)

/-- R42, R105, R82: whether a shard number and record index name a record of a manifest (R41). -/
def sidValid (man : Bytes) (sid : Nat) : Bool :=
  sid / 2 ^ 48 == manDset man && match shardIndex man (sid / 2 ^ 24 % 2 ^ 24) with
    | some i => sid % 2 ^ 24 < manCount man i
    | none => false

end Sys2Proof.Machine
end

