-- ==== Sys2Proof/Machine/NetOps.lean ====
section
/-!
DEFINITION. Packets and frames onto the ports: the packet header (R369), source routing (R371, R372), the transmit queue a
frame enters (R393) and its length (R399).
-/
namespace Sys2Proof.Machine

/-! ### Packets (R369) -/

/-- PTYPE. -/
def pktType (p : Bytes) : Nat := field p 1 1
/-- VC. -/
def pktVc (p : Bytes) : Nat := bits p 17 16
/-- R228: is the body compressed? The spec gives no field for it; the bit above VC tells (DESIGN CHOICE). -/
def pktCoded (p : Bytes) : Bool := bits p 18 18 == 1
/-- SRC. -/
def pktSrc (p : Bytes) : Nat := bits p 35 24
/-- DST. -/
def pktDst (p : Bytes) : Nat := bits p 47 36
/-- The VC field of a packet whose body is compressed. -/
def codedVc (vc : Nat) : Nat := vc + 4
/-- HOPS. -/
def pktHops (p : Bytes) : Nat := bits p 50 48
/-- HOPIDX. -/
def pktHopIdx (p : Bytes) : Nat := bits p 53 51
/-- Output port of hop i, counted from 1. -/
def pktRoute (p : Bytes) (i : Nat) : Nat := bits p (56 + 6 * i - 1) (56 + 6 * i - 6)
/-- LEN. -/
def pktLen (p : Bytes) : Nat := field p 12 4
/-- TAG. -/
def pktTag (p : Bytes) : Nat := field p 16 4
/-- The body. -/
def pktBody (p : Bytes) : Bytes := p.drop 32

/-- The header's bytes 0 to 27 with a HOPIDX. -/
def pktHead (ptype vc src dst hops idx : Nat) (route : List Nat) (len tag : Nat) : Bytes :=
  let word := src + dst * 2 ^ 12 + hops * 2 ^ 24 + idx * 2 ^ 27 + (route.zipIdx.map fun (p, i) => p * 2 ^ (32 + 6 * i)).sum
  [0x01, byteOf ptype, byteOf vc] ++ leBytes 9 word ++ leBytes 4 len ++ leBytes 4 tag ++ zeros 8

/-- A whole packet with its PCRC. -/
def packet (ptype vc src dst : Nat) (route : List Nat) (tag : Nat) (body : Bytes) : Bytes :=
  let h := pktHead ptype vc src dst route.length 0 route body.length tag
  h ++ leBytes 4 (crc32c (h ++ body)) ++ body

/-- A packet with another HOPIDX; PCRC counts HOPIDX as 0 and stands. -/
def pktSetHop (p : Bytes) (idx : Nat) : Bytes :=
  let old := field p 6 1
  p.take 6 ++ [byteOf (old - (old / 8 % 8) * 8 + idx * 8)] ++ p.drop 7

/-- R373: PCRC checks. -/
def pktCrcOk (p : Bytes) : Bool :=
  let q := pktSetHop p 0
  field p 28 4 == crc32c (q.take 28 ++ p.drop 32) && p.length == 32 + pktLen p

/-- R373: VER 0x01. -/
def pktVerOk (p : Bytes) : Bool := field p 0 1 == 1

/-- Flits a packet takes (R355, R369). -/
def pktFlits (p : Bytes) : Nat := (p.length + 239) / 240

/-! ### Ports and queues -/

/-- R34: unit id of a port. -/
def portUnit (n : Nat) : Nat := 0x290 + n

/-- PortMode of a port (R341). -/
def State.portMode (s : State) (n : Nat) : Nat := s.num 0x4000 (n + 1)

/-- Is the port UP or DEGRADED in the mode? -/
def State.portUp (s : State) (n mode : Nat) : Bool :=
  s.portMode n == mode && match s.port n with | some p => p.state == 2 || p.state == 3 | none => false

/-- R399: the overhead added to every frame length of a port now. -/
def State.overhead (s : State) (n : Nat) : Nat :=
  let on := !s.started || match s.port n with | some p => p.overhead || p.state == 5 | none => false
  if on then s.num 0x4010 0 else 0

/-- R395: the frames of a queue filtered; a queue that empties has its deficit set to 0. -/
def TxQueue.keep (t : TxQueue) (f : Frame → Bool) : TxQueue :=
  let l := t.frames.filter f
  { t with frames := l, deficit := if l.isEmpty then 0 else t.deficit }

/-- The frame put at the end of a transmit queue of a port. -/
def State.queueFrame (s : State) (port q : Nat) (f : Frame) : State :=
  s.modPort port fun p => { p with queues := p.queues.zipIdx.map fun (t, i) =>
    if i == q then { t with frames := t.frames ++ [f] } else t }

/-- Job mode of a crew's open job (R566). -/
def jobMode (block : Bytes) : Nat := bits block 9 8

/-- R393: the queue of a crew's delivery, or of its delivery-forward traffic. -/
def State.crewQueue (s : State) (crew : Nat) : Nat :=
  match (s.crew crew).bind (·.job) with
  | some j => if jobMode j.block == 2 then 1 else j.queue
  | none => s.num 0x4014 (crew + 1)

/-- R393: the queue of a virtual channel at its source, or in transit. -/
def State.vcQueue (s : State) (vc : Nat) (crew : Option Nat) (transit : Bool) : Nat :=
  match vc with
  | 0 => 0
  | 1 => 2
  | 2 => if transit then 63 else s.crewQueue (crew.getD 0)
  | _ => 3

/-- R372: ADDR of kind 0x24. -/
def routeAddr (src dst port : Nat) : Nat := src + dst * 2 ^ 12 + port * 2 ^ 24

/-- R371, R372: a packet sent on the port a hop names. -/
def State.sendOn (s : State) (port : Nat) (p : Bytes) (crew : Option Nat) (transit : Bool) : State :=
  if s.portUp port 1 then
    s.queueFrame port (s.vcQueue (pktVc p) crew transit)
      { len := 256 * pktFlits p, crew := crew, prio := 0, body := .packet p }
  else s.raise { unit := portUnit port, kind := 0x24, addr := routeAddr (pktSrc p) (pktDst p) port }

/-- R370: the address of a device without an id in packets, where 0xFFF does not appear; no manager assigns it (DESIGN CHOICE). -/
def noId : Nat := 0xFFE

/-- R370, R371: the id by which packets name this device. -/
def State.selfId (s : State) : Nat := if s.domain.deviceId == 0xFFF then noId else s.domain.deviceId

/-- R610, R371: a packet sent to a member by the route held for it. A device with no route to it sends nothing; the
missing response tells (R372). -/
def State.sendPacket (s : State) (ptype vc dst : Nat) (crew : Option Nat) (tag : Nat) (body : Bytes) : State :=
  match s.domain.routes.find? fun r => r.1 == dst with
  | none => s
  | some (_, route) => match route with
    | [] => s
    | port :: _ => s.sendOn port (packet ptype vc s.selfId dst route tag body) crew false

/-! ### Domain control (R621) -/

/-- A domain record changed. -/
def State.modDomain (s : State) (f : Domain → Domain) : State := { s with domain := f s.domain }

/-- R621: the body of a domain control packet; the layout of the operands is the model's (DESIGN CHOICE). -/
def controlBody (op job : Nat) (operands : Bytes) : Bytes := [byteOf op, byteOf job] ++ zeros 6 ++ operands

/-- A domain control packet sent to a member. -/
def State.control (s : State) (dst op job : Nat) (operands : Bytes) : State := s.sendPacket 0x05 0 dst none 0 (controlBody op job operands)

/-- Members that the domain has admitted. -/
def State.workers (s : State) : List Member := s.domain.members.filter fun m => m.cause == 0

/-- A domain control packet sent to every member. -/
def State.controlAll (s : State) (op job : Nat) (operands : Bytes) : State :=
  s.workers.foldl (fun s m => s.control m.id op job operands) s

end Sys2Proof.Machine
end

