-- ==== Sys2Proof/Machine/PackOps.lean ====
section
/-!
DEFINITION. Packing and batch assembly (R236 to R258): sample headers, batch descriptors, fixed rows, heats packed into
rows, the batch image.
-/
namespace Sys2Proof.Machine

/-- A flag as a bit. -/
def bit (b : Bool) (k : Nat) : Nat := if b then 2 ^ k else 0

/-- R239: the 64 bytes of a sample header. -/
def Hdr.encode (h : Hdr) : Bytes :=
  let b := leBytes 2 (0x01 + bit h.concealed 8 + bit h.substituted 9 + bit h.truncated 10 + bit h.split 11 + bit h.probation 12) ++
    [byteOf h.attempt, byteOf h.nullmask] ++ leBytes 4 h.epoch ++ leBytes 8 h.sid ++ leBytes 8 h.pos ++ leBytes 8 h.batch ++
    leBytes 2 h.rank ++ leBytes 2 h.slot ++ leBytes 2 h.segid ++ leBytes 2 h.piece ++ leBytes 4 h.tokoff ++
    leBytes 4 h.plen ++ leBytes 8 h.subof ++ leBytes 4 h.rcrc
  b ++ leBytes 4 (crc32c b)

/-- R239: a sample header read. -/
def Hdr.decode (b : Bytes) : Hdr :=
  { concealed := bits b 8 8 == 1, substituted := bits b 9 9 == 1, truncated := bits b 10 10 == 1, split := bits b 11 11 == 1,
    probation := bits b 12 12 == 1, attempt := bits b 23 16, nullmask := bits b 27 24, epoch := bits b 63 32,
    sid := bits b 127 64, pos := bits b 191 128, batch := bits b 255 192, rank := bits b 271 256, slot := bits b 287 272,
    segid := bits b 303 288, piece := bits b 319 304, tokoff := bits b 351 320, plen := bits b 383 352,
    subof := bits b 447 384, rcrc := bits b 479 448 }

/-- R238: the order of headers in the header area. -/
def Hdr.before (a b : Hdr) : Bool := a.slot < b.slot || (a.slot == b.slot && a.segid < b.segid)

/-- R238: a header put in its place; one for the same slot and segment is replaced. -/
def putHdr (h : Hdr) : List Hdr → List Hdr
  | [] => [h]
  | x :: xs => if h.before x then h :: x :: xs else if x.before h then x :: putHdr h xs else h :: xs

/-- A row put at its slot, rows ascending. -/
def putRow (slot : Nat) (b : Bytes) : List (Nat × Bytes) → List (Nat × Bytes)
  | [] => [(slot, b)]
  | x :: xs => if slot < x.1 then (slot, b) :: x :: xs else if x.1 == slot then (slot, b) :: xs else x :: putRow slot b xs

/-- What a batch descriptor says that the batch itself does not hold. -/
structure DescIn where
  seq : Bool
  ncol : Nat
  fmts : List Nat
  b : Nat
  rowBytes : Nat
  epochF : Nat
  epochL : Nat
  fprint : Bytes
  tdcc : Nat

/-- R240: the 128 bytes of a batch descriptor. -/
def descriptor (d : DescIn) (k : Batch) : Bytes :=
  let n (p : Hdr → Bool) : Nat := (k.hdrs.filter p).length
  let fmts := if d.seq then [0x12, 0x02, 0x02] else d.fmts
  let mxl := if !d.seq && d.fmts.any isMx then 1 else 0
  let body := [0x01, if d.seq then 0x02 else 0x01, byteOf (if d.seq then 3 else d.ncol), byteOf mxl] ++
    ((List.range 4).map fun i => byteOf (fmts.getD i 0)) ++ leBytes 4 k.rank ++ leBytes 4 d.b ++ leBytes 8 k.k ++
    leBytes 4 d.rowBytes ++ leBytes 4 k.hdrs.length ++ leBytes 4 d.epochF ++ leBytes 4 d.epochL ++ fitTo 16 d.fprint ++
    leBytes 8 (d.b * d.rowBytes + 128) ++ leBytes 4 (n (·.concealed)) ++ leBytes 4 (n (·.substituted)) ++
    leBytes 4 (n (·.truncated)) ++ leBytes 4 (n (·.split)) ++ leBytes 4 (n (·.probation)) ++
    leBytes 4 (if d.seq then k.pad else 0) ++ leBytes 8 d.tdcc ++ zeros 28
  body ++ leBytes 4 (crc32c body)

/-- R236: the image of a closed batch: rows, descriptor, headers. -/
def batchImage (k : Batch) : Bytes :=
  k.rows.flatMap (·.2) ++ k.desc.getD [] ++ k.hdrs.flatMap Hdr.encode

/-! ### Heats (R253 to R258) -/

/-- An item of a heat: tokens, index, piece (R254). -/
structure Item where
  len : Nat
  idx : Nat
  piece : Nat
  deriving DecidableEq, Repr, Inhabited

/-- R254: the pieces of a value of L tokens and whether the value was cut. -/
def itemsOf (rl : Nat) (split : Bool) (idx l : Nat) : List Item × Bool :=
  if l == 0 then ([], false)
  else if !split then ([⟨min l rl, idx, 0⟩], rl < l)
  else
    let l2 := min l (256 * rl)
    ((List.range (ceilDiv l2 rl)).map fun k => ⟨min ((k + 1) * rl) l2 - k * rl, idx, k⟩, l2 < l)

/-- R255: the order items are placed in. -/
def Item.before (a b : Item) : Bool :=
  b.len < a.len || (a.len == b.len && (a.idx < b.idx || (a.idx == b.idx && a.piece < b.piece)))

/-- Insertion by R255's order. -/
def insertItem (x : Item) : List Item → List Item
  | [] => [x]
  | y :: ys => if x.before y then x :: y :: ys else y :: insertItem x ys

/-- R255: a row under packing: tokens used, segments with their offsets. -/
structure PackRow where
  used : Nat
  segs : List (Item × Nat)
  deriving DecidableEq, Repr, Inhabited

/-- R255: an item placed in the lowest row that takes it, or a new row. -/
def placeItem (rl : Nat) (x : Item) : List PackRow → List PackRow
  | [] => [⟨x.len, [(x, 0)]⟩]
  | r :: rs =>
    if r.used + x.len ≤ rl && r.segs.length < 128 then ⟨r.used + x.len, r.segs ++ [(x, r.used)]⟩ :: rs
    else r :: placeItem rl x rs

/-- R255: the rows of a heat's items. -/
def packHeat (rl : Nat) (items : List Item) : List PackRow :=
  (items.foldr insertItem []).foldl (fun rows x => placeItem rl x rows) []

/-- R253, R254: the rows of a heat whose contributions have the token counts given by index. -/
def packCounts (rl : Nat) (split : Bool) (counts : List (Nat × Nat)) : List PackRow :=
  packHeat rl (counts.flatMap fun c => (itemsOf rl split c.1 c.2).1)

/-- The tokens of an item, cut from its value (R254). -/
def Item.tokens (x : Item) (rl : Nat) (ids : List Nat) : List Nat := (ids.drop (x.piece * rl)).take x.len

/-- R256: a row's bytes from its segments' tokens. -/
def seqRow (rl padid : Nat) (segs : List (List Nat)) : Bytes :=
  let used := (segs.map List.length).sum
  let ids := segs.flatten ++ List.replicate (rl - used) padid
  let sids := (segs.zipIdx.flatMap fun (l, i) => List.replicate l.length (i + 1)) ++ List.replicate (rl - used) 0
  let poss := (segs.flatMap fun l => List.range l.length) ++ List.replicate (rl - used) 0
  ids.flatMap (leBytes 4) ++ sids.flatMap (leBytes 2) ++ poss.flatMap (leBytes 2)

end Sys2Proof.Machine
end

