-- ==== Sys2Proof/Machine/PoolOps.lean ====
section
/-!
DEFINITION. The buffer pool manager's operations ("Memory tiers and the buffer pool manager"): carving, allocation,
quotas, named owners, freeing and quarantine.
-/
namespace Sys2Proof.Machine

/-- R440: buffer size of pool n. -/
def poolSize (n : Nat) : Nat := [512, 4096, 65536, 1048576, 16777216, 268435456].getD n 0

/-- R446: the size of pool 5. -/
def chainSize : Nat := 268435456

/-- R444: requester class of a use. -/
def useClass : BufUse → Nat
  | .working => 0
  | .batch => 1
  | .staging => 1
  | .setTable => 0
  | .residentGraph => 0
  | .residentFeature => 0
  | .portReassembly => 2
  | .writeWindow => 3
  | .relocation => 4
  | .vocabulary => 5
  | .rolloutRecord => 5
  | .firmware => 6

/-- R444: preferred tier of a use (0 HBM3E, 1 LPDDR5X). -/
def usePreferred : BufUse → Nat
  | .working => 0
  | .batch => 0
  | .staging => 0
  | .setTable => 0
  | .residentGraph => 0
  | .residentFeature => 1
  | .portReassembly => 1
  | .writeWindow => 1
  | .relocation => 1
  | .vocabulary => 0
  | .rolloutRecord => 1
  | .firmware => 1

/-- R444: fallback tier of a use. -/
def useFallback : BufUse → Option Nat
  | .working => some 1
  | .batch => some 1
  | .staging => some 1
  | .setTable => some 1
  | .residentGraph => none
  | .residentFeature => none
  | .portReassembly => some 0
  | .writeWindow => some 0
  | .relocation => none
  | .vocabulary => none
  | .rolloutRecord => none
  | .firmware => none

/-- R451: the id of an owner of a class. -/
def ownerId (cls n : Nat) : Nat := 4096 * cls + n % 4096

/-- The crew of an open sink. -/
def Sink.crew (k : Sink) : Nat := field k.image 2 1

/-- R444, R455: who is charged for an owner's share of a buffer of a use: the crew, the port or the queue pair of the owner's class, and
for a rollout record the crew that owns the sink. Classes 4 to 6 pay for nothing else. -/
def State.payer (s : State) (use : BufUse) (owner : Nat) : Payer :=
  let n := owner % 4096
  match owner / 4096, use with
  | _, .relocation => .none
  | _, .vocabulary => .none
  | _, .firmware => .none
  | 0, _ => .crew n
  | 1, _ => .crew n
  | 2, _ => .port n
  | 3, _ => .qp n
  | 5, .rolloutRecord => match s.sinks.find? fun k => k.num == n with
    | some k => .crew k.crew
    | none => .none
  | _, _ => .none

/-- R455: bytes charged to a payer in a tier, or in both. -/
def State.charge (s : State) (p : Payer) (tier : Option Nat) : Nat :=
  (s.mem.bufs.map fun b => if tier.isNone || tier == some b.tier then (b.payers.filter fun o => o == p).length * b.bytes else 0).sum

/-- 2^20. -/
def mib : Nat := 1048576

/-- R456: the quota of a payer: per tier for a crew, over both tiers for the others. -/
def State.quota (s : State) (p : Payer) (tier : Nat) : Option Nat :=
  match p with
  | .crew c =>
    let eights := match s.crew c with | some k => k.eights.length | none => 0
    some (s.num (if tier == 0 then 0x5810 else 0x5811) (c + 1) * mib * eights)
  | .port n => some (s.num 0x5830 (n + 1) * mib)
  | .qp _ => some (s.num 0x5820 0 * mib)
  | .none => none

/-- R456: would a payer's quota hold `bytes` more in a tier? -/
def State.affords (s : State) (p : Payer) (tier bytes : Nat) : Bool :=
  match s.quota p tier with
  | none => true
  | some q => match p with
    | .crew _ => s.charge p (some tier) + bytes ≤ q
    | _ => s.charge p none + bytes ≤ q

/-! ### Rings and caches (R448) -/

/-- R462: buffers that a carving keeps out of the ring: those retired and those under test. -/
def Pool.kept (p : Pool) : List Nat := p.gone ++ p.quarantine

/-- Buffers in a pool's ring. -/
def Pool.ring (p : Pool) : Nat :=
  (p.total - p.fresh) - (p.kept.filter fun i => p.fresh ≤ i && i < p.total).length + p.back.length

/-- Take one buffer from the ring, first in first out: the never-taken buffers come first. -/
def Pool.takeRing (p : Pool) : Option (Nat × Pool) :=
  let next := p.fresh + (((List.range (p.kept.length + 1)).find? fun d => !p.kept.contains (p.fresh + d)).getD 0)
  if next < p.total then some (next, { p with fresh := next + 1 })
  else match p.back with
    | [] => none
    | b :: bs => some (b, { p with back := bs })

/-- The cache of a class set. -/
def Pool.setCache (p : Pool) (cls : Nat) (c : List Nat) : Pool := { p with caches := p.caches.set cls c }

/-- Move up to `n` buffers from the ring to a class's cache. -/
def Pool.refill : Nat → Pool → Nat → Pool
  | 0, p, _ => p
  | n + 1, p, cls => match p.takeRing with
    | none => p
    | some (b, p) => Pool.refill n (p.setCache cls (p.caches.getD cls [] ++ [b])) cls

/-- R448: the manager tends a class's cache: below 16 entries it takes 32 from the ring, above 56 it returns 32. -/
def Pool.tend (p : Pool) (cls : Nat) : Pool :=
  let c := p.caches.getD cls []
  if c.length < 16 then p.refill 32 cls
  else if 56 < c.length then { p.setCache cls (c.drop 32) with back := p.back ++ c.take 32 }
  else p

/-- R448: an allocation takes from the class's cache, refilled from the ring first when it is empty (R450). -/
def Pool.take (p : Pool) (cls : Nat) : Option (Nat × Pool) :=
  let p := if (p.caches.getD cls []).isEmpty then p.refill 32 cls else p
  match p.caches.getD cls [] with
  | [] => none
  | b :: bs => some (b, p.setCache cls bs)

/-- R448: a free puts the buffer into the cache of the class that frees it; above 56 entries 32 go to the ring. -/
def Pool.put (p : Pool) (cls b : Nat) : Pool :=
  let p := p.setCache cls (p.caches.getD cls [] ++ [b])
  if 56 < (p.caches.getD cls []).length then p.tend cls else p

/-- R463 PoolFree: free buffers of a pool. -/
def Pool.free (p : Pool) : Nat := p.ring + (p.caches.map List.length).sum

/-- A pool changed. -/
def Pools.modPool (m : Pools) (tier n : Nat) (f : Pool → Pool) : Pools :=
  { m with pools := updWhere (fun p => p.tier == tier && p.n == n) f m.pools }

/-- A pool by tier and number. -/
def Pools.pool (m : Pools) (tier n : Nat) : Option Pool := m.pools.find? fun p => p.tier == tier && p.n == n

/-- Can a class take a buffer of this pool? -/
def Pool.canServe (p : Pool) (cls : Nat) : Bool := !(p.caches.getD cls []).isEmpty || 0 < p.ring

/-- R445: the smallest pool whose buffers hold `bytes`. -/
def fitPool (bytes : Nat) : Nat := ((List.range 6).find? fun n => bytes ≤ poolSize n).getD 5

/-- R445: one buffer of a tier for a class: the pool that serves, the buffer's index and the pools after. -/
def Pools.take (m : Pools) (tier cls bytes : Nat) : Option (Nat × Nat × Pools) :=
  let want := fitPool bytes
  let cands := ((List.range 6).filter fun n => want ≤ n).filterMap fun n => m.pool tier n
  match cands.find? fun p => p.canServe cls with
  | none => none
  | some p => match p.take cls with
    | none => none
    | some (b, p') =>
      let m := m.modPool tier p.n fun _ => p'
      let m := if p.n == want then m else m.modPool tier want fun w => { w with fallbacks := w.fallbacks + 1 }
      some (p.n, b, m)

/-- R446: `k` buffers of pool 5, then a tail. -/
def Pools.takeChain (m : Pools) (tier cls : Nat) : Nat → Nat → Option (List (Nat × Nat) × Pools)
  | 0, tail =>
    if tail == 0 then some ([], m) else match m.take tier cls tail with
      | none => none
      | some (n, b, m) => some ([(n, b)], m)
  | k + 1, tail =>
    match m.take tier cls chainSize with
    | none => none
    | some (n, b, m) => match Pools.takeChain m tier cls k tail with
      | none => none
      | some (l, m) => some ((n, b) :: l, m)

/-- Buffers of a tier for a request (R445, R446). -/
def Pools.takeFor (m : Pools) (tier cls bytes : Nat) : Option (List (Nat × Nat) × Pools) :=
  if bytes ≤ chainSize then m.takeChain tier cls 0 bytes else m.takeChain tier cls (bytes / chainSize) (bytes % chainSize)

/-- R455: the full size of the buffers of a chain. -/
def chainBytes (parts : List (Nat × Nat)) : Nat := (parts.map fun p => poolSize p.1).sum

/-- What became of a request at one tier. -/
inductive TierTry
  | granted (s : State)
  | noPool       -- no pool of the tier can serve it
  | noQuota      -- an owner's quota cannot hold the buffer

/-- R447, R456: try one tier: the pools serve the request and every owner's quota holds it, in one step. -/
def State.tryTier (s : State) (tier : Nat) (ref : BufRef) (use : BufUse) (bytes : Nat) (owners : List Nat) : TierTry :=
  match s.mem.takeFor tier (useClass use) bytes with
  | none => .noPool
  | some (parts, m) =>
    let size := chainBytes parts
    let payers := owners.map (s.payer use)
    if payers.all fun p => s.affords p tier size then
      .granted { s with mem := { m with
        bufs := m.bufs ++ [{ id := m.next, ref := ref, use := use, tier := tier, parts := parts, bytes := size, owners := owners,
                             payers := payers }],
        next := m.next + 1 } }
    else .noQuota

/-- A count of one of the two tiers raised by 1. -/
def bumpTier (l : List Nat) (tier : Nat) : List Nat := l.set tier (l.getD tier 0 + 1)

/-- R447: does one quota cover both tiers of a payer's buffers? -/
def Payer.combined : Payer → Bool
  | .port _ => true
  | .qp _ => true
  | _ => false

/-- R444, R447: allocate for a use: the preferred tier, then the fallback tier. The flag says whether it was granted;
the handle of a granted buffer is `mem.next` of the state before. TierFallbacks counts a request that moves on, whether the fallback tier
serves it or not. A quota over both tiers is checked once: when it is short, the request does not move. -/
def State.alloc (s : State) (use : BufUse) (ref : BufRef) (bytes : Nat) (owners : List Nat) : Bool × State :=
  let next (whole : Bool) : Bool × State :=
    match useFallback use with
    | none => (false, s)
    | some t =>
      if whole then (false, s) else
        let s := { s with mem := { s.mem with tierFallbacks := bumpTier s.mem.tierFallbacks (usePreferred use) } }
        match s.tryTier t ref use bytes owners with
        | .granted s' => (true, s')
        | _ => (false, s)
  match s.tryTier (usePreferred use) ref use bytes owners with
  | .granted s' => (true, s')
  | .noPool => next false
  | .noQuota => next (owners.any fun o => (s.payer use o).combined)

/-- R462: a buffer's pieces go back: to the cache of the freeing class, or to quarantine when they yielded a parity error. -/
def Pools.giveBack (m : Pools) (b : Buf) (cls : Nat) : Pools :=
  b.parts.foldl (fun m (n, i) =>
    m.modPool b.tier n fun p => if b.suspect.contains (n, i) then { p with quarantine := p.quarantine ++ [i] } else p.put cls i) m

/-- R452: an owner leaves a buffer; the buffer goes back when it was the last. A holder that leaves others behind names it no more; a
resident copy has no holder beside its owners. -/
def State.leave (s : State) (owner : Nat) (b : Buf) : State :=
  let i := b.owners.idxOf owner
  let rest := b.owners.eraseIdx i
  let ref := match b.ref with
    | .resident d k => .resident d k
    | r => if i == 0 then .left b.id else r
  if rest.isEmpty then
    { s with mem := { s.mem.giveBack b (owner / 4096 % 7) with bufs := s.mem.bufs.filter fun x => x.id != b.id } }
  else { s with mem := { s.mem with
    bufs := updWhere (fun x => x.id == b.id) (fun x => { x with owners := rest, payers := x.payers.eraseIdx i, ref := ref }) s.mem.bufs } }

/-- What names a buffer that an agent drew by its own request: the handle it was given. -/
def requestRef (handle : Nat) : BufRef := .other (2 ^ 60 + handle)

/-- R449: waiting requests in the order they are served: round-robin over the classes after the one served last, each class's oldest
first. -/
def roundRobin (turn : Nat) (l : List BufWait) : List BufWait :=
  (List.range l.length).flatMap fun i => (List.range 7).filterMap fun k =>
    (l.filter fun w => useClass w.use == (turn + 1 + k) % 7)[i]?

/-- R447, R449: the requests that wait are served as far as memory goes. -/
def State.serveWaiting (s : State) : State :=
  (roundRobin s.mem.turn s.mem.waiting).foldl (fun s w =>
    match s.alloc w.use (w.ref.getD (requestRef s.mem.next)) w.bytes [ownerId (useClass w.use) w.holder] with
    | (true, s) => { s with mem := { s.mem with waiting := s.mem.waiting.erase w, turn := useClass w.use } }
    | (false, _) => s) s

/-- R447, R452: the holder of every buffer that a reference names leaves it, by its own owner id; what that frees serves requests that
wait, of which the holder's own are withdrawn. -/
def State.freeRef (s : State) (p : BufRef → Bool) : State :=
  let mine := s.mem.bufs.filter fun b => p b.ref
  let s := mine.foldl (fun s b => s.leave (b.owners.headD (ownerId (useClass b.use) 0)) b) s
  let s := { s with mem := { s.mem with waiting := s.mem.waiting.filter fun w => match w.ref with | some r => !p r | none => true } }
  if mine.isEmpty then s else s.serveWaiting

/-- What names the buffer of a vocabulary, and of a grammar. -/
def vocabRef (n : Nat) : BufRef := .other (256 + n)

/-- What names the buffer of a grammar. -/
def grammarRef (n : Nat) : BufRef := .other (512 + n)

/-- What a command that ends early has begun is undone: the set tables of a LOAD RECIPE and the buffer of a vocabulary or grammar that is being
loaded are freed, and the crew of a CLOSE deals and delivers again unless it is suspended. -/
def State.undo (s : State) (c : Cmd) : State :=
  if c.opc == 0x20 && c.wait == .tables then
    (s.modCrew c.crew fun k => { k with loading := none }).freeRef fun b => match b with | .setTable n _ => n == c.crew | _ => false
  else if c.opc == 0x25 && c.wait == .drain then
    s.modCrew c.crew fun k => { k with job := k.job.map fun j => { j with stopped := k.state == 4 } }
  else if c.opc == 0x04 && (c.fid == 0x40 || c.fid == 0x42) && c.wait == .programs then
    s.freeRef fun b => b == (if c.fid == 0x40 then vocabRef (field c.data 0 1) else grammarRef (field c.data 0 1))
  else s

/-- R560: a command's grants withdrawn, with the write-window buffers they drew, and what it had begun undone. -/
def State.endGrants (s : State) (q i : Nat) : State :=
  let s := match s.cmd q i with | some c => s.undo c | none => s
  (s.withdraw q i).freeRef fun r => match r with | .window a b _ => a == q && b == i | _ => false

/-- Is there a buffer for the reference? -/
def State.hasRef (s : State) (r : BufRef) : Bool := s.mem.bufs.any fun b => b.ref == r

/-! ### Carving (R439 to R441) -/

/-- 2^30, the DRAM gigabyte (R437). -/
def gb : Nat := 1073741824

/-- R439: the map takes 5 bytes per 16 KiB of raw flash, rounded up to whole GB; the region is that plus 16 GB. -/
def systemRegionGb (raw : Nat) : Nat := (raw / 16384 * 5 + gb - 1) / gb + 16

/-- R437, R702, R703: pool space of a tier in bytes: usable 8/9 of 36 GB per stack and of 64 GB per package in use. -/
def State.poolSpace (s : State) (tier region : Nat) : Nat :=
  if tier == 0 then (8 - s.mem.hbmOut.length) * 32 * gb
  else (18 - s.mem.lpOut.length) * 64 * gb * 8 / 9 - region * gb

/-- R440: the buffers of pool n of a tier. -/
def State.poolBuffers (s : State) (tier n region : Nat) : Nat :=
  s.poolSpace tier region * s.num 0x5800 (1 + 6 * tier + n) / 1024 / poolSize n

/-- R387: bytes of a port's rollout ingress buffer. -/
def ingressSize : Nat := 16777216

/-- R457: the 16 MiB rollout ingress buffer of a port in Ethernet mode. -/
def State.chargeIngress (s : State) (port : Nat) : State :=
  if s.num 0x4000 (port + 1) == 2 && !s.hasRef (.ingress port) && !s.mem.pools.isEmpty then
    (s.alloc .portReassembly (.ingress port) ingressSize [ownerId 2 port]).2
  else s

/-- R457: it is released when the port leaves Ethernet mode. -/
def State.releaseIngress (s : State) (port : Nat) : State :=
  if s.num 0x4000 (port + 1) == 2 then s else s.freeRef fun b => b == .ingress port

/-- R441, R457, R461: the pools carved anew, every line of them zero with valid parity; every buffer, list and charge is discarded, and
the Ethernet ports' ingress buffers are drawn. The counters of R463 return to 0 only on device reset, and retired buffers stay so until
then (R462), so a carving at a wake from PS3 keeps them. -/
def State.carve (s : State) (region : Nat) (keep : Bool) : State :=
  let one (tier n : Nat) : Pool :=
    let old := s.mem.pool tier n
    { tier := tier, n := n, total := s.poolBuffers tier n region,
      fallbacks := if keep then (old.map (·.fallbacks)).getD 0 else 0,
      gone := if keep then (old.map (·.gone)).getD [] else [],
      quarantine := if keep then (old.map (·.quarantine)).getD [] else [] }
  let s := { s with mem := { s.mem with
      systemRegion := region,
      pools := (List.range 6).map (one 0) ++ (List.range 6).map (one 1),
      bufs := [], waiting := [],
      tierFallbacks := if keep then s.mem.tierFallbacks else [0, 0] } }
  (s.ports.map (·.n)).foldl State.chargeIngress s

/-! ### Device data addresses (R435, R438, R462) -/

/-- The device data address of the first buffer of pool n of a tier. The spec does not say where pools lie: one after another in the
order of their numbers, behind the system region in LPDDR5X (DESIGN CHOICE). -/
def Pools.base (m : Pools) (tier n : Nat) : Nat :=
  (if tier == 1 then m.systemRegion * gb else 0) +
  ((List.range n).map fun k => match m.pool tier k with | some p => p.total * poolSize k | none => 0).sum

/-- Does buffer (pool, index) of a tier hold a device data address? -/
def Pools.holds (m : Pools) (tier a : Nat) (x : Nat × Nat) : Bool :=
  let first := m.base tier x.1 + x.2 * poolSize x.1
  first ≤ a && a < first + poolSize x.1

/-- R28: the DRAM tier that a controller serves. -/
def dramTier (unit : Nat) : Option Nat :=
  if 0x240 ≤ unit && unit < 0x248 then some 0 else if 0x250 ≤ unit && unit < 0x262 then some 1 else none

/-- R462: the buffer that holds an address yielded a parity error. -/
def State.suspectAt (s : State) (tier a : Nat) : State :=
  { s with mem := { s.mem with bufs := s.mem.bufs.map fun b =>
      if b.tier == tier then { b with suspect := b.suspect ++ b.parts.filter fun x => s.mem.holds tier a x && !b.suspect.contains x } else b } }

/-! ### Vocabularies and grammars (R302, R325, R444) -/


/-- R302, R444: the buffer that holds a vocabulary; the flag says whether there was room. -/
def State.drawVocab (s : State) (n bytes : Nat) : Bool × State := s.alloc .vocabulary (vocabRef n) bytes [ownerId 5 (64 + n)]
/-- R325, R444: the buffer that holds a grammar. -/
def State.drawGrammar (s : State) (n bytes : Nat) : Bool × State := s.alloc .vocabulary (grammarRef n) bytes [ownerId 5 (128 + n)]

/-- R302, R447: a text table that the media keep is held in memory again; its request waits when memory is short. -/
def State.drawText (s : State) (ref : BufRef) (holder bytes : Nat) : State :=
  if s.hasRef ref then s
  else match s.alloc .vocabulary ref bytes [ownerId 5 holder] with
    | (true, s) => s
    | (false, s) =>
      let w : BufWait := { use := .vocabulary, holder := holder, bytes := bytes, ref := some ref }
      if s.mem.waiting.contains w then s else { s with mem := { s.mem with waiting := s.mem.waiting ++ [w] } }

/-- R302: what the media keep is held in memory again after a mount. -/
def State.drawTexts (s : State) : State :=
  let s := s.vocabs.foldl (fun s v => s.drawText (vocabRef v.num) (64 + v.num) v.image.length) s
  s.grammars.foldl (fun s v => s.drawText (grammarRef v.num) (128 + v.num) v.image.length) s

end Sys2Proof.Machine
end

