-- ==== Sys2Proof/Machine/RunOps.lean ====
section
/-!
DEFINITION. Reading a recipe image (R119 to R128), an open block (R566) and the logical unit map (R768), and what a crew with
an open job is: its composition (R92 to R98) and its settings block (R406).
-/
namespace Sys2Proof.Machine

/-! ### The recipe image (R119, R120) -/

/-- SCOUNT. -/
def rcpScount (img : Bytes) : Nat := field img 5 1
/-- DSET. -/
def rcpDset (img : Bytes) : Nat := field img 8 2
/-- CLIM with its default. -/
def rcpClim (img : Bytes) : Nat := let c := field img 10 2; if c == 0xFFFF then 200 else c
/-- PLEN. -/
def rcpPlen (img : Bytes) : Nat := field img 12 4
/-- WCAP with its default. -/
def rcpWcap (img : Bytes) : Nat := let w := field img 16 8; if w == 0 then 2 ^ 32 else w
/-- DCOST. -/
def rcpDcost (img : Bytes) : Nat := field img 24 4
/-- Stage descriptor i. -/
def rcpStage (img : Bytes) (i : Nat) : Bytes := slice img (128 + 64 * i) 64
/-- The program area. -/
def rcpProg (img : Bytes) : Bytes := slice img (128 + 64 * rcpScount img) (rcpPlen img)
/-- The pack stage's descriptor. -/
def rcpPack (img : Bytes) : Bytes := rcpStage img (rcpScount img - 1)
/-- OP of a descriptor. -/
def stOp (d : Bytes) : Nat := field d 0 1
/-- SRC of a descriptor. -/
def stSrc (d : Bytes) : Nat := bits d 19 16
/-- DST of a descriptor. -/
def stDst (d : Bytes) : Nat := bits d 23 20
/-- BDSET of a descriptor. -/
def stBdset (d : Bytes) : Nat := bits d 79 64
/-- Slot n of a SLOTS field at bits [79:64]. -/
def stSlot (d : Bytes) (n : Nat) : Nat := bits d (67 + 4 * n) (64 + 4 * n)
/-- NSLOT or NCOL. -/
def stNslot (d : Bytes) : Nat := bits d 83 80
/-- ROWLEN of a pack-sequence descriptor. -/
def stRowlen (d : Bytes) : Nat := bits d 95 64
/-- SPLIT of a pack-sequence descriptor. -/
def stSplit (d : Bytes) : Bool := bits d 96 96 == 1
/-- PADID of a pack-sequence descriptor. -/
def stPadid (d : Bytes) : Nat := bits d 121 104
/-- The fan-outs of the hops of a graph-sample descriptor. -/
def stFans (d : Bytes) : List Nat := (List.range (bits d 95 88)).map fun i => bits d (103 + 8 * i) (96 + 8 * i)

/-- Does the recipe end in pack-sequence? -/
def Recipe.seq (r : Recipe) : Bool := stOp (rcpPack r.image) == 0x11

/-- R243, R256: ROWBYTES. -/
def Recipe.rowBytes (r : Recipe) : Nat := if r.seq then 8 * stRowlen (rcpPack r.image) else r.lens.sum

/-! ### The open block (R566) -/

/-- RESUME. -/
def jobResume (b : Bytes) : Bool := bits b 10 10 == 1
/-- M. -/
def jobM (b : Bytes) : Nat := field b 4 4
/-- B. -/
def jobB (b : Bytes) : Nat := field b 8 4
/-- FIRSTRANK. -/
def jobFirst (b : Bytes) : Nat := field b 12 4
/-- NRANK. -/
def jobNrank (b : Bytes) : Nat := field b 16 4
/-- E0. -/
def jobE0 (b : Bytes) : Nat := field b 20 4
/-- ELAST. -/
def jobElast (b : Bytes) : Nat := field b 24 4
/-- RATING. -/
def jobRating (b : Bytes) : Nat := field b 28 2
/-- LB. -/
def jobLb (b : Bytes) : Nat := field b 32 8
/-- SEED. -/
def jobSeed (b : Bytes) : Nat := field b 40 16

/-- Rank count M. -/
def Job.m (j : Job) : Nat := jobM j.block
/-- R96: rows of a batch, b = B / M. -/
def Job.b (j : Job) : Nat := jobB j.block / jobM j.block
/-- R92: positions of a rank per epoch, Q. -/
def Job.q (j : Job) : Nat := manNrec j.manifest / jobM j.block
/-- R94: heats of a rank per epoch. -/
def Job.heatCount (j : Job) : Nat := ceilDiv j.q j.h
/-- Job mode (R406). -/
def Job.mode (j : Job) : Nat := jobMode j.block
/-- Row number, from e0, of rank-local position q of an epoch, pack-fixed (R98). -/
def Job.row (j : Job) (epoch q : Nat) : Nat := (epoch - jobE0 j.block) * j.q + q
/-- R98: rows of a rank that fill batches, pack-fixed. -/
def Job.usedRows (j : Job) : Nat := j.row (jobElast j.block + 1) 0 / j.b * j.b
/-- Positions of a heat of an epoch. -/
def Job.heatLen (j : Job) (heat : Nat) : Nat := min j.h (j.q - heat * j.h)
/-- A rank's record. -/
def Job.rank (j : Job) (r : Nat) : Option RankJob := j.ranks.find? fun x => x.rank == r
/-- A rank's record changed. -/
def Job.modRank (j : Job) (r : Nat) (f : RankJob → RankJob) : Job :=
  { j with ranks := updWhere (fun x => x.rank == r) f j.ranks }
/-- A batch under assembly. -/
def Job.batch (j : Job) (r k : Nat) : Option Batch := j.batches.find? fun x => x.rank == r && x.k == k
/-- A batch changed. -/
def Job.modBatch (j : Job) (r k : Nat) (f : Batch → Batch) : Job :=
  { j with batches := updWhere (fun x => x.rank == r && x.k == k) f j.batches }
/-- A heat under assembly. -/
def Job.heat (j : Job) (r e h : Nat) : Option Heat := j.heats.find? fun x => x.rank == r && x.epoch == e && x.heat == h
/-- A heat changed. -/
def Job.modHeat (j : Job) (r e h : Nat) (f : Heat → Heat) : Job :=
  { j with heats := updWhere (fun x => x.rank == r && x.epoch == e && x.heat == h) f j.heats }

/-- A crew with its recipe and open job. -/
structure Run where
  crew : Crew
  rc   : Recipe
  job  : Job

/-- The run of a crew number. -/
def State.run (s : State) (n : Nat) : Option Run :=
  match s.crew n with
  | some c => match c.recipe, c.job with
    | some rc, some j => some ⟨c, rc, j⟩
    | _, _ => none
  | none => none

/-- R42: is the run's dataset entry of the job's generation: its manifest and placement. -/
def Run.slba (r : Run) (i : Nat) : Nat := (r.job.place.getD i (0, 0)).2

/-! ### The logical unit map (R17 to R21, R768) -/

/-- A logical lane that carries nothing (R630). -/
def noLane : Nat := 0xFF

/-- Physical eight of a logical eight. -/
def State.physEight (s : State) (e : Nat) : Nat := match s.faults.lmap.getD e none with | some (p, _) => p | none => 0xFF

/-- The physical lanes of a logical eight, by logical lane. -/
def State.lanes (s : State) (e : Nat) : List Nat := match s.faults.lmap.getD e none with | some (_, l) => l | none => []

/-- R17: physical engine of a logical engine. -/
def State.physEngine (s : State) (n : Nat) : Nat := 9 * s.physEight (n / 8) + (s.lanes (n / 8)).getD (n % 8) noLane

/-- Logical engines that an eight carries. -/
def State.liveLanes (s : State) (e : Nat) : List Nat :=
  ((s.lanes e).zipIdx.filter fun p => p.1 != noLane).map (·.2)

/-- R407: EMAP of a list of eights. -/
def State.emap (s : State) (eights : List Nat) : List Nat := eights.map fun e => (s.liveLanes e).length

/-- R93: L of a list of eights. -/
def State.engines (s : State) (eights : List Nat) : Nat := (s.emap eights).sum

/-! ### The settings block (R406 to R408) -/

/-- Offset of the version in a firmware image (R695); 0 without a running slot. -/
def State.fwVersion (s : State) : Nat :=
  match s.startup.running with
  | some 0 => field s.startup.slotA.image 8 8
  | some _ => field s.startup.slotB.image 8 8
  | none => 0

/-- R406: the settings block. -/
def settingsBlock (mode aclass m b fwver seed : Nat) (rhash mhash : Bytes) (emap : List Nat) : Bytes :=
  [0x01, byteOf mode, byteOf aclass, byteOf emap.length] ++ leBytes 4 m ++ leBytes 4 b ++ leBytes 4 emap.sum ++
  leBytes 8 fwver ++ leBytes 16 seed ++ fitTo 48 rhash ++ fitTo 48 mhash ++ fitTo 64 (emap.map byteOf) ++ zeros 56

/-- R408: the settings fingerprint. -/
def fingerprint (settings : Bytes) : Bytes := (sha384 settings).take 16

/-- R412: a settings block with another map. -/
def withEmap (settings : Bytes) (emap : List Nat) : Bytes :=
  settings.take 3 ++ [byteOf emap.length] ++ slice settings 4 8 ++ leBytes 4 emap.sum ++ slice settings 16 120 ++
  fitTo 64 (emap.map byteOf) ++ zeros 56

end Sys2Proof.Machine
end

