-- ==== Sys2Proof/Machine/TextOps.lean ====
section
/-!
DEFINITION. The text unit ("The text unit and the rollout return path"): vocabularies, tokenization, detokenization with
UTF-8 validation and stop strings, grammars (R300 to R327).
-/
namespace Sys2Proof.Machine

/-! ### Vocabulary images (R300 to R302) -/

/-- R300 NTOK. -/
def vocNtok (v : Bytes) : Nat := bits v 95 64
/-- R300 NMERGE. -/
def vocNmerge (v : Bytes) : Nat := bits v 127 96
/-- R300 MODEL. -/
def vocModel (v : Bytes) : Nat := bits v 47 40
/-- R300 SPLIT bit of a byte value. -/
def vocSplit (v : Bytes) (b : Byte) : Bool := bits v (192 + b.toNat) (192 + b.toNat) == 1
/-- Offset of the byte table. -/
def vocByteTab (v : Bytes) : Nat := 64 + 16 * vocNtok v
/-- Offset of the string area. -/
def vocStrings (v : Bytes) : Nat := vocByteTab v + 1024 + 12 * vocNmerge v
/-- R301: SLEN of token t. -/
def vocSlen (v : Bytes) (t : Nat) : Nat := field v (64 + 16 * t + 4) 2
/-- R301: SPECIAL of token t. -/
def vocSpecial (v : Bytes) (t : Nat) : Bool := field v (64 + 16 * t + 6) 1 % 2 == 1
/-- R301: the string of token t. -/
def vocString (v : Bytes) (t : Nat) : Bytes := slice v (vocStrings v + field v (64 + 16 * t) 4) (vocSlen v t)
/-- R301: SCORE of token t. -/
def vocScore (v : Bytes) (t : Nat) : Int :=
  let n := field v (64 + 16 * t + 8) 4
  if n < 2147483648 then n else (n : Int) - 4294967296
/-- R301: the byte table's token of a byte. -/
def vocByte (v : Bytes) (b : Byte) : Nat := field v (vocByteTab v + 4 * b.toNat) 4
/-- R301: merge k: left, right, result. -/
def vocMerge (v : Bytes) (k : Nat) : Nat × Nat × Nat :=
  let o := vocByteTab v + 1024 + 12 * k
  (field v o 4, field v (o + 4) 4, field v (o + 8) 4)

/-- R302: the byte offset, in the image, of the first thing a load refuses; none when the image passes. -/
def vocBad (v : Bytes) : Option Nat :=
  let n := vocNtok v
  let m := vocNmerge v
  let sarea := bits v 159 128
  if bits v 39 32 != 1 then some 4
  else if bits v 31 0 != 0xC4A5D339 then some 0
  else if vocModel v != 1 && vocModel v != 2 then some 5
  else if n < 256 || 262144 < n then some 8
  else if (if vocModel v == 1 then n - 256 < m else 0 < m) then some 12
  else if sarea < 1 || 16777216 < sarea then some 16
  else if v.length != vocStrings v + sarea then some 16
  else
    match (List.range n).find? fun t =>
        (if vocSpecial v t then vocSlen v t != 0 else vocSlen v t < 1 || 256 < vocSlen v t) ||
        sarea < field v (64 + 16 * t) 4 + vocSlen v t with
    | some t => some (64 + 16 * t)
    | none =>
      match (List.range 256).find? fun b =>
          let t := vocByte v (byteOf b)
          n ≤ t || vocSpecial v t || vocString v t != [byteOf b] with
      | some b => some (vocByteTab v + 4 * b)
      | none =>
        ((List.range m).find? fun k =>
          let (l, r, x) := vocMerge v k
          n ≤ l || n ≤ r || n ≤ x || vocString v x != vocString v l ++ vocString v r).map fun k =>
            vocByteTab v + 1024 + 12 * k

/-! ### Tokenization (R304 to R307) -/

/-- R304: the pieces of a text: `cur` is the piece under way, newest byte first, of `n` bytes. -/
def cutPieces (v : Bytes) : Bytes → Bytes → Nat → List Bytes
  | [], cur, n => if n == 0 then [] else [cur.reverse]
  | b :: bs, cur, n =>
    if n != 0 && (vocSplit v b || n == 4096) then cur.reverse :: cutPieces v bs [b] 1
    else cutPieces v bs (b :: cur) (n + 1)

/-- R305: the rank and result of the pair (x, y), from merge k up. -/
def mergeOf (v : Bytes) (x y : Nat) : Option (Nat × Nat) :=
  (List.range (vocNmerge v)).findSome? fun k =>
    let (l, r, z) := vocMerge v k
    if l == x && r == y then some (k, z) else none

/-- R305: the lowest-ranked pair of a sequence, leftmost on a tie: rank, index, result. -/
def bestPair (v : Bytes) : List Nat → Nat → Option (Nat × Nat × Nat)
  | x :: y :: rest, i =>
    let later := bestPair v (y :: rest) (i + 1)
    match mergeOf v x y with
    | none => later
    | some (k, z) => match later with
      | some (k', _, _) => if k' < k then later else some (k, i, z)
      | none => some (k, i, z)
  | _, _ => none

/-- R305: merges applied until none matches; each shortens the sequence, so its length bounds them. -/
def applyMerges (v : Bytes) : Nat → List Nat → List Nat
  | 0, l => l
  | fuel + 1, l => match bestPair v l 0 with
    | none => l
    | some (_, i, z) => applyMerges v fuel (l.take i ++ z :: l.drop (i + 2))

/-- R306: a sequence of tokens with its score sum. -/
structure UniBest where
  score : Int
  toks  : List Nat
  firstLen : Nat
  deriving DecidableEq, Repr, Inhabited

/-- R306: the better of two sequences that cover the same bytes: score, then fewer tokens, then the longer first token. -/
def UniBest.pick (a b : UniBest) : UniBest :=
  if a.score != b.score then (if a.score < b.score then b else a)
  else if a.toks.length != b.toks.length then (if b.toks.length < a.toks.length then b else a)
  else if a.firstLen != b.firstLen then (if a.firstLen < b.firstLen then b else a)
  else if Config.tieToken (a.toks.headD 0) (b.toks.headD 0) then a else b

/-- R306: best sequences for every suffix of a piece, the whole piece first. -/
def uniTable (v : Bytes) (toks : List (Nat × Bytes × Int)) : Bytes → List (Option UniBest)
  | [] => [some { score := 0, toks := [], firstLen := 0 }]
  | b :: bs =>
    let tail := uniTable v toks bs
    let here := toks.foldl (fun (acc : Option UniBest) (t, str, sc) =>
      if str.isPrefixOf (b :: bs) then
        match tail.getD (str.length - 1) none with
        | none => acc
        | some r =>
          let cand : UniBest := { score := sc + r.score, toks := t :: r.toks, firstLen := str.length }
          some (match acc with | none => cand | some a => a.pick cand)
      else acc) none
    here :: tail

/-- The tokens of a piece (R305, R306). -/
def tokenizePiece (v : Bytes) (p : Bytes) : List Nat :=
  if vocModel v == 1 then applyMerges v p.length (p.map (vocByte v))
  else
    let toks := ((List.range (vocNtok v)).filter fun t => !vocSpecial v t).map fun t => (t, vocString v t, vocScore v t)
    match (uniTable v toks p).headD none with
    | some r => r.toks
    | none => []

/-- R307: the pieces that end within the first 1,048,576 bytes. -/
def piecesWithin : Nat → List Bytes → List Bytes
  | _, [] => []
  | used, p :: ps => if used + p.length ≤ 1048576 then p :: piecesWithin (used + p.length) ps else []

/-- R304 to R308: the tokens of a text and whether it was cut; `d` is the tokenize descriptor. -/
def tokenizeText (v d : Bytes) (text : Bytes) : List Nat × Bool :=
  let cut := 1048576 < text.length
  let ps := cutPieces v text [] 0
  let body := (if cut then piecesWithin 0 ps else ps).flatMap (tokenizePiece v)
  let bos := if bits d 116 116 == 1 then [bits d 97 80] else []
  let eos := if bits d 117 117 == 1 then [bits d 115 98] else []
  (bos ++ body ++ eos, cut)

/-! ### UTF-8 (R317, R318) -/

/-- R317: may byte `b` follow a carry? `none`: no; `some true`: it completes a sequence; `some false`: more are needed. -/
def utfNext (carry : Bytes) (b : Byte) : Option Bool :=
  let c := b.toNat
  let cont := 0x80 ≤ c && c ≤ 0xBF
  match carry.map BitVec.toNat with
  | [] =>
    if c ≤ 0x7F then some true
    else if 0xC2 ≤ c && c ≤ 0xF4 then some false
    else none
  | [f] =>
    if 0xC2 ≤ f && f ≤ 0xDF then (if cont then some true else none)
    else
      let lo := if f == 0xE0 then 0xA0 else if f == 0xF0 then 0x90 else 0x80
      let hi := if f == 0xED then 0x9F else if f == 0xF4 then 0x8F else 0xBF
      if lo ≤ c && c ≤ hi then some false else none
  | [f, _] => if cont then some (f < 0xF0) else none
  | _ => if cont then some true else none

/-- U+FFFD as its UTF-8 bytes. -/
def replacement : Bytes := [0xEF, 0xBF, 0xBD]

/-- R317: a byte with the carry: the units that leave the validator (bytes, whether they are a substitution) and the carry. -/
def utfByte (carry : Bytes) (b : Byte) : List (Bytes × Bool) × Bytes :=
  match utfNext carry b with
  | some true => ([(carry ++ [b], false)], [])
  | some false => ([], carry ++ [b])
  | none =>
    if carry.isEmpty then ([(replacement, true)], [])
    else
      match utfNext [] b with
      | some true => ([(replacement, true), ([b], false)], [])
      | some false => ([(replacement, true)], [b])
      | none => ([(replacement, true), (replacement, true)], [])

/-! ### Stop strings (R319 to R321) -/

/-- R319: the longest suffix of `out` that is a proper prefix of some stop string; `out` is at most 64 bytes. -/
def heldSuffix (stops : List Bytes) : Bytes → Bytes
  | [] => []
  | b :: bs => if stops.any fun p => p.length != (b :: bs).length && (b :: bs).isPrefixOf p then b :: bs else heldSuffix stops bs

/-- R321: the stop string that ends `out`: the longest, then the lowest index. -/
def stopAt (stops : List Bytes) (out : Bytes) : Option (Nat × Nat) :=
  stops.zipIdx.foldl (fun (best : Option (Nat × Nat)) (p, i) =>
    if !p.isEmpty && p.reverse.isPrefixOf out.reverse then
      match best with
      | some (_, l) => if l < p.length then some (i, p.length) else best
      | none => some (i, p.length)
    else best) none

/-- A validated byte at the matcher (R319 to R321): the stream after, and the stop string it completes. -/
def Stream.matchByte (stops : List Bytes) (t : Stream) (b : Byte) : Stream × Bool :=
  let out := t.held ++ [b]
  match stopAt stops out with
  | some (i, l) =>
    let keep := out.take (out.length - l)
    ({ t with text := t.text ++ keep, held := [], stopIdx := some i, stopOff := some (t.text.length + keep.length) }, true)
  | none =>
    let h := heldSuffix stops out
    ({ t with text := t.text ++ out.take (out.length - h.length), held := h }, false)

/-- Validated bytes at the matcher, up to a stop. -/
def Stream.matchBytes (stops : List Bytes) : Stream → Bytes → Stream × Bool
  | t, [] => (t, false)
  | t, b :: bs => match t.matchByte stops b with
    | (t, true) => (t, true)
    | (t, false) => Stream.matchBytes stops t bs

/-- R318: a substitution counted, with the output offset of the first. -/
def Stream.substitution (t : Stream) : Stream :=
  { t with nbad := t.nbad + 1, badOff := if t.badOff.isNone then some (t.text.length + t.held.length) else t.badOff }

/-- Units of the validator at the matcher. -/
def Stream.matchUnits (stops : List Bytes) : Stream → List (Bytes × Bool) → Stream × Bool
  | t, [] => (t, false)
  | t, (u, sub) :: us =>
    match (if sub then t.substitution else t).matchBytes stops u with
    | (t, true) => (t, true)
    | (t, false) => Stream.matchUnits stops t us

/-- A token's bytes through validator and matcher, up to a stop. -/
def Stream.feed (stops : List Bytes) : Stream → Bytes → Stream × Bool
  | t, [] => (t, false)
  | t, b :: bs =>
    let (us, carry) := utfByte t.carry b
    match ({ t with carry := carry } : Stream).matchUnits stops us with
    | (t, true) => (t, true)
    | (t, false) => Stream.feed stops t bs

/-- R318, R323: the stream's end: the held tail is released and a carry becomes one U+FFFD. -/
def Stream.flush (t : Stream) : Stream :=
  let t := { t with text := t.text ++ t.held, held := [] }
  if t.carry.isEmpty then t
  else { t.substitution with text := t.text ++ replacement, carry := [] }

/-- R323 reason 3: output bytes with a carry counted as 3. -/
def Stream.output (t : Stream) : Nat := t.text.length + t.held.length + (if t.carry.isEmpty then 0 else 3)

/-- The tokens of a message, one after another, until the stream ends (R316, R320 to R324). -/
def Stream.takeTokens (voc : Bytes) (stops : List Bytes) (ends : List Nat) : Stream → List Nat → Stream
  | t, [] => t
  | t, x :: xs =>
    let invalid := vocNtok voc ≤ x
    let str := if invalid || vocSpecial voc x then [] else vocString voc x
    let isEnd := ends.contains x
    let eaten : Stream := { t with tokens := t.tokens ++ [x], nbadTok := if invalid then t.nbadTok + 1 else t.nbadTok }
    let (after, stopped) := eaten.feed stops (if isEnd then [] else str)
    if t.tokens.length == 262144 then { t.flush with ended := some 4, ndisc := t.ndisc + xs.length + 1 }
    else if stopped then { after with ended := some 0, carry := [], ndisc := t.ndisc + xs.length }
    else if isEnd then { eaten.flush with ended := some 1, ndisc := t.ndisc + xs.length }
    else if 1048576 < after.output then { t.flush with ended := some 3, ndisc := t.ndisc + xs.length + 1 }
    else Stream.takeTokens voc stops ends after xs

/-! ### Grammars (R325 to R327) -/

/-- R325 NCLASS. -/
def gramClasses (g : Bytes) : Nat := bits g 47 40
/-- R325 NSTATE. -/
def gramStates (g : Bytes) : Nat := bits g 95 64
/-- Offset of the transition table. -/
def gramTable (g : Bytes) : Nat := 320 + ((gramStates g + 7) / 8 + 63) / 64 * 64

/-- R302, R325: the byte offset of the first thing a grammar load refuses. -/
def gramBad (g : Bytes) : Option Nat :=
  let nc := gramClasses g
  let ns := gramStates g
  if bits g 39 32 != 1 then some 4
  else if bits g 31 0 != 0xC4A5D33A then some 0
  else if nc < 1 || 64 < nc then some 5
  else if ns < 1 || 65536 < ns then some 8
  else if ns ≤ bits g 111 96 then some 12
  else if g.length != gramTable g + 4 * ns * nc then some 8
  else
    match (List.range 256).find? fun b => nc ≤ field g (64 + b) 1 with
    | some b => some (64 + b)
    | none => ((List.range (ns * nc)).find? fun i => ns ≤ field g (gramTable g + 4 * i) 2).map fun i => gramTable g + 4 * i

/-- R326: the grammar over a text: final state and stack, or rejected. -/
def gramRun (g : Bytes) : Nat → List Nat → Bytes → Option (Nat × List Nat)
  | st, stack, [] => some (st, stack)
  | st, stack, b :: bs =>
    let cls := field g (64 + b.toNat) 1
    let e := field g (gramTable g + 4 * (st * gramClasses g + cls)) 4
    let sym := e / 2 ^ 18 % 256
    let next := e % 65536
    match e / 2 ^ 16 % 4 with
    | 0 => gramRun g next stack bs
    | 1 => if 256 ≤ stack.length then none else gramRun g next (sym :: stack) bs
    | 2 => match stack with
      | x :: rest => if x == sym then gramRun g next rest bs else none
      | [] => none
    | _ => none

/-- R327: the verdict of a text. -/
def gramVerdict (g : Bytes) (text : Bytes) : Nat :=
  match gramRun g (bits g 111 96) [] text with
  | none => 1
  | some (st, stack) => if field g (320 + st / 8) 1 / 2 ^ (st % 8) % 2 == 1 && stack.isEmpty then 0 else 2

end Sys2Proof.Machine
end

