-- ==== Sys2Proof/Machine/SampleOps.lean ====
section
/-!
DEFINITION. The stages of a recipe run on a sample ("Recipes", "Sample engines, contexts and number formats"): charges and
the cap (R152, R153), the fixed-function and walk stages, findings of decode stages (R219), and what a context releases.
-/
namespace Sys2Proof.Machine

/-- Why a sample is dropped (R104). -/
inductive Drop
  | absent
  | readError
  | damaged
  | filtered
  | capped
  /-- A check value that does not match: the SUB of the eight-shared unit that found it, none for the engine; the ADDR of
  kind 0x13; and whether R279 counts it. -/
  | mismatch (sub : Option Nat) (addr : Nat) (graph : Bool)
  deriving DecidableEq, Repr, Inhabited

/-! ### Contexts -/

/-- The logical engine that holds a context (R19). -/
def Context.engine (c : Context) : Nat := c.num / 32

/-- The logical eight that holds a context. -/
def Context.eight (c : Context) : Nat := c.num / 256

/-- R92: rank-local position. -/
def Context.q (c : Context) (j : Job) : Nat := c.pos / j.m

/-- R94: heat index. -/
def Context.heat (c : Context) (j : Job) : Nat := c.q j / j.h

/-- R94: index within the heat. -/
def Context.idx (c : Context) (j : Job) : Nat := c.q j % j.h

/-- R239 ATTEMPT. -/
def Context.attempt (c : Context) : Nat := c.tries - 1

/-- A slot's value; a slot not written reads null. -/
def Context.slot (c : Context) (n : Nat) : Val := (c.slots.find? fun p => p.1 == n).elim .null (·.2)

/-- R123: a slot written. -/
def Context.put (c : Context) (n : Nat) (v : Val) : Context := { c with slots := (n, v) :: c.slots.filter fun p => p.1 != n }

/-- R152, R175: a charge added; the stage whose charge first passed the cap is kept. -/
def Context.charge (c : Context) (wcap stage n : Nat) : Context :=
  { c with work := c.work + n,
           capStage := if c.capStage.isNone && wcap < c.work + n then some stage else c.capStage }

/-- A fault of the logical engine that holds a sample. -/
def State.raiseEngine (s : State) (c : Context) (kind addr : Nat) : State :=
  s.raise { unit := c.engine, kind := kind, phys := some (s.physEngine c.engine), crew := some c.crew, addr := addr,
            ctx := some (c.sid, c.pos) }

/-- A fault of an eight-shared unit of the eight that holds a sample. -/
def State.raiseEight (s : State) (c : Context) (sub kind addr : Nat) : State :=
  s.raise { unit := 0x200 + c.eight, sub := sub, kind := kind, phys := some (s.physEight c.eight), crew := some c.crew,
            addr := addr, ctx := some (c.sid, c.pos) }

/-! ### Findings of decode stages (R219, R220) -/

/-- R220: a page 0x33 entry. -/
def concealEntry (c : Context) (j : Job) (stage tag outcome d t first last : Nat) : Bytes :=
  [0x01, byteOf c.crew, byteOf stage, byteOf tag] ++ leBytes 2 c.rank ++ [byteOf outcome, 0] ++ leBytes 8 c.sid ++
  leBytes 8 c.pos ++ leBytes 4 c.epoch ++ zeros 4 ++ leBytes 8 (c.heat j) ++ leBytes 4 d ++ leBytes 4 t ++ leBytes 4 first ++
  leBytes 4 last ++ zeros 8

/-- A ring's newest entry added; beyond `cap` the oldest is overwritten and counted. -/
def Ring.add (r : Ring) (cap : Nat) (e : Bytes) : Ring :=
  let full := cap ≤ r.entries.length
  { entries := (if full then r.entries.drop 1 else r.entries) ++ [e],
    lost := if full then r.lost + 1 else r.lost, total := r.total + 1 }

/-- R219: a decode stage conceals damage, or the damage is beyond the limit: logged, counted and raised once for a stage
however often its sample is made. -/
def State.finding (s : State) (r : Run) (c : Context) (stage tag outcome d t first last : Nat) : State :=
  if c.logged.contains stage then s else
    let s := { s with concealLog := s.concealLog.add 4096 (concealEntry c r.job stage tag outcome d t first last) }
    if outcome == 0 then
      let s := if c.concealed then s else s.modCrew c.crew fun k => { k with concealed := (k.concealed + 1) % 4294967296 }
      s.raiseEngine c 0x12 c.epoch
    else s.modCrew c.crew fun k => { k with damageDrops := (k.damageDrops + 1) % 4294967296 }

/-! ### Stages -/

/-- A stage's outcome: the state with what it logged, and the context or a drop. -/
abbrev StageOut := State × (Context ⊕ Drop)

/-- A stage's result written: value, charge and next stage. -/
def Context.stageDone (c : Context) (r : Run) (d : Bytes) (v : Val) (charge : Nat) : Context :=
  { (c.put (stDst d) v).charge (rcpWcap r.rc.image) c.stage charge with stage := c.stage + 1 }

/-- R153: the charge of a decode stage. -/
def decodeCharge (enc scans : Nat) (v : Val) : Nat :=
  ceilDiv enc 64 + scans + match v with
    | .image h w _ _ _ => h * w
    | .audio f _ _ _ => f
    | _ => 0

/-- The eight-shared unit that decodes a content tag (R193): the pixel unit for JPEG, entropy decoder 0 for PNG and FLAC, none for PCM,
which the context unpacks. -/
def decodeSub (tag : Nat) : Option Nat := if tag == 0x01 then some 3 else if tag == 0x02 || tag == 0x03 then some 1 else none

/-- R155, R195, R196: the decode stage. -/
def stageDecode (s : State) (r : Run) (c : Context) (d : Bytes) : StageOut :=
  match c.slot (stSrc d) with
  | .bytes tag b =>
    let c := { c with used := (decodeSub tag).toList ++ c.used }
    match decodeContent tag (bits d 71 64) (bits d 79 72) b with
    | .bad code => (s, .inr (.mismatch (decodeSub tag) (Config.structuralAddr tag c.stage code) false))
    | .ok v dm t first last scans =>
      let c' := c.stageDone r d v (decodeCharge b.length scans v)
      if c'.capStage.isSome || dm == 0 then (s, .inl c')
      else if dm * 10000 ≤ rcpClim r.rc.image * t then
        (s.finding r c c.stage tag 0 dm t first last, .inl { c' with concealed := true, logged := c.stage :: c.logged })
      else (s.finding r c c.stage tag 1 dm t first last, .inr .damaged)
  | _ => (s, .inl (c.stageDone r d .null 0))

/-- Bytes a decompress stage makes: at most OMAX + 1, or a structural fault with what it made before. -/
def decompress (method omax : Nat) (b : Bytes) : Decoded :=
  if method == 1 then
    match inflate (omax + 1) b with
    | (out, .done []) => .ok out
    | (out, .over) => .ok (out ++ [0])
    | (out, _) => .bad 0x05 out.length
  else zstd (omax + 1) b

/-- R126: the decompress stage. -/
def stageDecompress (s : State) (r : Run) (c : Context) (d : Bytes) : StageOut :=
  let omax := bits d 127 96
  match c.slot (stSrc d) with
  | .bytes tag b =>
    let c := { c with used := 1 :: c.used }
    let charged (n : Nat) := c.charge (rcpWcap r.rc.image) c.stage (ceilDiv n 64)
    match decompress (bits d 71 64) omax b with
    | .ok out =>
      if out.length ≤ omax then (s, .inl (c.stageDone r d (.bytes (bits d 79 72) out) (ceilDiv out.length 64)))
      else if (charged omax).capStage.isSome then (s, .inl (charged omax))
      else (s, .inr (.mismatch (some 1) (Config.structuralAddr tag c.stage 0x05) false))
    | .bad code made =>
      if (charged (min made omax)).capStage.isSome then (s, .inl (charged (min made omax)))
      else (s, .inr (.mismatch (some 1) (Config.structuralAddr tag c.stage code) false))
  | _ => (s, .inl (c.stageDone r d .null 0))

/-- R304 to R308, R340: the tokenize stage. -/
def stageTokenize (s : State) (r : Run) (c : Context) (d : Bytes) : StageOut :=
  match c.slot (stSrc d), s.vocabs.find? (fun v => v.num == stBdset d) with
  | .text b, some voc =>
    let (ids, cut) := tokenizeText voc.image d b
    let c' := c.stageDone r d (.tokens ids) (ceilDiv b.length 16 + ids.length)
    if cut && !c.logged.contains c.stage then
      (s.modCrew c.crew fun k => { k with tokTrunc := (k.tokTrunc + 1) % 4294967296 },
       .inl { c' with logged := c.stage :: c.logged })
    else (s, .inl c')
  | _, _ => (s, .inl (c.stageDone r d .null 0))

/-- R149: set tables are laid out without a seed, since none is known at LOAD RECIPE; the layout reaches no result (R150). -/
def tableSeed : Nat := 0

/-- R150: the set-member stage: a null value is not a member. -/
def stageMember (s : State) (r : Run) (c : Context) (d : Bytes) : StageOut :=
  let set (n : Int) (c : Context) : Context := { c with cvals := c.cvals.set (bits d 83 80) n }
  match setKey (c.slot (stSrc d)), r.rc.tables.find? (fun t => t.dset == stBdset d) with
  | some k, some t =>
    let c := set (if t.has tableSeed k then 1 else 0) { c with used := 4 :: c.used }
    (s, .inl { c.charge (rcpWcap r.rc.image) c.stage 8 with stage := c.stage + 1 })
  | _, _ => (s, .inl { set 0 c with stage := c.stage + 1 })

/-- The graph as the media hold it. -/
def State.graphEnv (s : State) (ds : Dataset) (key : Nat → Nat) : GraphEnv :=
  { v := manV ds.manifest, e := manE ds.manifest, key := key,
    rowoff := fun n => readElem s.media ds.manifest ds.place 0 n,
    col := fun g => readElem s.media ds.manifest ds.place 1 g }

/-- R276 to R285: the graph-sample stage. -/
def stageGraph (s : State) (r : Run) (c : Context) (d : Bytes) : StageOut :=
  match c.slot (stSrc d), s.catalogue.find? (fun x => x.dset == stBdset d) with
  | .scalar _ v0, some ds =>
    let c := { c with used := 4 :: c.used }
    let wcap := rcpWcap r.rc.image
    let fans := stFans d
    let key (g : Nat) := keyed r.job.seed 0x05 [c.sid, c.epoch, c.pos, c.stage * 2 ^ 48 + g]
    match graphSample (s.graphEnv ds key) (wcap - c.work) fans v0 with
    | .done nodes edges hend n =>
      (s, .inl (c.stageDone r d (.subgraph nodes (nmaxOf fans) (manV ds.manifest)
        (subgraphBytes fans.length (nmaxOf fans) nodes edges hend)) n))
    | .drop node _ lost n =>
      let c' := c.charge wcap c.stage n
      if c'.capStage.isSome then (s, .inl c')
      else (s, .inr (if lost then .readError else .mismatch (some 4) node true))
  | _, _ => (s, .inl (c.stageDone r d .null 0))

/-- R286: rows of a tensor dataset, one after another. -/
def gatherRows (m : Media) (man : Bytes) (place : List (Nat × Nat)) : List Nat → Bytes → Bytes ⊕ (Bool × Nat)
  | [], acc => .inl acc
  | n :: ns, acc => match readRow m man place n with
    | .inl b => gatherRows m man place ns (acc ++ b)
    | .inr e => .inr e

/-- R286, R287: the gather stage. -/
def stageGather (s : State) (r : Run) (c : Context) (d : Bytes) : StageOut :=
  match c.slot (stSrc d), s.catalogue.find? (fun x => x.dset == stBdset d) with
  | .subgraph nodes _ _ _, some ds =>
    let c := { c with used := 4 :: c.used }
    match gatherRows s.media ds.manifest ds.place nodes [] with
    | .inl b =>
      let et := manEtype ds.manifest
      let n := nodes.length * manD ds.manifest
      (s, .inl (c.stageDone r d (.tensor et [nodes.length, manD ds.manifest] ((chunks (typeSize et) n b).map leNat))
        (ceilDiv b.length 64)))
    | .inr (lost, g) => (s, .inr (if lost then .readError else .mismatch (some 4) g true))
  | _, _ => (s, .inl (c.stageDone r d .null 0))

/-- Is the operation run by a unit outside the engine, whose result the context waits for (R165)? -/
def isUnitOp (op : Nat) : Bool := op == 0x02 || op == 0x03 || op == 0x04 || op == 0x0C || op == 0x0D || op == 0x0E

/-- A unit stage run. -/
def stageUnit (s : State) (r : Run) (c : Context) (d : Bytes) : StageOut :=
  match stOp d with
  | 0x02 => stageDecode s r c d
  | 0x03 => stageDecompress s r c d
  | 0x04 => stageTokenize s r c d
  | 0x0C => stageMember s r c d
  | 0x0D => stageGraph s r c d
  | _ => stageGather s r c d

/-- R145: what a filter program of a sample reads. -/
def Context.filterEnv (c : Context) (j : Job) (k : Keying) : FilterEnv :=
  { fields := fun a imm => fieldPush (c.fields.getD a .null) imm,
    draw := k.draw,
    items := fun i =>
      if 16 ≤ i && i ≤ 31 then c.cvals.getD (i - 16) 0
      else if 32 ≤ i && i ≤ 47 then (c.slot (i - 32)).count
      else if 48 ≤ i && i ≤ 63 then (c.slot (i - 48)).dim0
      else match i with
        | 0 => c.sid
        | 1 => c.epoch
        | 2 => c.pos
        | 3 => c.rank
        | 4 => c.heat j
        | 5 => c.attempt
        | 6 => c.rlen
        | 7 => (c.sid / 2 ^ 48 : Nat)
        | 8 => (c.sid / 2 ^ 24 % 2 ^ 24 : Nat)
        | 9 => (c.sid % 2 ^ 24 : Nat)
        | 10 => if c.concealed then 1 else 0
        | _ => 0 }

/-- Element count of a value as the charges of R153 count it. -/
def Val.els : Val → Nat
  | .scalar _ _ => 1
  | .tensor _ _ l => l.length
  | .image _ _ _ _ l => l.length
  | .audio _ _ _ l => l.length
  | _ => 0

/-- Stages the engine runs itself: crop, resize, flip, normalise, audio resample, convert, filter and concatenate. A null
source gives null and charges nothing (R124). -/
def stageEngine (r : Run) (c : Context) (d : Bytes) : Context ⊕ Drop :=
  let k : Keying := { seed := r.job.seed, sid := c.sid, epoch := c.epoch, pos := c.pos, stage := c.stage }
  let v := c.slot (stSrc d)
  let done (out : Val) (n : Nat) : Context ⊕ Drop := .inl (c.stageDone r d out n)
  if stOp d == 0x0B then
    let code := filterCode (rcpProg r.rc.image) (bits d 95 80) (bits d 111 96)
    let (res, n) := runFilter (c.filterEnv r.job k) code
    let c' := { c.charge (rcpWcap r.rc.image) c.stage n with stage := c.stage + 1 }
    if bits d 71 64 == 0 then
      if c'.capStage.isNone && res == 0 then .inr .filtered else .inl c'
    else .inl { c' with cvals := c'.cvals.set (bits d 75 72) res }
  else if stOp d == 0x0F then
    let out := concatVal ((List.range (stNslot d)).map fun i => c.slot (stSlot d i))
    done out (ceilDiv out.bytesOf.length 64)
  else if v == .null then done .null 0
  else match stOp d with
    | 0x05 => done (cropVal d k v) 1
    | 0x06 => let out := resizeVal d v; done out out.els
    | 0x07 => done (flipVal d k v) (ceilDiv v.bytesOf.length 64)
    | 0x08 => match normaliseVal d v with
      | some out => done out out.els
      | none => .inr (.mismatch none (Config.structuralAddr 0 c.stage 0x03) false)
    | 0x09 =>
      let out := resampleVal d (rcpProg r.rc.image) v
      done out (if bits d 71 64 == 0 then out.els else out.els * (bits d 79 72 / 2))
    | _ => done (convertVal d k v) v.els

/-! ### The pack stage (R239 to R248, R253) -/

/-- The header of a context's contribution; BATCH and SLOT of a pack-fixed row (R98). -/
def Context.header (c : Context) (r : Run) : Hdr :=
  let t := r.job.row c.epoch (c.q r.job)
  { concealed := c.concealed, substituted := c.tries != 0, attempt := c.attempt, epoch := c.epoch, sid := c.sid, pos := c.pos,
    batch := if r.rc.seq then 0 else t / r.job.b, rank := c.rank, slot := if r.rc.seq then 0 else t % r.job.b,
    subof := if c.tries == 0 then 0 else c.origSid, rcrc := c.rcrc }

/-- R243 to R248: the pack-fixed stage. -/
def packFixed (r : Run) (c : Context) (d : Bytes) : Context :=
  let vals := (List.range (stNslot d)).map fun i => c.slot (stSlot d i)
  let cols := (vals.zip r.rc.lens).map fun (v, len) => columnBytes len v
  let nulls := (vals.zipIdx.map fun (v, i) => if v == .null then 2 ^ i else 0).sum
  let h := { c.header r with truncated := cols.any (·.2.2), nullmask := nulls, plen := (cols.headD ([], 0, false)).2.1 }
  { c.charge (rcpWcap r.rc.image) c.stage (ceilDiv r.rc.rowBytes 64) with
    out := some (.row (cols.flatMap (·.1))), hdr := h, st := .release }

/-- R254: tokens kept of a value of `l` tokens, and whether it was cut. -/
def keptTokens (rl : Nat) (split : Bool) (l : Nat) : Nat × Bool :=
  let most := if split then 256 * rl else rl
  (min l most, most < l)

/-- R253, R254: the pack-sequence stage. -/
def packSeq (r : Run) (c : Context) (d : Bytes) : Context :=
  let ids := match c.slot (stSrc d) with | .tokens l => l | _ => []
  let (kept, cut) := keptTokens (stRowlen d) (stSplit d) ids.length
  { c.charge (rcpWcap r.rc.image) c.stage (ceilDiv (8 * kept) 64) with
    out := some (.toks ids), hdr := { c.header r with truncated := cut }, st := .release }

/-- R122, R165: the stages from the context's next one on, until it waits for a unit, has its contribution, passes the cap or
is dropped; `fuel` is at least the stages left. A sample past the cap stays in RUN until the check (R175). -/
def runStages (r : Run) : Nat → Context → Context ⊕ Drop
  | 0, c => .inl c
  | fuel + 1, c =>
    if c.capStage.isSome then .inl { c with st := .run, out := none } else
      let d := rcpStage r.rc.image c.stage
      let op := stOp d
      if op == 0x10 || op == 0x11 then
        let c' := if op == 0x10 then packFixed r c d else packSeq r c d
        if c'.capStage.isSome then .inl { c' with st := .run, out := none } else .inl c'
      else if isUnitOp op && c.slot (stSrc d) != .null then .inl { c with st := .waitUnit }
      else if isUnitOp op then
        match stOp d with
        | 0x0C => runStages r fuel { c with cvals := c.cvals.set (bits d 83 80) 0, stage := c.stage + 1 }
        | _ => runStages r fuel (c.stageDone r d .null 0)
      else match stageEngine r c d with
        | .inl c' => runStages r fuel c'
        | .inr x => .inr x

/-- R57, R125: the fetch stage on a record as it reads back. -/
def stageFetch (r : Run) (c : Context) (rec_ : RecRes) : Context ⊕ Drop :=
  match rec_ with
  | .absent => .inr .absent
  | .lost => .inr .readError
  | .bad blk => .inr (.mismatch none (blk.getD Config.recordAddr) false)
  | .ok body rcrc coded =>
    match parseBody r.job.manifest body with
    | none => .inr (.mismatch none Config.recordAddr false)
    | some vs =>
      let d := rcpStage r.rc.image 0
      let mask := bits d 95 64
      let picked := (vs.zipIdx.filter fun p => mask >>> p.2 % 2 == 1).map (·.1)
      let c := { c with fields := vs, rcrc := rcrc, rlen := body.length, st := .run, stage := 1,
                        used := if coded then 1 :: c.used else c.used,
                        slots := picked.zipIdx.map fun (v, i) => (stDst d + i, v) }
      .inl (c.charge (rcpWcap r.rc.image) 0 (ceilDiv body.length 64))

/-- R107: the empty contribution of a position whose substitutes are all dropped. -/
def emptyOut (r : Run) (c : Context) : Context :=
  let ncol := stNslot (rcpPack r.rc.image)
  if r.rc.seq then { c with out := some (.toks []), hdr := { c.header r with sid := 0 }, st := .release }
  else { c with
    out := some (.row (zeros r.rc.rowBytes)),
    hdr := { c.header r with sid := 0, substituted := true, attempt := 31, subof := c.origSid, rcrc := 0,
                             nullmask := 2 ^ ncol - 1, concealed := false, plen := 0 },
    st := .release }

end Sys2Proof.Machine
end

