-- ==== Sys2Proof/Machine/DealOps.lean ====
section
/-!
DEFINITION. Dealing positions to contexts (R167 to R169), drops and their substitutes (R104 to R108), and making samples
again (R25, R647).
-/
namespace Sys2Proof.Machine

/-! ### Choosing a context (R169, R647) -/

/-- The first of a list with the smallest key. -/
def argmin {α : Type} (key : α → Nat) : List α → Option α
  | [] => none
  | x :: xs => match argmin key xs with
    | none => some x
    | some y => if key y < key x then some y else some x

/-- Context numbers of a logical engine that are FREE, ascending. -/
def State.freeContexts (s : State) (engine : Nat) : List Nat :=
  ((List.range 32).map fun j => 32 * engine + j).filter fun n => (s.ctx n).isNone

/-- Logical engines of an eight with a FREE context. -/
def State.freeEngines (s : State) (eight : Nat) : List Nat :=
  ((s.liveLanes eight).map fun l => 8 * eight + l).filter fun e => !(s.freeContexts e).isEmpty

/-- R169: the FREE context taken among those whose engine `ok` admits. -/
def State.pickAmong (s : State) (eights : List Nat) (ok : Nat → Bool) : Option Nat :=
  let load (p : Context → Bool) : Nat := (s.contexts.filter p).length
  match argmin (fun e => load fun c => c.eight == e) (eights.filter fun e => (s.freeEngines e).any ok) with
  | none => none
  | some e => match argmin (fun g => load fun c => c.engine == g) ((s.freeEngines e).filter ok) with
    | none => none
    | some g => (s.freeContexts g).head?

/-- R169, R647: the FREE context for a making that avoids the engines of earlier makings: in another eight when the crew has
one, else on another engine, else any. -/
def State.pickContext (s : State) (crew : Nat) (avoid : List Nat) : Option Nat :=
  let eights := match s.crew crew with | some c => c.eights | none => []
  match s.pickAmong eights fun g => !avoid.any fun a => a / 8 == g / 8 with
  | some n => some n
  | none => match s.pickAmong eights fun g => !avoid.contains g with
    | some n => some n
    | none => s.pickAmong eights fun _ => true

/-- The working buffer of a context handed to another context. -/
def State.moveBuffer (s : State) (a b : Nat) : State :=
  { s with mem := { s.mem with bufs := updWhere (fun x => x.ref == .context a) (fun x => { x with ref := .context b }) s.mem.bufs } }

/-- R166, R235: the working buffer of a context drawn: one buffer of ROWBYTES, as R458 counts it (DEDUCED). -/
def State.drawWorking (s : State) (crew n : Nat) : Bool × State :=
  let bytes := match (s.crew crew).bind (·.recipe) with | some rc => rc.rowBytes | none => 0
  s.alloc .working (.context n) bytes [ownerId 0 crew]

/-- A context leaves for FREE: its buffer goes back, and nothing at the collector waits for it. -/
def State.freeCtx (s : State) (c : Context) : State :=
  let s := (s.dropCtx c.num).freeRef fun r => r == .context c.num
  s.modJob c.crew fun j => { j with waiting := j.waiting.filter fun n => n != c.num, releases := j.releases.filter fun n => n != c.num }

/-! ### Substitutes (R50, R105, R106) -/

/-- The sample identifier of attempt `tries` at a position (0 the sample the permutation gives). -/
def Job.sidAt (j : Job) (epoch pos tries : Nat) : Nat :=
  let g := permute j.seed epoch (manNrec j.manifest) pos
  if tries == 0 then ordinalSid j.manifest g
  else
    let (g0, n) := shardSet j.manifest (ordinalRecord j.manifest g).1
    ordinalSid j.manifest (substitute j.seed epoch pos (tries - 1) g0 n)

/-- The place in the manifest of a sample identifier's shard. -/
def Job.shardOf (j : Job) (sid : Nat) : Nat := (shardIndex j.manifest (sid / 2 ^ 24 % 2 ^ 24)).getD 0

/-- First logical block of a sample identifier's shard. -/
def Job.slbaOf (j : Job) (sid : Nat) : Nat := (j.place.getD (j.shardOf sid) (0, 0)).2

/-- R50: is the record absent? -/
def State.isAbsent (s : State) (j : Job) (sid : Nat) : Bool :=
  match s.media.shard (j.slbaOf sid) (4096 + 16 * (sid % 2 ^ 24)) 16 with
  | some e => bits e 48 48 == 1
  | none => false

/-- R102, R627: the members asked to prepare a sample of a domain job; none when it is prepared here. A set with a holder on
probation is asked of both holders. -/
def State.preparers (s : State) (j : Job) (sid : Nat) : List Nat :=
  match j.domainJob with
  | none => []
  | some _ =>
    match s.domain.placements.find? fun p => p.dset == sid / 2 ^ 48 && p.set == j.shardOf sid / 64 with
    | none => []
    | some p =>
      let me := s.domain.deviceId
      let alive (d : Nat) : Bool := d == me || s.domain.routes.any fun r => r.1 == d
      let doubted (d : Nat) : Bool := s.domain.members.any fun x => x.id == d && x.probation
      let holders := (p.primary :: p.mirror.toList).filter alive
      match holders with
      | [] => [p.primary].filter fun d => d != me
      | d :: _ =>
        if holders.any doubted && !holders.contains me then holders
        else if d == me then [] else [d]

/-- R617: a prepare request's body. -/
def prepareBody (job : Nat) (c : Context) (heat : Nat) : Bytes :=
  leBytes 8 c.sid ++ leBytes 4 c.epoch ++ [byteOf c.attempt, byteOf job] ++ leBytes 2 c.rank ++ leBytes 8 c.pos ++ leBytes 8 heat

/-- A sample placed in a context: it waits for its record's blocks (R165), or for the member that prepares it (R102); the empty
contribution of an exhausted position is the same whenever it is made (R25, R107). -/
def State.startCtx (s : State) (c : Context) : State :=
  match (s.crew c.crew).bind (·.job) with
  | none => { s with contexts := s.contexts ++ [{ c with st := .waitFlash }] }
  | some j => match if c.remote.isSome then [] else s.preparers j c.sid with
    | [] => { s with contexts := s.contexts ++ [{ c with st := .waitFlash }] }
    | d :: ds =>
      let tag := s.domain.tag
      let c := { c with st := .waitUnit, askedTag := some tag, via := some d, doubled := !ds.isEmpty }
      let s := { s with contexts := s.contexts ++ [c], domain := { s.domain with tag := (tag + 1) % 4294967296 } }
      (d :: ds).foldl (fun s d => s.sendPacket 0x01 1 d (some c.crew) tag (prepareBody (j.domainJob.getD 0) c (c.heat j))) s

/-! ### Drops (R104, R107) -/

/-- R107: attempt 31 is dropped too. Below severity 3 the position keeps an empty contribution in the context. -/
def State.exhausted (s : State) (r : Run) (c : Context) : State :=
  let s := s.raise { unit := 0x2C5, kind := 0x14, crew := some c.crew, addr := c.epoch, ctx := some (0, c.pos) }
  if s.severity 0x2C5 0x14 < 3 then { s with contexts := s.contexts ++ [{ emptyOut r c with exhausted := true }] }
  else s.freeRef fun b => b == .context c.num

/-- R106: attempts from `tries` on dealt for a position whose context `c` is free again and keeps its buffer: absent records
are passed over at once; `fuel` is at least the attempts left. -/
def State.dealAttempt (r : Run) : Nat → State → Context → Nat → State
  | 0, s, c, _ => s.exhausted r { c with tries := 32 }
  | fuel + 1, s, c, tries =>
    if 32 < tries then s.exhausted r { c with tries := 32 } else
      let sid := r.job.sidAt c.epoch c.pos tries
      if (s.preparers r.job sid).isEmpty && s.isAbsent r.job sid then State.dealAttempt r fuel s c (tries + 1)
      else
        let n := (s.pickContext c.crew []).getD c.num
        (s.moveBuffer c.num n).startCtx
          { num := n, st := .waitFlash, crew := c.crew, rank := c.rank, epoch := c.epoch, pos := c.pos, tries := tries, sid := sid,
            origSid := c.origSid, remote := c.remote, rewrite := c.rewrite }

/-- R104: what a drop raises and counts. -/
def State.noteDrop (s : State) (c : Context) : Drop → State
  | .mismatch sub addr graph =>
    let s := match sub with
      | some u => s.raiseEight c u 0x13 addr
      | none => s.raiseEngine c 0x13 addr
    if graph then s.modCrew c.crew fun k => { k with graphDrops := (k.graphDrops + 1) % 4294967296 } else s
  | .capped =>
    let s := s.raiseEngine c 0x11 (c.capStage.getD c.stage)
    s.modCrew c.crew fun k => { k with capAborts := (k.capAborts + 1) % 4294967296 }
  | _ => s

/-- R104, R106, R420: a sample is dropped and its position dealt a substitute. -/
def State.dropSample (s : State) (r : Run) (c : Context) (why : Drop) : State :=
  let s := s.noteDrop c why
  let s := (s.dropCtx c.num).modJob c.crew fun j => { j with waiting := j.waiting.filter fun n => n != c.num }
  State.dealAttempt r 33 s c (c.tries + 1)

/-! ### Making samples again (R25, R166, R647) -/

/-- The fields of a context before its first stage: the same sample, made again. -/
def Context.afresh (c : Context) (n : Nat) : Context :=
  { num := n, st := .waitFlash, crew := c.crew, rank := c.rank, epoch := c.epoch, pos := c.pos, tries := c.tries, sid := c.sid,
    origSid := c.origSid, remote := c.remote, peerOf := c.peerOf, retries := c.retries, avoid := c.avoid, logged := c.logged,
    exhausted := c.exhausted, rewrite := c.rewrite }

/-- The peer makings of a context are discarded (R653). -/
def State.dropPeers (s : State) (n : Nat) : State :=
  (s.contexts.filter fun c => c.peerOf == some n).foldl State.freeCtx s

/-- A sample is made again in context `n`, with a new buffer. A buffer that is not there yet is drawn when the sample's blocks
arrive (R447). The empty contribution of an exhausted position is the same each time (R25, R107). -/
def State.remakeIn (s : State) (c : Context) (n : Nat) : State :=
  let s := (s.dropPeers c.num).freeCtx c
  let (_, s) := s.drawWorking c.crew n
  match s.run c.crew with
  | some r => if c.exhausted then { s with contexts := s.contexts ++ [{ emptyOut r (c.afresh n) with exhausted := true }] }
              else s.startCtx (c.afresh n)
  | none => s.startCtx (c.afresh n)

/-- R25, R169: with no FREE context, a sample that is to be made again waits for one; a peer making is not made again (the
collector asks for another, R653). -/
def State.remakeLater (s : State) (c : Context) : State :=
  let s := (s.dropPeers c.num).freeCtx c
  if c.peerOf.isSome then s else s.modJob c.crew fun j => { j with again := j.again ++ [c.afresh c.num] }

/-- R25: a sample in flight on a fenced unit is made again on the unit that takes its logical number, or on another of the crew when
the logical unit is gone. -/
def State.remake (s : State) (c : Context) : State :=
  if (s.liveLanes c.eight).contains (c.engine % 8) && ((s.crew c.crew).map fun k => k.eights.contains c.eight) == some true then
    s.remakeIn c c.num
  else match (s.dropCtx c.num).pickContext c.crew [] with
    | some n => s.remakeIn c n
    | none => s.remakeLater c

/-- R647, R648: a sample is made again on an engine other than those of its two latest makings. -/
def State.remakeElsewhere (s : State) (c : Context) : State :=
  let avoid := (c.engine :: c.avoid).take 2
  let c := { c with retries := c.retries + 1, avoid := avoid }
  match (s.dropCtx c.num).pickContext c.crew avoid with
  | some n => s.remakeIn c n
  | none => s.remakeLater c

/-- R648: kind 0x02 once retry 2 has failed. -/
def State.exhaustRetries (s : State) (crew retries epoch sid pos : Nat) : State :=
  if retries < 2 then s else s.raise { unit := 0x2C5, kind := 0x02, crew := some crew, addr := epoch, ctx := some (sid, pos) }

/-- R647, R648: an attempt is discarded and its sample made again; after retry 2 kind 0x02 is raised each time. -/
def State.failMaking (s : State) (c : Context) : State :=
  let s := s.exhaustRetries c.crew c.retries c.epoch c.sid c.pos
  (s.modDomain fun d => { d with compare := d.compare.filter fun x => some x.1 != c.askedTag }).remakeElsewhere c

/-- R101: the manager's crew distributes the epoch boundaries up to one it reaches. -/
def State.tellBoundary (s : State) (crew epoch : Nat) : State :=
  match (s.crew crew).bind (·.job) with
  | none => s
  | some j => match j.domainJob with
    | none => s
    | some n =>
      if s.domain.role == 1 && crew == n && j.boundary < epoch then
        let s := (List.range (epoch - j.boundary)).foldl (fun s i =>
          s.controlAll 0x03 n (leBytes 16 j.seed ++ leBytes 4 (j.boundary + 1 + i))) s
        s.modJob crew fun j => { j with boundary := epoch }
      else s

/-- A sample that waited is made again in the first FREE context (R25, R169). -/
def State.dealAgain (s : State) (r : Run) (c : Context) : State :=
  match s.pickContext r.crew.num c.avoid with
  | none => s
  | some n => (s.modJob r.crew.num fun j => { j with again := j.again.drop 1 }).remakeIn { c with num := n } n

/-! ### Dealing (R167, R168) -/

/-- R168: tokens known of heats in preparation of a rank. -/
def Job.knownTokens (j : Job) (rank : Nat) : Nat :=
  ((j.heats.filter fun h => h.rank == rank && h.packed.isNone).map fun h => (h.items.map fun i => i.2.2.length).sum).sum

/-- R168: rows of packed heats of a rank not delivered yet. -/
def RankJob.packedRows (k : RankJob) (b : Nat) : Nat := k.base + (k.heats.map (·.2.2)).sum - k.next * b

/-- R167, R168: may a position of the rank be dealt now? -/
def Run.canDeal (r : Run) (k : RankJob) : Bool :=
  let j := r.job
  if r.rc.seq then
    k.epoch ≤ jobElast j.block &&
      (k.q % j.h != 0 || k.packedRows j.b + j.knownTokens k.rank / max 1 (stRowlen (rcpPack r.rc.image)) < j.lookahead * j.b)
  else k.dealt < j.usedRows && k.dealt < (k.next + j.lookahead) * j.b

/-- R237: bytes of a batch's region, and of its buffer. -/
def regionBytes (rc : Recipe) (b : Nat) : Nat := b * rc.rowBytes + 128 + 64 * b * (if rc.seq then 128 else 1)

/-- R237: bytes of a batch buffer. -/
def Run.batchBytes (r : Run) : Nat := regionBytes r.rc r.job.b

/-- Bytes of a heat's staging buffer. The spec gives no size; DESIGN CHOICE: a row of tokens for each of its positions. -/
def Run.heatBytes (r : Run) (heat : Nat) : Nat := r.job.heatLen heat * 4 * stRowlen (rcpPack r.rc.image)

/-- R235: what a position needs before it is dealt: its batch buffer (pack-fixed) or its heat's staging buffer. -/
def State.readyPlace (s : State) (r : Run) (k : RankJob) : Bool × State :=
  let j := r.job
  let crew := r.crew.num
  if r.rc.seq then
    let heat := k.q / j.h
    if (j.heat k.rank k.epoch heat).isSome then (true, s)
    else match s.alloc .staging (.heat crew k.rank k.epoch heat) (r.heatBytes heat) [ownerId 1 crew] with
      | (true, s) => (true, s.modJob crew fun j => { j with heats := j.heats ++ [{ rank := k.rank, epoch := k.epoch, heat := heat }] })
      | no => no
  else
    let bk := k.dealt / j.b
    if (j.batch k.rank bk).isSome || bk < k.next then (true, s)
    else match s.alloc .batch (.batch crew k.rank bk) r.batchBytes [ownerId 1 crew] with
      | (true, s) => (true, s.modJob crew fun j => { j with batches := j.batches ++ [{ rank := k.rank, k := bk }] })
      | no => no

/-- The rank's next position is dealt. -/
def RankJob.advance (j : Job) (k : RankJob) : RankJob :=
  let last := k.q + 1 == j.q
  { k with epoch := if last then k.epoch + 1 else k.epoch, q := if last then 0 else k.q + 1, dealt := k.dealt + 1 }

/-- One position of a rank dealt (R168, R169, R235); the flag says whether it was. Dealing pauses where a context or a buffer is
missing (R447). -/
def State.dealRank (s : State) (r : Run) (k : RankJob) : Bool × State :=
  let crew := r.crew.num
  match s.pickContext crew [] with
  | none => (false, s)
  | some n =>
    match s.readyPlace r k with
    | (false, s) => (false, s)
    | (true, s) => match s.drawWorking crew n with
      | (false, s) => (false, s)
      | (true, s) =>
        let pos := k.q * r.job.m + k.rank
        let s := s.modJob crew fun j => j.modRank k.rank (RankJob.advance j)
        let c : Context := { num := n, st := .waitFlash, crew := crew, rank := k.rank, epoch := k.epoch, pos := pos, tries := 0,
                             sid := 0, origSid := r.job.sidAt k.epoch pos 0 }
        (true, State.dealAttempt r 33 s c 0)

/-- R167: the first of several ranks that can be dealt a position is. -/
def State.dealFirst (r : Run) : List RankJob → State → State
  | [], s => s
  | k :: ks, s => match s.dealRank r k with
    | (true, s) => s.tellBoundary r.crew.num k.epoch
    | (false, s) => State.dealFirst r ks s

/-- R167: the ranks a position may be dealt to, lowest oldest undelivered batch first, then lowest rank. -/
def Run.dealOrder (r : Run) : List RankJob :=
  let ready := r.job.ranks.filter r.canDeal
  let rec sort : Nat → List RankJob → List RankJob
    | 0, _ => []
    | n + 1, l => match argmin (fun k => k.next * 65536 + k.rank) l with
      | none => []
      | some k => k :: sort n (l.filter fun x => x.rank != k.rank)
  sort ready.length ready

/-- R167 to R169: a crew deals one position; nothing happens while dealing is stopped or paused. Samples to be made again go first
(DESIGN CHOICE). -/
def State.deal (s : State) (crew : Nat) : State :=
  match s.run crew with
  | none => s
  | some r =>
    if (r.crew.state == 2 || r.crew.state == 3) && !r.job.stopped && r.job.dealing then
      match r.job.again with
      | c :: _ => s.dealAgain r c
      | [] => State.dealFirst r r.dealOrder s
    else s

end Sys2Proof.Machine
end

