-- ==== Sys2Proof/Machine/CollectorOps.lean ====
section
/-!
DEFINITION. The collector and delivery ("Packing and batch assembly", "Repeatability, modes and the timing guarantee"): releases
and their acceptance, probation comparison, crab and deadline decisions, heat packing, closing a batch, delivered batches,
resume tokens and DRAINED.
-/
namespace Sys2Proof.Machine

/-! ### Log page 0x34 (R421) -/

/-- A page 0x34 entry. -/
def timingEntry (kind crew rank epoch pos batch sidOut sidIn count : Nat) : Bytes :=
  let b := [0x01, byteOf kind, byteOf crew, 0] ++ leBytes 2 rank ++ zeros 2 ++ leBytes 4 epoch ++ zeros 4 ++ leBytes 8 pos ++
    leBytes 8 batch ++ leBytes 8 sidOut ++ leBytes 8 sidIn ++ leBytes 8 count ++ zeros 4
  b ++ leBytes 4 (crc32c b)

/-- An entry of page 0x34 written. -/
def State.logTiming (s : State) (e : Bytes) : State := { s with timingLog := s.timingLog.add 4096 e }

/-- TimingChoices of a crew. -/
def State.choices (s : State) (crew : Nat) : Nat := match s.crew crew with | some c => c.choices | none => 0

/-- R418: a decision counted. -/
def State.countChoice (s : State) (crew : Nat) : State :=
  s.modCrew crew fun c => { c with choices := (c.choices + 1) % 2 ^ 64 }

/-! ### Completions of REQUEST BATCHES and DRAINED (R98, R564, R569) -/

/-- R543 REQUEST RANK. -/
def Cmd.reqRank (c : Cmd) : Nat := bits c.capsule 191 160
/-- R543 REQUEST COUNT. -/
def Cmd.reqCount (c : Cmd) : Nat := bits c.capsule 207 192

/-- Is it an outstanding REQUEST BATCHES of the rank of a crew? -/
def Cmd.grantsRank (c : Cmd) (crew rank : Nat) : Bool := c.opc == 0x22 && c.wait == .batches && c.crew == crew && c.reqRank == rank

/-- Rows of a rank's stream so far (pack-sequence). -/
def RankJob.streamRows (k : RankJob) : Nat := k.base + (k.heats.map (·.2.2)).sum

/-- Is the row stream of the rank complete: nothing left to deal, to accept or to pack? -/
def Run.streamDone (r : Run) (k : RankJob) : Bool :=
  !r.rc.seq || (jobElast r.job.block < k.epoch && !r.job.heats.any fun h => h.rank == k.rank)

/-- R98: batches of the rank's whole stream, once it is complete. -/
def Run.batchCount (r : Run) (k : RankJob) : Nat := (if r.rc.seq then k.streamRows else r.job.usedRows) / r.job.b

/-- R98, R564: every batch of the rank is delivered. -/
def Run.rankDone (r : Run) (k : RankJob) : Bool := r.streamDone k && r.batchCount k ≤ k.next

/-- R98: rows discarded at the end of the rank. -/
def Run.droppedRows (r : Run) (k : RankJob) : Nat :=
  (if r.rc.seq then k.streamRows else r.job.row (jobElast r.job.block + 1) 0) % r.job.b

/-- R569: the REQUEST BATCHES commands of a rank that are answered: all their batches delivered, or the stream ended. -/
def State.answerGrants (s : State) (crew rank : Nat) : State :=
  match s.run crew with
  | none => s
  | some r => match r.job.rank rank with
    | none => s
    | some k =>
      let mine := s.host.cmds.filter fun c => c.grantsRank crew rank
      let ended := r.rankDone k
      mine.foldl (fun s c =>
        let n := min c.reqCount (k.next - c.first)
        if n == c.reqCount || ended then s.complete c (.ok n) else s) s

/-- R548: a page 0x35 entry. -/
def drainedEntry (rank rows batches : Nat) : Bytes := leBytes 4 rank ++ leBytes 4 rows ++ leBytes 8 batches

/-- R98: buffers and rows of batches that never fill are discarded when a rank is done. -/
def State.discardTail (s : State) (r : Run) (k : RankJob) : State :=
  let s := s.freeRef fun b => match b with
    | .batch c rank bk => c == r.crew.num && rank == k.rank && k.next ≤ bk
    | _ => false
  s.modJob r.crew.num fun j =>
    let j := j.modRank k.rank fun x => { x with dropped := r.droppedRows k }
    { j with batches := j.batches.filter fun x => !(x.rank == k.rank && k.next ≤ x.k) }

/-- R564: a RUNNING crew whose every rank is done is DRAINED, and page 0x35 is written. -/
def State.checkDrained (s : State) (crew : Nat) : State :=
  match s.run crew with
  | none => s
  | some r =>
    if r.crew.state == 3 && r.job.ranks.all r.rankDone then
      let s := r.job.ranks.foldl (fun s k => s.discardTail r k) s
      let s := r.job.ranks.foldl (fun s k => s.answerGrants crew k.rank) s
      let entries := r.job.ranks.map fun k => drainedEntry k.rank (r.droppedRows k) k.delivered
      s.modCrew crew fun c => { c with state := 5, drained := entries }
    else s

/-! ### Closing a batch (R260) -/

/-- EPOCHF and EPOCHL of a batch: the epochs of its first and last rows. -/
def Run.epochs (r : Run) (k : RankJob) (bk : Nat) : Nat × Nat :=
  let j := r.job
  if r.rc.seq then
    let find (n : Nat) : Nat :=
      (k.heats.foldl (fun (acc : Nat × Nat) h => (if acc.1 ≤ n then h.1 else acc.2, acc.1 + h.2.2)) (k.base, jobE0 j.block)).2
    (find (bk * j.b), find (bk * j.b + j.b - 1))
  else (jobE0 j.block + bk * j.b / j.q, jobE0 j.block + (bk * j.b + j.b - 1) / j.q)

/-- R240, R260: a complete batch is closed: its descriptor is computed with the crew's choice count of the moment. -/
def State.closeBatch (s : State) (crew rank bk : Nat) : State :=
  match s.run crew with
  | none => s
  | some r => match r.job.rank rank, r.job.batch rank bk with
    | some k, some b =>
      if b.desc.isNone && b.rows.length == r.job.b then
        let (ef, el) := r.epochs k bk
        let d := descriptor { seq := r.rc.seq, ncol := stNslot (rcpPack r.rc.image), fmts := r.rc.fmts, b := r.job.b,
                              rowBytes := r.rc.rowBytes, epochF := ef, epochL := el, fprint := fingerprint r.job.settings,
                              tdcc := r.crew.choices } b
        let s := s.modJob crew fun j => j.modBatch rank bk fun x => { x with desc := some d }
        s.modCrew crew fun c => { c with closed := (c.closed + 1) % 2 ^ 64, padTokens := (c.padTokens + b.pad) % 2 ^ 64 }
      else s
    | _, _ => s

/-! ### Writing a contribution (R232, R235) -/

/-- R416, R426: the accepted sample of the lowest index of its heat is kept as a source. -/
def Job.source (j : Job) (rank epoch heat : Nat) : Option Source :=
  j.sources.find? fun x => x.rank == rank && x.epoch == epoch && x.heat == heat

/-- A source put in the place of one with a higher index. -/
def Job.addSource (j : Job) (x : Source) : Job :=
  match j.source x.rank x.epoch x.heat with
  | some y => if y.idx ≤ x.idx then j else
      { j with sources := updWhere (fun z => z.rank == x.rank && z.epoch == x.epoch && z.heat == x.heat) (fun _ => x) j.sources }
  | none => { j with sources := j.sources ++ [x] }

/-- A contribution of a position written to its batch or staging buffer; rows before a resumed rank's first batch are
discarded (R116). -/
def State.writeOut (s : State) (r : Run) (rank epoch pos : Nat) (h : Hdr) (out : Contribution) : State :=
  let j := r.job
  let crew := r.crew.num
  let q := pos / j.m
  match out with
  | .row b =>
    let t := j.row epoch q
    let bk := t / j.b
    let h := { h with batch := bk, slot := t % j.b, rank := rank, pos := pos, epoch := epoch }
    if (j.batch rank bk).isNone then s
    else (s.modJob crew fun j => j.modBatch rank bk fun x =>
        { x with rows := putRow (t % j.b) b x.rows, hdrs := putHdr h x.hdrs }).closeBatch crew rank bk
  | .toks ids =>
    s.modJob crew fun j => j.modHeat rank epoch (q / j.h) fun x =>
      { x with items := x.items.filter (fun i => i.1 != q % j.h) ++ [(q % j.h, { h with rank := rank, pos := pos, epoch := epoch }, ids)] }

/-! ### Crab decisions (R415 to R420) -/

/-- Is everything else of a crab's batch or heat accepted (R415)? Only a position with a companion in its heat counts (R418). -/
def Run.crabReady (r : Run) (c : Context) : Bool :=
  let j := r.job
  let heat := c.heat j
  1 < j.heatLen heat &&
  if r.rc.seq then
    match j.heat c.rank c.epoch heat with
    | some x => x.items.length + 1 == j.heatLen heat && !x.items.any fun i => i.1 == c.idx j
    | none => false
  else
    let t := j.row c.epoch (c.q j)
    match j.batch c.rank (t / j.b) with
    | some b => b.rows.length + 1 == j.b && !b.rows.any fun x => x.1 == t % j.b
    | none => false

/-- R416 to R418: a crab's slot takes a copy of the source; the crab is discarded. -/
def State.crabDecision (s : State) (r : Run) (c : Context) (x : Source) : State :=
  let s := s.countChoice c.crew
  let s := ((s.dropPeers c.num).freeCtx c).writeOut r c.rank c.epoch c.pos x.hdr x.out
  if r.rc.seq then
    s.modJob c.crew fun j => j.modHeat c.rank c.epoch (c.heat j) fun h =>
      { h with choices := h.choices ++ [(c.epoch, c.pos, c.sid)] }
  else
    s.logTiming (timingEntry 1 c.crew c.rank c.epoch c.pos (r.job.row c.epoch (c.q r.job) / r.job.b) c.sid x.hdr.sid (s.choices c.crew))

/-- R116: does a context's position lie in the heat that its resumed rank makes again without timing-dependent choices? -/
def Run.madeAgain (r : Run) (c : Context) : Bool :=
  ((r.job.rank c.rank).bind (·.resumed)) == some (c.epoch, c.heat r.job)

/-- R415, R416: one crab judged: decided, noted as waiting for a source, or left. -/
def State.judgeCrab (s : State) (n : Nat) : State :=
  match s.ctx n with
  | none => s
  | some c => match s.run c.crew with
    | none => s
    | some r =>
      if c.crab && r.job.mode == 1 && c.peerOf.isNone && c.remote.isNone && c.rewrite.isNone && !r.madeAgain c && (r.job.waiting.contains n || r.crabReady c) then
        match r.job.source c.rank c.epoch (c.heat r.job) with
        | some x => s.crabDecision r c x
        | none => if r.job.waiting.contains n then s else s.modJob c.crew fun j => { j with waiting := j.waiting ++ [n] }
      else s

/-- The crabs of a crew judged, in context order. -/
def State.judgeCrabs (s : State) (crew : Nat) : State :=
  ((s.contexts.filter fun c => c.crew == crew && c.crab).map (·.num)).foldl State.judgeCrab s

/-! ### Probation (R653, R654) -/

/-- Units that made a sample: its engine, and the eight-shared units of its eight that served it (the eight SRAM always). -/
def State.unitsOf (s : State) (c : Context) : List UnitRef :=
  .engine (s.physEngine c.engine) :: ((0 :: c.used).eraseDups.map fun u => .eightUnit (s.physEight c.eight) u)

/-- Units on probation among those that made a sample. -/
def State.doubted (s : State) (c : Context) : List UnitRef := (s.unitsOf c).filter fun u => s.faults.probation.contains u

/-- A unit's health score. -/
def Faults.score (f : Faults) (u : UnitRef) : Nat := ((f.scores.find? fun p => p.1 == u).map (·.2)).getD 0

/-- Units of a logical engine's eight that a sample may use. -/
def State.unitsAt (s : State) (engine : Nat) (used : List Nat) (firmware : Bool) : List UnitRef :=
  .engine (s.physEngine engine) ::
    (if firmware then [] else (0 :: used).eraseDups.map fun u => .eightUnit (s.physEight (engine / 8)) u)

/-- R653, R654: the engines that may make a sample again, away from the engines named: of another eight when the crew has one; of its own
eight as well when all of those are on probation and no eight-shared unit is doubted. -/
def State.peerEngines (s : State) (c : Context) (apart : List Nat) : List Nat :=
  let eights := match s.crew c.crew with | some k => k.eights | none => []
  let all := (eights.flatMap fun e => (s.liveLanes e).map fun l => 8 * e + l).filter fun g => !apart.contains g
  let others := all.filter fun g => g / 8 != c.eight
  let clean (g : Nat) : Bool := !(s.unitsAt g c.used false).any fun u => s.faults.probation.contains u
  let engineOnly := (s.doubted c).all fun u => match u with | .engine _ => true | _ => false
  if others.isEmpty || (engineOnly && !others.any clean) then all else others

/-- R653, R654: the peer candidate for a context, of the engines and eights that may serve as its peer: one with a FREE context, none on
probation before any on probation, the lowest score first. -/
def State.peerEngine (s : State) (c : Context) (apart : List Nat) : Option Nat :=
  let cands := (s.peerEngines c apart).filter fun g => !(s.freeContexts g).isEmpty
  let cost (g : Nat) : Nat :=
    let us := s.unitsAt g c.used (g / 8 == c.eight)
    (if us.any fun u => s.faults.probation.contains u then 1048576 else 0) + (us.map s.faults.score).sum
  argmin cost cands

/-- R653: is a context of an engine that may make a sample again still at work, so that it will be free later? With none, a sample whose
units are on probation is accepted as it is (DESIGN CHOICE). -/
def State.peerLater (s : State) (c : Context) (apart : List Nat) : Bool :=
  (s.peerEngines c apart).any fun g => s.contexts.any fun x => x.engine == g && x.st != .sent

/-- R653: a further making of a sample starts on a peer. -/
def State.startPeer (s : State) (c : Context) (apart : List Nat) : State :=
  match s.peerEngine c apart with
  | none => s
  | some g => match (s.freeContexts g).head? with
    | none => s
    | some n =>
      let (_, s) := s.drawWorking c.crew n
      { s with contexts := s.contexts ++ [{ c.afresh n with peerOf := some c.num, remote := none, logged := List.range 32 }] }

/-- UNIT, SUB and PHYS of a unit of an eight that made a sample. -/
def unitRaise (c : Context) : UnitRef → Raise
  | .engine p => { unit := c.engine, kind := 0x03, phys := some p }
  | .eightUnit p u => { unit := 0x200 + c.eight, sub := u, kind := 0x03, phys := some p }
  | _ => { unit := c.engine, kind := 0x03 }

/-- R653: kind 0x03 raised against every doubted unit of a making; the reaction fences it and makes its samples again. -/
def State.mismatch (s : State) (c : Context) : State :=
  (s.doubted c).foldl (fun s u => s.raise { unitRaise c u with crew := some c.crew, addr := c.epoch, ctx := some (c.sid, c.pos) }) s

/-- What probation says of a release that is served. -/
inductive Verdict
  | accept            -- no unit on probation, or the makings agree
  | wait              -- a peer has not made it yet
  | again             -- a further making is needed
  | differ (bad : List Nat) (keep : Bool)  -- contexts whose doubted units are fenced; the release stands when `keep`
  deriving DecidableEq, Repr, Inhabited

/-- Do two makings agree byte for byte? -/
def Context.same (a b : Context) : Bool := a.out == b.out && { a.hdr with probation := false } == { b.hdr with probation := false }

/-- R653, R654: what the collector does with a released context that a unit on probation served: it waits for its peer, accepts, has it made
once more, or finds that two makings differ. A sample for which no candidate can ever be free is accepted as it is (DESIGN CHOICE, log 152).
-/
def State.judgeProbation (s : State) (c : Context) : Verdict :=
  if !c.probation then .accept else
    let peers := s.contexts.filter fun p => p.peerOf == some c.num
    if peers.any fun p => p.st != .sent then .wait
    else match peers with
      | [] => if (s.peerEngine c [c.engine]).isSome then .again else if s.peerLater c [c.engine] then .wait else .accept
      | [p] =>
        if c.same p then .accept
        else if !(s.doubted p).isEmpty && (s.peerEngine c [c.engine, p.engine]).isSome then .again
        else if !(s.doubted p).isEmpty && s.peerLater c [c.engine, p.engine] then .wait
        else .differ [c.num] false
      | p :: t :: _ =>
        if c.same t then .differ [p.num] true
        else .differ (c.num :: (if p.same t then [] else [p.num])) false

/-! ### Service (R264 to R267) -/

/-- The round-robin place of a release: its logical engine, or 1,000 + the device that forwarded it. -/
def Context.turn (c : Context) : Nat := match c.via with | some d => 1000 + d | none => c.engine

/-- R263: the position whose making wrote what a header stands for: its own, or, for a copy (R416, R426), the position of its heat
that the sample identifier belongs to. -/
def Job.maker (j : Job) (h : Hdr) : Nat :=
  let own (p : Nat) : Bool := j.sidAt h.epoch p (if h.substituted then h.attempt + 1 else 0) == h.sid
  let heat := h.pos / j.m / j.h
  if h.sid == 0 || own h.pos then h.pos
  else (((List.range (j.heatLen heat)).map fun i => (heat * j.h + i) * j.m + h.rank).find? own).getD h.pos

/-- R263: the tokens of a remade contribution put into a segment of a packed row. -/
def rewriteSegment (rl : Nat) (ids : List Nat) (row : Bytes) (h : Hdr) : Bytes :=
  let b := ((ids.drop (rl * h.piece)).take h.plen).flatMap (leBytes 4)
  row.take (4 * h.tokoff) ++ b ++ row.drop (4 * h.tokoff + b.length)

/-- R263: the header of a remade sample in the place of one that stands: what says where it lies stays. -/
def Hdr.inPlace (old new : Hdr) : Hdr :=
  { new with batch := old.batch, rank := old.rank, slot := old.slot, pos := old.pos, epoch := old.epoch, segid := old.segid,
             piece := old.piece, tokoff := old.tokoff, plen := old.plen, split := old.split, truncated := old.truncated,
             probation := old.probation || new.probation }

/-- R263, R647: a rewrite done: a further making avoids the engine that made it. -/
def Rewrite.finish (place : Nat) (c : Context) (w : Rewrite) : Rewrite :=
  if w.place == place && w.epoch == c.epoch && w.pos == c.pos then { w with awaited := false, avoid := (c.engine :: w.avoid).take 2 } else w

/-- R263: a remade sample's bytes rewritten in place. -/
def State.rewriteOut (s : State) (r : Run) (c : Context) (h : Hdr) (out : Contribution) : RewriteAt → State
  | .row rank k slot => s.modJob r.crew.num fun j => j.modBatch rank k fun b =>
      let mine (x : Hdr) : Bool := x.slot == slot && x.epoch == c.epoch && r.job.maker x == c.pos
      let row (old : Bytes) : Bytes := match out with
        | .row new => new
        | .toks ids => (b.hdrs.filter mine).foldl (rewriteSegment (stRowlen (rcpPack r.rc.image)) ids) old
      { b with rows := b.rows.map fun x => if x.1 == slot then (slot, row x.2) else x,
               hdrs := b.hdrs.map fun x => if mine x then x.inPlace h else x,
               rewrites := b.rewrites.map (Rewrite.finish slot c) }
  | .item rank epoch heat idx => s.modJob r.crew.num fun j => j.modHeat rank epoch heat fun x =>
      { x with items := x.items.map fun i => if i.1 == idx then
                  (idx, i.2.1.inPlace h, match out with | .toks ids => ids | .row _ => i.2.2) else i,
               rewrites := x.rewrites.map (Rewrite.finish idx c) }

/-- R265: a context's contribution is accepted: written, counted, and the context is FREE again. One made again for a row or staged
contribution that met a parity error is rewritten in place and counts for nothing else (R263). -/
def State.accept (s : State) (r : Run) (c : Context) (probation : Bool) : State :=
  match c.out with
  | none => s
  | some out =>
    let h := { c.hdr with probation := c.hdr.probation || probation }
    let s := (s.dropPeers c.num).freeCtx c
    match c.rewrite with
    | some at_ => s.rewriteOut r c h out at_
    | none =>
      let s := if h.truncated then s.modCrew c.crew fun k => { k with truncated := (k.truncated + 1) % 4294967296 } else s
      let s := s.writeOut r c.rank c.epoch c.pos h out
      let s := if r.job.mode == 0 then s else
        let hd := { h with rank := c.rank, pos := c.pos, epoch := c.epoch }
        s.modJob c.crew fun j => j.addSource ⟨c.rank, c.epoch, c.heat j, c.idx j, hd, out⟩
      s.judgeCrabs c.crew

/-- R266: the release served next: the next turn above the one served last, else the lowest. -/
def State.nextRelease (s : State) (j : Job) : Option Context :=
  let ready := (j.releases.filterMap s.ctx).filter fun c => s.judgeProbation c != .wait
  match argmin Context.turn (ready.filter fun c => j.served < c.turn) with
  | some c => some c
  | none => argmin Context.turn ready

/-- R165, R267: the collector of the crew that a forwarded sample was made for has accepted it: its context is FREE. The spec gives no
packet for that: with no release of the crew's own to serve, the event stands for it, oldest first (DESIGN CHOICE). -/
def State.acceptedAfar (s : State) (crew : Nat) : State :=
  match s.contexts.find? fun c => c.crew == crew && c.remote.isSome && c.st == .sent with
  | some c => s.freeCtx c
  | none => s

/-- R264 to R266, R653: the collector of a crew serves one release. -/
def State.collect (s : State) (crew : Nat) : State :=
  match s.run crew with
  | none => s
  | some r => match s.nextRelease r.job with
    | none => s.acceptedAfar crew
    | some c =>
      let s := s.modJob crew fun j => { j with served := c.turn }
      match s.judgeProbation c with
      | .accept => (s.accept r c c.probation).checkDrained crew
      | .wait => s
      | .again => s.startPeer c (c.engine :: (s.contexts.filter fun p => p.peerOf == some c.num).map (·.engine))
      | .differ bad keep =>
        let s := (bad.filterMap s.ctx).foldl State.mismatch s
        if keep then (s.accept r c true).checkDrained crew else s

/-- R264: does the engine of a context hold a credit? -/
def State.hasCredit (s : State) (r : Run) (c : Context) : Bool :=
  (s.contexts.filter fun x => x.engine == c.engine && x.crew == c.crew && x.st == .sent && x.via.isNone && x.remote.isNone).length
    < r.job.credits

/-! ### Heat packing (R253 to R261) -/

/-- The buffer of a batch that packing fills: drawn from the pools, else from the rank's reserve (R261). -/
def State.packBuffer (s : State) (r : Run) (rank bk : Nat) : Bool × State :=
  let crew := r.crew.num
  if (r.job.batch rank bk).isSome then (true, s)
  else
    let add (s : State) : State := s.modJob crew fun j => { j with batches := j.batches ++ [{ rank := rank, k := bk }] }
    match s.alloc .batch (.batch crew rank bk) r.batchBytes [ownerId 1 crew] with
    | (true, s) => (true, add s)
    | (false, s) =>
      match s.mem.bufs.find? fun b => match b.ref with | .reserve c q _ => c == crew && q == rank | _ => false with
      | none => (false, s)
      | some b => (true, add { s with mem := { s.mem with
          bufs := updWhere (fun x => x.id == b.id) (fun x => { x with ref := .batch crew rank bk }) s.mem.bufs } })

/-- R261: the batches that packing fills next get their buffers, one batch after another, as far as room goes; the flag says whether all
`n` have one. -/
def State.packBuffers (crew rank : Nat) : Nat → Nat → State → Bool × State
  | 0, _, s => (true, s)
  | n + 1, bk, s => match s.run crew with
    | none => (false, s)
    | some r => match s.packBuffer r rank bk with
      | (true, s) => State.packBuffers crew rank n (bk + 1) s
      | no => no

/-- R256, R258: a packed row written at row-stream row n. -/
def State.writeSeqRow (s : State) (r : Run) (h : Heat) (n : Nat) (row : PackRow) : State :=
  let d := rcpPack r.rc.image
  let rl := stRowlen d
  let bk := n / r.job.b
  let slot := n % r.job.b
  let get (i : Nat) : Hdr × List Nat := match h.items.find? fun x => x.1 == i with | some x => x.2 | none => ({}, [])
  let toks := row.segs.map fun (x, _) => x.tokens rl (get x.idx).2
  let hdrs := row.segs.zipIdx.map fun ((x, off), i) =>
    let (hd, ids) := get x.idx
    let (kept, cut) := keptTokens rl (stSplit d) ids.length
    { hd with
        batch := bk, slot := slot, segid := i + 1, piece := x.piece, tokoff := off, plen := x.len,
        truncated := cut || hd.truncated, split := stSplit d && rl < kept }
  (s.modJob r.crew.num fun j => j.modBatch h.rank bk fun b =>
    { b with rows := putRow slot (seqRow rl (stPadid d) toks) b.rows, hdrs := hdrs.foldl (fun l x => putHdr x l) b.hdrs,
             pad := b.pad + (rl - row.used) }).closeBatch r.crew.num h.rank bk

/-- R418: the crab decisions of a packed heat logged, with the batch of piece 0 of each copied contribution. -/
def State.logChoices (s : State) (r : Run) (h : Heat) (base skip : Nat) (rows : List PackRow) : State :=
  h.choices.foldl (fun s (e, pos, out) =>
    let idx := pos / r.job.m % r.job.h
    let row := (rows.findIdx? fun w => w.segs.any fun x => x.1.idx == idx && x.1.piece == 0).getD 0
    let src := match h.items.find? fun x => x.1 == idx with | some x => x.2.1.sid | none => 0
    s.logTiming (timingEntry 1 r.crew.num h.rank e pos ((base + row - skip) / r.job.b) out src (s.choices r.crew.num))) s

/-- R259: packing of a heat begins: its row count is known, its crab decisions are logged (R418). -/
def State.beginPack (s : State) (r : Run) (h : Heat) (base skip kept : Nat) (rows : List PackRow) : State :=
  if h.packed.isSome then s
  else
    let s := s.modJob r.crew.num fun j =>
      let j := j.modRank h.rank fun x => { x with heats := x.heats ++ [(h.epoch, h.heat, kept)] }
      j.modHeat h.rank h.epoch h.heat fun x => { x with packed := some 0 }
    s.logChoices r h base skip rows

/-- R259: a heat is packed: its staging buffer is freed. -/
def State.endPack (s : State) (r : Run) (h : Heat) : State :=
  let mine (rank epoch heat : Nat) : Bool := rank == h.rank && epoch == h.epoch && heat == h.heat
  let s := s.modJob r.crew.num fun j =>
    { j with heats := j.heats.filter (fun x => !mine x.rank x.epoch x.heat),
             sources := j.sources.filter fun x => !mine x.rank x.epoch x.heat }
  (s.freeRef fun b => b == .heat r.crew.num h.rank h.epoch h.heat).checkDrained r.crew.num

/-- R259, R261: the oldest heat of a rank, all its contributions accepted, is packed: its rows and headers are written to the batches
that have a buffer, and its staging buffer is freed after the last. What lacks a batch buffer is written when the heat's packing ends
again. -/
def State.packHeat (s : State) (crew rank epoch heat : Nat) : State :=
  match s.run crew with
  | none => s
  | some r => match r.job.heats.find? fun h => h.rank == rank, r.job.rank rank with
    | some h, some k =>
      if h.epoch == epoch && h.heat == heat && h.items.length == r.job.heatLen heat && !h.rewrites.any (·.awaited) then
        let d := rcpPack r.rc.image
        let rows := packCounts (stRowlen d) (stSplit d) (h.items.map fun x => (x.1, x.2.2.length))
        let skip := if h.packed.isNone && k.heats.isEmpty || (k.heats.head?.map fun x => (x.1, x.2.1)) == some (epoch, heat) then k.skip else 0
        let kept := rows.drop skip
        let base := if h.packed.isNone then k.streamRows else k.streamRows - kept.length
        let s := s.beginPack r h base skip kept.length rows
        let first := base / r.job.b
        let nb := if kept.isEmpty then 0 else (base + kept.length - 1) / r.job.b + 1 - first
        let (_, s) := State.packBuffers crew rank nb first s
        let room (i : Nat) : Bool := match s.run crew with
          | some r => (r.job.batch rank ((base + i) / r.job.b)).isSome
          | none => false
        let done := h.packed.getD 0
        let now := ((kept.zipIdx).drop done).takeWhile fun x => room x.2
        let s := now.foldl (fun s (row, i) => s.writeSeqRow r h (base + i) row) s
        if done + now.length == kept.length then s.endPack r h
        else s.modJob crew fun j => j.modHeat rank epoch heat fun x => { x with packed := some (done + now.length) }
      else s
    | _, _ => s

/-! ### Deadline decisions (R425 to R427) -/

/-- R98 inverse: epoch and position of row t of a rank (pack-fixed). -/
def Job.rowPos (j : Job) (rank t : Nat) : Nat × Nat := (jobE0 j.block + t / j.q, t % j.q * j.m + rank)

/-- R426: one missing slot filled by a copy; its sample, when in flight, is discarded. -/
def State.deadlineSlot (r : Run) (rank bk : Nat) (s : State) (slot : Nat) : State :=
  let j := r.job
  let crew := r.crew.num
  let (epoch, pos) := j.rowPos rank (bk * j.b + slot)
  let own (c : Context) : Bool := c.crew == crew && c.epoch == epoch && c.pos == pos && c.peerOf.isNone && c.remote.isNone && c.rewrite.isNone
  let mine := s.contexts.find? own
  let src : Option (Hdr × Bytes) := match j.source rank epoch (pos / j.m / j.h) with
    | some x => match x.out with | .row b => some (x.hdr, b) | .toks _ => none
    | none => match j.batch rank bk with
      | some b => match b.rows.head?, b.hdrs.head? with
        | some row, some h => some (h, row.2)
        | _, _ => none
      | none => none
  match src with
  | none => s
  | some (h, b) =>
    let out := match mine with | some c => some c.sid | none => (r.job.again.find? own).map fun x : Context => x.sid
    let s := match mine with | some c => (s.dropPeers c.num).freeCtx c | none => s
    let s := s.modJob crew fun j => { j with again := j.again.filter fun c => !own c }
    let s := s.countChoice crew
    let s := s.writeOut r rank epoch pos h (.row b)
    s.logTiming (timingEntry 2 crew rank epoch pos bk (out.getD 0) h.sid (s.choices crew))

/-- R116: does a row of a batch of a rank belong to the heat that a resumed rank makes again without timing-dependent choices? -/
def Run.rowMadeAgain (r : Run) (k : RankJob) (bk slot : Nat) : Bool :=
  let (epoch, pos) := r.job.rowPos k.rank (bk * r.job.b + slot)
  k.resumed == some (epoch, pos / r.job.m / r.job.h)

/-- R427: no accepted row: a miss is counted and logged. -/
def State.miss (s : State) (r : Run) (rank bk : Nat) : State :=
  let s := s.modCrew r.crew.num fun c => { c with timedMisses := (c.timedMisses + 1) % 4294967296 }
  let n := match s.crew r.crew.num with | some c => c.timedMisses | none => 0
  s.logTiming (timingEntry 3 r.crew.num rank (r.job.rowPos rank (bk * r.job.b)).1 0 bk 0 0 n)

/-- R426, R427: the moment of a batch's deadline decision. No decision is made for a batch that lacks a row of a heat made again under
R116 (DESIGN CHOICE). -/
def State.deadline (s : State) (crew rank bk : Nat) : State :=
  match s.run crew with
  | none => s
  | some r => match r.job.rank rank with
    | none => s
    | some k =>
      if r.job.mode == 2 && k.next ≤ bk && bk < k.granted && bk < r.batchCount k then
        match r.job.batch rank bk with
        | some b =>
          let missing := (List.range r.job.b).filter fun i => !b.rows.any fun x => x.1 == i
          if b.desc.isSome || missing.any (r.rowMadeAgain k bk) then s
          else if b.rows.isEmpty then s.miss r rank bk
          else
            let s := missing.foldl (State.deadlineSlot r rank bk) s
            let last := (bk + 1) * r.job.b
            (s.modJob crew fun j => j.modRank rank fun x => if last ≤ x.dealt then x else
              { x with dealt := last, epoch := jobE0 j.block + last / j.q, q := last % j.q }).checkDrained crew
        | none => if (List.range r.job.b).any (r.rowMadeAgain k bk) then s else s.miss r rank bk
      else s

/-! ### Delivered batches (R234, R261, R380) and resume tokens (R112, R113) -/

/-- A batch counts as delivered: its buffer refills the reserve or goes back, and grants and lookahead advance. -/
def State.delivered (s : State) (crew rank bk : Nat) : State :=
  match s.run crew with
  | none => s
  | some _ =>
    let s : State := match [0, 1].find? fun i => !s.hasRef (.reserve crew rank i) with
      | some i => { s with mem := { s.mem with
          bufs := updWhere (fun (b : Buf) => b.ref == .batch crew rank bk) (fun b => { b with ref := .reserve crew rank i }) s.mem.bufs } }
      | none => s.freeRef fun (b : BufRef) => b == .batch crew rank bk
    let s := s.modJob crew fun j =>
      let j := j.modRank rank fun k =>
        { k with next := bk + 1, delivered := k.delivered + 1, grantedAt := k.grantedAt.filter fun g => g.1 != bk }
      { j with batches := j.batches.filter fun x => !(x.rank == rank && x.k == bk) }
    (s.answerGrants crew rank).checkDrained crew

/-- R112: a resume token's 64 bytes. -/
def tokenBytes (epoch : Nat) (fprint : Bytes) (rank heat rowoff batch : Nat) : Bytes :=
  let b := [0x01, 0, 0, 0] ++ leBytes 4 epoch ++ fitTo 16 fprint ++ leBytes 2 rank ++ zeros 6 ++ leBytes 8 heat ++
    leBytes 4 rowoff ++ zeros 4 ++ leBytes 8 batch ++ zeros 4
  b ++ leBytes 4 (crc32c b)

/-- The heat that holds row n of a packed stream, and the row's place in it; the heat after the last when n lies beyond. -/
def seqPlace (j : Job) (first : Bool) (skip : Nat) : List (Nat × Nat × Nat) → Nat → Nat × Nat → Nat × Nat × Nat
  | [], n, at_ => (at_.1, at_.2, n + if first then skip else 0)
  | (e, h, rows) :: rest, n, _ =>
    if n < rows then (e, h, n + if first then skip else 0)
    else
      let next := if h + 1 < j.heatCount then (e, h + 1) else (e + 1, 0)
      seqPlace j false skip rest (n - rows) next

/-- R113: the token of the batch that follows the last delivered one of a rank. -/
def Run.token (r : Run) (k : RankJob) : Bytes :=
  let j := r.job
  let fp := fingerprint j.settings
  if r.rc.seq then
    let start : Nat × Nat := match j.heats.find? fun h => h.rank == k.rank && h.packed.isNone with
      | some h => (h.epoch, h.heat)
      | none => (k.epoch, k.q / j.h)
    let (e, h, off) := seqPlace j true k.skip k.heats (k.next * j.b - k.base) start
    tokenBytes e fp k.rank h off k.next
  else
    let t := k.next * j.b
    tokenBytes (jobE0 j.block + t / j.q) fp k.rank (t % j.q / j.h) (t % j.q % j.h) k.next

/-- R113: the tokens of every rank, in rank order. -/
def Run.tokens (r : Run) : Bytes := r.job.ranks.flatMap r.token

end Sys2Proof.Machine
end

