-- ==== Sys2Proof/Machine/LoadOps.lean ====
section
/-!
DEFINITION. Loading a recipe (R156, R147, R151): the checks in order, slot kinds and bounds (R123 to R128), set tables and
residency.
-/
namespace Sys2Proof.Machine

/-- How a check of R156 fails: its status, reason code, failing stage (0xFF the header) and instruction (0xFFFF none). -/
structure LoadFail where
  status : Nat
  reason : Nat := 0
  stage  : Nat := 0xFF
  instr  : Nat := 0xFFFF
  deriving DecidableEq, Repr, Inhabited

/-- A rejection with a reason code. -/
def reject (reason stage : Nat) : LoadFail := { status := 0x20, reason := reason, stage := stage }

/-- A check: nothing when it holds. -/
def loadNeed (ok : Bool) (f : LoadFail) : Option LoadFail := if ok then none else some f

/-- The first failing check of a list. -/
def firstOf : List (Option LoadFail) → Option LoadFail
  | [] => none
  | some f :: _ => some f
  | none :: l => firstOf l

/-! ### Checks 1 to 4 -/

/-- R156 checks 1 to 4 and R117. A version byte beyond the image's end is left to the length check. -/
def loadShape (img : Bytes) : Option LoadFail :=
  let n := img.length
  let sc := rcpScount img
  let stages := List.range sc
  firstOf [
    loadNeed (n < 5 || field img 4 1 == 1) (reject 0x01 0xFF),
    (stages.find? fun i => 128 + 64 * i + 2 ≤ n && field (rcpStage img i) 1 1 != 1).map (reject 0x01),
    loadNeed (128 ≤ n && field img 0 4 == 0xC4A5D338 && 2 ≤ sc && sc ≤ 32 && n == 128 + 64 * sc + rcpPlen img) (reject 0x02 0xFF),
    (stages.find? fun i => !within 0x01 0x11 (stOp (rcpStage img i))).map (reject 0x03),
    (stages.find? fun i =>
      let op := stOp (rcpStage img i)
      (i == 0) != (op == 0x01) || (i + 1 == sc) != (op == 0x10 || op == 0x11)).map (reject 0x04)]

/-! ### Check 5: parameters (R128) -/

/-- The named bits of PARAM and BPARAM of an operation, as (high, low) ranges (R121, R128). -/
def paramFields (op : Nat) : List (Nat × Nat) :=
  match op with
  | 0x01 => [(95, 64)]
  | 0x02 => [(79, 64)]
  | 0x03 => [(79, 64), (127, 96)]
  | 0x04 => [(117, 64), (511, 128)]
  | 0x05 => [(72, 64), (319, 96)]
  | 0x06 => [(103, 64)]
  | 0x07 => [(127, 64)]
  | 0x08 => [(319, 64)]
  | 0x09 => [(143, 64)]
  | 0x0A => [(72, 64)]
  | 0x0B => [(75, 64), (111, 80)]
  | 0x0C => [(83, 64), (511, 128)]
  | 0x0D => [(79, 64), (127, 88), (511, 128)]
  | 0x0E => [(79, 64), (511, 128)]
  | 0x0F => [(83, 64)]
  | 0x10 => [(83, 64), (223, 96)]
  | _ => [(96, 64), (121, 104)]

/-- Are the RSVD bits of a descriptor 0? -/
def stRsvdOk (d : Bytes) : Bool :=
  bits d 63 24 == 0 &&
  (List.range 448).all fun i => (paramFields (stOp d)).any (fun f => f.2 ≤ i + 64 && i + 64 ≤ f.1) || bits d (i + 64) (i + 64) == 0

/-- R128: the parameters in their ranges; `fcount` is the field count where the schema is known, else the widest, 32. -/
def stParamsOk (d : Bytes) (fcount : Nat) : Bool :=
  match stOp d with
  | 0x01 =>
    let mask := bits d 95 64
    let n := ((List.range 32).filter fun i => mask >>> i % 2 == 1).length
    1 ≤ n && n ≤ 16 && mask >>> fcount == 0 && stDst d + n ≤ 16
  | 0x02 => bits d 71 64 ≤ 2 && bits d 79 72 ≤ 8
  | 0x03 => within 1 2 (bits d 71 64) && bits d 79 72 ≤ 5 && within 1 67108864 (bits d 127 96)
  | 0x05 =>
    bits d 71 64 ≤ 2 &&
    if bits d 72 72 == 1 then 1 ≤ bits d 287 256
    else if bits d 71 64 == 2 then
      1 ≤ bits d 127 96 && bits d 127 96 ≤ bits d 159 128 && bits d 159 128 ≤ 65536 &&
      1 ≤ bits d 175 160 && bits d 175 160 ≤ bits d 191 176
    else 1 ≤ bits d 207 192 && 1 ≤ bits d 223 208
  | 0x06 => bits d 71 64 ≤ 1 && within 1 8192 (bits d 87 72) && within 1 8192 (bits d 103 88)
  | 0x07 => bits d 95 64 ≤ 65536 && bits d 127 96 ≤ 65536
  | 0x09 =>
    bits d 71 64 ≤ 1 && within 1 256 (bits d 95 80) && 1 ≤ bits d 111 96 && Nat.gcd (bits d 95 80) (bits d 111 96) == 1 &&
    (bits d 71 64 == 0 || (bits d 79 72 % 2 == 0 && within 2 32 (bits d 79 72) && bits d 143 112 % 2 == 0))
  | 0x0A => within 0x01 0x0E (bits d 71 64) || isMx (bits d 71 64)
  | 0x0B => bits d 71 64 ≤ 1 && within 1 256 (bits d 111 96)
  | 0x0D =>
    let h := bits d 95 88
    within 1 4 h && (List.range 4).all fun i =>
      let f := bits d (103 + 8 * i) (96 + 8 * i)
      if i < h then within 1 64 f else f == 0
  | 0x0F => within 2 4 (stNslot d)
  | 0x10 => within 1 4 (stNslot d)
  | 0x11 => within 16 65536 (stRowlen d)
  | _ => true

/-- R119: the header's ranges and RSVD bits. -/
def headOk (img : Bytes) : Bool :=
  (field img 10 2 ≤ 10000 || field img 10 2 == 0xFFFF) && rcpPlen img % 8 == 0 && rcpPlen img ≤ 65536 &&
  field img 16 8 ≤ 2 ^ 48 && 1 ≤ rcpDcost img && field img 6 2 == 0 && field img 28 4 == 0 &&
  (slice img 80 48).all fun b => b == 0

/-! ### Check 6: slot kinds (R123, R125), and bounds (R127) -/

/-- Kinds of slot values. -/
inductive SlotKind | scalar | bytes | text | tokens | tensor | image | audio | mx | subgraph
  deriving DecidableEq, Repr, Inhabited

/-- What is known of a slot at load. -/
structure SlotTy where
  kind  : SlotKind
  /-- Element type, MX code, or content tag. -/
  et    : Nat := 0
  /-- R123: the other type of a pair told apart per stream. -/
  pair  : Bool := false
  /-- Greatest number of elements; none without a bound. -/
  els   : Option Nat := none
  /-- Tensor rank. -/
  rank  : Nat := 1
  /-- Innermost dimension where it is known. -/
  inner : Option Nat := none
  /-- Greatest channel count. -/
  ch    : Nat := 1
  /-- Graph dataset of a SUBGRAPH. -/
  graph : Nat := 0
  /-- Greatest width and height of an image, where a stage sets them. -/
  sides : Option (Nat × Nat) := none
  /-- R127: MAXLEN of the field that a value was fetched from. -/
  raw   : Option Nat := none
  deriving DecidableEq, Repr, Inhabited

/-- R127: the greatest size in bytes: MAXLEN for a value as fetched. -/
def SlotTy.bound (t : SlotTy) : Option Nat :=
  if t.raw.isSome then t.raw
  else t.els.map fun n => match t.kind with
    | .mx => mxSize t.et n
    | .subgraph => subgraphSize n
    | .bytes => n
    | .text => n
    | .tokens => 4 * n
    | _ => n * typeSize t.et

/-- R241: the column's format code. -/
def SlotTy.fmt (t : SlotTy) : Nat :=
  match t.kind with
  | .bytes => 0x10
  | .text => 0x11
  | .tokens => 0x12
  | .subgraph => 0x30
  | _ => t.et

/-- R48, R127: what fetch yields of a field. -/
def fieldTy (d : Bytes) : SlotTy :=
  let t := field d 16 1
  let maxlen := field d 20 4
  let cap : Option Nat := if maxlen == 0 then none else some maxlen
  if t ≤ 0x0E then { kind := .scalar, et := t, els := some 1 }
  else match t with
    | 0x10 => { kind := .bytes, et := field d 17 1, els := cap, raw := cap }
    | 0x11 => { kind := .text, els := cap, raw := cap }
    | 0x12 => { kind := .tokens, els := cap.map (fun n => n / 4), raw := cap }
    | _ =>
      let et := field d 17 1
      { kind := .tensor, et := et, rank := field d 18 1, els := cap.map (fun n => (n - 4 * field d 18 1) / max 1 (typeSize et)), raw := cap }

/-- Greatest pixels of an image (R197, R203). -/
def maxPixels : Nat := 67108864

/-- The lesser of two bounds. -/
def minBound : Option Nat → Option Nat → Option Nat
  | some a, some b => some (min a b)
  | some a, none => some a
  | none, b => b

/-- The sum of bounds. -/
def sumBound (l : List (Option Nat)) : Option Nat :=
  l.foldl (fun a b => match a, b with | some x, some y => some (x + y) | _, _ => none) (some 0)

/-- R127, R130: the greatest number of pixels of a window at most `w` wide and `h` high in an image of at most `a` pixels. -/
def rectBound (w h a : Nat) : Nat :=
  if w * h ≤ a then w * h else ((List.range w).map fun i => (i + 1) * min h (a / (i + 1))).foldl max 0

/-- R125: the slot an operation yields from its sources; none when it does not accept them. `tensor` is the bound tensor
dataset of a gather where check 8 has passed; an outer `some none` stands for a slot not known yet. -/
def outTy (d : Bytes) (src : List SlotTy) (tensor : Option Bytes) : Option (Option SlotTy) :=
  match src with
  | [] => none
  | s :: _ =>
    match stOp d, s.kind with
    | 0x02, .bytes =>
      let tag := s.et
      let outfmt := bits d 71 64
      let pcmch := bits d 79 72
      let pcm := tag == 4 || tag == 5
      if !within 1 5 tag || (pcmch != 0) != pcm || (3 ≤ tag && outfmt != 0) then none
      else match tag with
        | 1 => let ch := [3, 3, 1].getD outfmt 3; some (some { kind := .image, et := 0x01, els := some (maxPixels * ch), ch := ch })
        | 2 =>
          let ch := [4, 3, 1].getD outfmt 4
          some (some { kind := .image, et := 0x02, pair := true, els := some (maxPixels * ch), ch := ch })
        | 3 => some (some { kind := .audio, et := 0x07, pair := true, ch := 8 })
        | 4 => some (some { kind := .audio, et := 0x06, els := s.els.map fun n => n / 2, ch := pcmch })
        | _ => some (some { kind := .audio, et := 0x0B, els := s.els.map fun n => n / 4, ch := pcmch })
    | 0x03, .bytes => some (some { kind := .bytes, et := bits d 79 72, els := some (bits d 127 96) })
    | 0x04, .text =>
      let n := min (s.els.getD 1048576) 1048576
      some (some { kind := .tokens, els := some (n + bits d 116 116 + bits d 117 117) })
    | 0x05, .image =>
      if bits d 72 72 == 1 then none
      else if bits d 71 64 < 2 then
        let (w, h) := s.sides.getD (16384, 16384)
        let (w, h) := (min (bits d 207 192) w, min (bits d 223 208) h)
        some (some { s with els := s.els.map (fun n => s.ch * rectBound w h (n / max 1 s.ch)), sides := some (w, h) })
      else some (some s)
    | 0x05, .audio => if bits d 72 72 == 0 then none else some (some { s with els := minBound s.els (some (bits d 287 256 * s.ch)) })
    | 0x06, .image =>
      if s.et == 0x01 || s.et == 0x02 then some (some { s with els := some (bits d 87 72 * bits d 103 88 * s.ch), sides := some (bits d 87 72, bits d 103 88) })
      else none
    | 0x07, .image => some (some s)
    | 0x08, .image => some (some { s with et := 0x0B, pair := false })
    | 0x08, .tensor =>
      if s.rank == 0 || (s.inner.map fun n => !within 1 4 n).getD false then none
      else some (some { s with et := 0x0B, raw := none })
    | 0x09, .audio =>
      if s.et == 0x06 || s.et == 0x07 then
        some (some { s with els := s.els.map fun n => s.ch * max 1 (n / max 1 s.ch * bits d 95 80 / max 1 (bits d 111 96)) })
      else none
    | 0x0A, .scalar => some (some (conv s))
    | 0x0A, .tensor => some (some (conv s))
    | 0x0A, .image => some (some (conv s))
    | 0x0A, .audio => some (some (conv s))
    | 0x0D, .scalar =>
      if s.et == 0x03 then some (some { kind := .subgraph, els := some (nmaxOf (stFans d)), graph := stBdset d }) else none
    | 0x0E, .subgraph => match tensor with
      | none => some none
      | some m => some (some { kind := .tensor, et := manEtype m, rank := 2, inner := some (manD m),
                               els := s.els.map fun n => n * manD m, graph := s.graph })
    | 0x0F, k =>
      if (k == .tokens || k == .bytes || k == .tensor) && src.all (fun x => x.kind == k && (k != .tensor || x.et == s.et)) then
        some (some { kind := k, et := if k == .bytes && !src.all (fun x => x.et == s.et) then 0 else s.et,
                     els := sumBound (src.map (·.els)), rank := 1 })
      else none
    | _, _ => none
where
  /-- R139: the slot a convert stage yields. -/
  conv (s : SlotTy) : SlotTy :=
    let t := bits d 71 64
    if isMx t then { kind := .mx, et := t, els := s.els } else { s with et := t, pair := false, raw := none }

/-- The slots while the stages are followed: none not written yet, `some none` of a kind not known yet. -/
abbrev SlotMap := List (Option (Option SlotTy))

/-- R145: does a filter stage read an item of 32 to 63 for a slot that nothing has written? The instruction's index. -/
def filterSlotBad (prog d : Bytes) (slots : SlotMap) : Option Nat :=
  let code := filterCode prog (bits d 95 80) (bits d 111 96)
  (code.zipIdx.find? fun (i, n) => 8 * (bits d 95 80 + n) + 8 ≤ prog.length && i.op == 0x02 && 32 ≤ i.a && i.a ≤ 63 &&
    (slots.getD (i.a % 16) none).isNone).map (·.2)

/-- Check 6 on one stage: the slots after it, or the failure. `man` is the job's manifest where it may be used, `tens` the
bound tensor manifests where check 8 has passed. -/
def walkStage (img : Bytes) (man : Option Bytes) (tens : Nat → Option Bytes) (i : Nat) (slots : SlotMap) : SlotMap ⊕ LoadFail :=
  let d := rcpStage img i
  let bad : SlotMap ⊕ LoadFail := .inr (reject 0x06 i)
  let read (ns : List Nat) : Option (List (Option SlotTy)) :=
    ns.foldr (fun n acc => match slots.getD n none, acc with | some t, some l => some (t :: l) | _, _ => none) (some [])
  let known (l : List (Option SlotTy)) : Option (List SlotTy) :=
    l.foldr (fun t acc => match t, acc with | some x, some xs => some (x :: xs) | _, _ => none) (some [])
  match stOp d with
  | 0x01 =>
    let mask := bits d 95 64
    let fs := (List.range 32).filter fun k => mask >>> k % 2 == 1
    .inl ((fs.zipIdx).foldl (fun sl (k, j) => sl.set (stDst d + j) (some (man.map fun m => fieldTy (manField m k)))) slots)
  | 0x0B => match filterSlotBad (rcpProg img) d slots with
    | some n => .inr { reject 0x06 i with instr := n }
    | none => .inl slots
  | 0x0C => match read [stSrc d] with
    | some [some t] =>
      if (t.kind == .scalar && within 1 8 t.et) || t.kind == .bytes || t.kind == .text || t.kind == .tokens then .inl slots else bad
    | some _ => .inl slots
    | none => bad
  | 0x10 => match read ((List.range (stNslot d)).map (stSlot d)) with
    | some l => if l.any (fun t => match t with | some x => x.pair | none => false) then bad else .inl slots
    | none => bad
  | 0x11 => match read [stSrc d] with
    | some [some t] => if t.kind == .tokens then .inl slots else bad
    | some _ => .inl slots
    | none => bad
  | op =>
    match read (if op == 0x0F then (List.range (stNslot d)).map (stSlot d) else [stSrc d]) with
    | none => bad
    | some l => match known l with
      | none => .inl (slots.set (stDst d) (some none))
      | some src => match outTy d src (tens (stBdset d)) with
        | none => bad
        | some t => .inl (slots.set (stDst d) (some t))

/-- Check 6 over the stages from `i` on; `maps` collects the slots before each stage. -/
def walkStages (img : Bytes) (man : Option Bytes) (tens : Nat → Option Bytes) : Nat → Nat → SlotMap → List SlotMap → List SlotMap ⊕ LoadFail
  | 0, _, sl, acc => .inl (acc ++ [sl])
  | n + 1, i, sl, acc => match walkStage img man tens i sl with
    | .inr f => .inr f
    | .inl sl' => walkStages img man tens n (i + 1) sl' (acc ++ [sl])

/-- Check 6 over the whole recipe. -/
def walkAll (img : Bytes) (man : Option Bytes) (tens : Nat → Option Bytes) : List SlotMap ⊕ LoadFail :=
  walkStages img man tens (rcpScount img) 0 (List.replicate 16 none) []

/-! ### Check 7 -/

/-- R145: items defined for a recipe's programs. -/
def itemOk (a : Nat) : Bool := a ≤ 10 || within 16 63 a

/-- Check 7 on one stage. -/
def programFail (img : Bytes) (fcount : Option Nat) (i : Nat) : Option LoadFail :=
  let d := rcpStage img i
  match stOp d with
  | 0x0B =>
    if rcpPlen img < 8 * (bits d 95 80 + bits d 111 96) then some (reject 0x07 i)
    else (filterCheck fcount itemOk (filterCode (rcpProg img) (bits d 95 80) (bits d 111 96))).map fun n =>
      { reject 0x07 i with instr := n }
  | 0x09 => loadNeed (bits d 71 64 == 0 || bits d 143 112 + 2 * bits d 95 80 * bits d 79 72 ≤ rcpPlen img) (reject 0x07 i)
  | _ => none

/-! ### Checks 8 to 12 -/

/-- A catalogue entry by dataset number. -/
def State.dataset (s : State) (n : Nat) : Option Dataset := s.catalogue.find? fun d => d.dset == n

/-- Stages that bind a dataset. -/
def bindsDataset (op : Nat) : Bool := op == 0x0C || op == 0x0D || op == 0x0E

/-- Check 9 on one stage; `slots` are the slots before it. -/
def boundFail (s : State) (img : Bytes) (i : Nat) (slots : SlotMap) : Option LoadFail :=
  let d := rcpStage img i
  match stOp d, s.dataset (stBdset d) with
  | 0x0C, some ds =>
    loadNeed (ds.kind == 3 && manD ds.manifest == 1 && (manEtype ds.manifest == 0x03 || manEtype ds.manifest == 0x04)) (reject 0x08 i)
  | 0x0D, some ds => loadNeed (ds.kind == 2) (reject 0x08 i)
  | 0x0E, some ds =>
    let v : Nat := match slots.getD (stSrc d) none with
      | some (some t) => match s.dataset t.graph with
        | some g => manV g.manifest
        | none => 0
      | _ => 0
    loadNeed (ds.kind == 3 && v ≤ manRows ds.manifest) (reject 0x08 i)
  | _, _ => none

/-- Check 10 on one tokenize stage. -/
def vocabFail (s : State) (img : Bytes) (i : Nat) : Option LoadFail :=
  let d := rcpStage img i
  if stOp d != 0x04 then none
  else match s.vocabs.find? fun v => v.num == stBdset d with
    | none => some (reject 0x09 i)
    | some v =>
      let n := vocNtok v.image
      firstOf [
        loadNeed (v.hash == slice d 16 48) (reject 0x09 i),
        loadNeed ((bits d 116 116 == 0 || bits d 97 80 < n) && (bits d 117 117 == 0 || bits d 115 98 < n)) (reject 0x09 i),
        loadNeed (stOp (rcpPack img) != 0x11 || stPadid (rcpPack img) < n) (reject 0x09 (rcpScount img - 1))]

/-- R127, R243, R247: the column lengths of a pack-fixed recipe, or the failing check 12. -/
def columnLens (img : Bytes) (cols : List SlotTy) : List Nat ⊕ LoadFail :=
  let d := rcpPack img
  let i := rcpScount img - 1
  let lens : List (Option Nat) := cols.zipIdx.map fun (t, c) =>
    let len := bits d (127 + 32 * c) (96 + 32 * c)
    match t.bound with
    | none => if len == 0 then none else some len
    | some b =>
      if len == 0 then some b
      else if (t.kind == SlotKind.mx || t.kind == SlotKind.subgraph) && len < b then none
      else some len
  if lens.any (·.isNone) then .inr (reject 0x0A i)
  else
    let l := lens.map fun x => x.getD 0
    if 67108864 < l.sum then .inr (reject 0x0A i) else .inl l

/-- R156 checks 5 to 12 on an image of the right shape: the recipe without its set tables, or the first failure. -/
def loadChecks (s : State) (img : Bytes) : Recipe ⊕ LoadFail :=
  let sc := rcpScount img
  let stages := List.range sc
  let job := s.dataset (rcpDset img)
  let man : Option Bytes := match job with
    | some d => if (d.kind == 1 || d.kind == 4) && d.mhash == slice img 32 48 then some d.manifest else none
    | none => none
  let fcount := man.map manFcount
  let early := firstOf [
    loadNeed (headOk img) (reject 0x05 0xFF),
    stages.findSome? fun i =>
      let d := rcpStage img i
      loadNeed (stRsvdOk d && stParamsOk d (fcount.getD 32)) (reject 0x05 i)]
  match early with
  | some f => .inr f
  | none => match walkAll img man fun _ => none with
    | .inr f => .inr f
    | .inl _ =>
      match firstOf [
        stages.findSome? (programFail img fcount),
        loadNeed man.isSome { status := 0x22 },
        stages.findSome? fun i =>
          let d := rcpStage img i
          if bindsDataset (stOp d) then
            loadNeed ((s.dataset (stBdset d)).map (·.mhash) == some (slice d 16 48)) { status := 0x22 }
          else none] with
      | some f => .inr f
      | none =>
        let tens (n : Nat) : Option Bytes := match s.dataset n with | some d => if d.kind == 3 then some d.manifest else none | none => none
        match stages.findSome? fun i => boundFail s img i [] with
        | some f => .inr f
        | none => match walkAll img man tens with
          | .inr f => .inr f
          | .inl maps =>
            match firstOf [
              stages.findSome? fun i => boundFail s img i (maps.getD i []),
              stages.findSome? (vocabFail s img),
              loadNeed (!stages.any (fun i => stOp (rcpStage img i) == 0x0D) || s.features % 2 == 1) { status := 0x30 },
              loadNeed (rcpDcost img ≤ rcpWcap img) (reject 0x0A 0xFF)] with
            | some f => .inr f
            | none =>
              let d := rcpPack img
              let last := maps.getD (sc - 1) []
              let cols := (List.range (stNslot d)).filterMap fun c => (last.getD (stSlot d c) none).join
              let ds := job.getD { dset := 0, kind := 0, manifest := [], mhash := [], gen := 0, place := [] }
              let rc : Recipe := { image := img, hash := sha384 img, lens := [], fmts := [], tables := [], man := ds.manifest, place := ds.place }
              if stOp d == 0x11 then .inl rc
              else match columnLens img cols with
                | .inr f => .inr f
                | .inl lens => .inl { rc with lens := lens, fmts := cols.map (·.fmt) }

/-- R156: checks 1 to 12. -/
def loadRecipe (s : State) (img : Bytes) : Recipe ⊕ LoadFail :=
  match loadShape img with
  | some f => .inr f
  | none => loadChecks s img

/-! ### Set tables and check 13 (R149, R151) -/

/-- Datasets of a recipe's set-member stages, each once, with the stage that binds it first. -/
def setStages (img : Bytes) : List (Nat × Nat) :=
  (List.range (rcpScount img)).foldl (fun acc i =>
    let d := rcpStage img i
    if stOp d == 0x0C && !acc.any fun x => x.1 == stBdset d then acc ++ [(stBdset d, i)] else acc) []

/-- R151: bytes of a set table. -/
def tableBytes (man : Bytes) : Nat := typeSize (manEtype man) * tableSlots (manRows man)

/-- R150: the keys of a set dataset in array order; the shard and granule that fails otherwise. -/
def readKeys (m : Media) (ds : Dataset) : List Nat ⊕ (Nat × Nat) :=
  let size := typeSize (manEtype ds.manifest)
  let rec go : Nat → Nat → List Nat → List Nat ⊕ (Nat × Nat)
    | 0, _, acc => .inl acc
    | n + 1, i, acc =>
      let els := (arrayShape ds.manifest i).2
      match readElems m ds.manifest ds.place i 0 els with
      | .inl b => go n (i + 1) (acc ++ (chunks size els b).map leNat)
      | .inr (_, g) => .inr (manShard ds.manifest i, g)
  go (manScount ds.manifest) 0 []

/-- R149: the set tables of a recipe built; otherwise the stage, dataset, shard and granule that fails. -/
def buildTables (s : State) (img : Bytes) : List SetTable ⊕ (Nat × Nat × Nat × Nat) :=
  (setStages img).foldl (fun acc (n, i) => match acc, s.dataset n with
    | .inl l, some ds => match readKeys s.media ds with
      | .inl keys => .inl (l ++ [buildTable tableSeed n (typeSize (manEtype ds.manifest)) keys])
      | .inr (k, g) => .inr (i, n, k, g)
    | acc, _ => acc) (.inl [])

/-- R289: one shard's resident copy: the crew joins the copy there is, or a new buffer is drawn; the flag is false without quota or
room. -/
def State.joinShard (s : State) (crew : Nat) (w : Nat × Nat × Bool) : Bool × State :=
  let (dset, k, feature) := w
  let o := ownerId 0 crew
  match s.mem.bufs.find? fun b => b.ref == .resident dset k with
  | some b =>
    let p := s.payer b.use o
    if b.owners.contains o then (true, s)
    else if 64 ≤ b.owners.length || !s.affords p b.tier b.bytes then (false, s)
    else (true, { s with mem := { s.mem with
      bufs := updWhere (fun x => x.id == b.id) (fun x => { x with owners := x.owners ++ [o], payers := x.payers ++ [p] }) s.mem.bufs } })
  | none => match s.dataset dset with
    | none => (false, s)
    | some ds => match s.alloc (if feature then .residentFeature else .residentGraph) (.resident dset k) (4096 * arrayGranules ds.manifest k) [o] with
      | (true, s) => (true, { s with residents := s.residents ++ [{ dset := dset, shard := k, granules := [] }] })
      | no => no

/-- A state with TierFallbacks as a request that failed left it (R447). -/
def State.afterFail (s t : State) : State := { s with mem := { s.mem with tierFallbacks := t.mem.tierFallbacks } }

/-- Buffers for a recipe's set tables (R151), all or none; the flag says which. -/
def State.takeTables (s : State) (crew : Nat) : List (Nat × Nat) → Bool × State
  | [] => (true, s)
  | (n, _) :: rest => match s.dataset n with
    | none => State.takeTables s crew rest
    | some ds => match s.alloc .setTable (.setTable crew n) (tableBytes ds.manifest) [ownerId 0 crew] with
      | (true, s) => State.takeTables s crew rest
      | no => no

/-- A crew's set tables freed. -/
def State.freeTables (s : State) (crew : Nat) : State :=
  s.freeRef fun b => match b with | .setTable c _ => c == crew | _ => false

/-! ### Residency (R288 to R292) -/

/-- R288: the array shards a recipe's crew copies: (dataset, shard place, feature). -/
def residentWanted (s : State) (img : Bytes) (value : Nat) : List (Nat × Nat × Bool) :=
  ((List.range (rcpScount img)).flatMap fun i =>
    let d := rcpStage img i
    match s.dataset (stBdset d) with
    | none => []
    | some ds =>
      if stOp d == 0x0D && 1 ≤ value then (List.range (manScount ds.manifest)).map fun k => (ds.dset, k, false)
      else if stOp d == 0x0E && value == 2 then (List.range (manScount ds.manifest)).map fun k => (ds.dset, k, true)
      else []).eraseDups

/-- R289: a dataset's resident copy, every shard of it; a crew without quota or room reads the dataset from flash. -/
def State.joinResident (s : State) (crew : Nat) (shards : List (Nat × Nat × Bool)) : State :=
  match shards.foldl (fun (t : Bool × State) w => if t.1 then t.2.joinShard crew w else t) (true, s) with
  | (true, s) => s
  | (false, t) => s.afterFail t

/-- R292: a crew leaves every resident copy; a copy goes with its last owner. -/
def State.leaveResidents (s : State) (crew : Nat) : State :=
  let o := ownerId 0 crew
  let mine := s.mem.bufs.filter fun b => match b.ref with | .resident _ _ => b.owners.contains o | _ => false
  let s := mine.foldl (fun s b => s.leave o b) s
  { s with residents := s.residents.filter fun r => s.mem.bufs.any fun b => b.ref == .resident r.dset r.shard }

/-- R157, R288, R293: a loaded recipe brings the crew to LOADED. -/
def State.setLoaded (s : State) (crew : Nat) (rc : Recipe) : State :=
  let value := s.num 0x2430 0
  let graph := (List.range (rcpScount rc.image)).any fun i => stOp (rcpStage rc.image i) == 0x0D
  let s := s.modCrew crew fun c => { c with state := 1, recipe := some rc, residency := value, graphAllowed := graph }
  let all := residentWanted s rc.image value
  if graph then (all.map (·.1)).eraseDups.foldl (fun s d => s.joinResident crew (all.filter fun w => w.1 == d)) s else s

/-- R773: the entry of page 0x32. -/
def rejectionEntry (f : LoadFail) (qid cid : Nat) (img : Bytes) (us : Nat) : Bytes :=
  let b := [0x01, byteOf f.reason, byteOf f.stage, 0] ++ leBytes 2 f.instr ++ zeros 2 ++ [byteOf qid, 0] ++ leBytes 2 cid ++
    zeros 4 ++ (sha384 img).take 16 ++ leBytes 8 us ++ zeros 20
  b ++ leBytes 4 (crc32c b)

end Sys2Proof.Machine
end

