-- ==== Sys2Proof/Machine/MeshOps.lean ====
section
/-!
DEFINITION. The mesh of a preparation die ("How the DX36 is built"): positions (R16), the dimension-ordered route, and the detour
tables that the cox loads around a failed router (R31).
-/
namespace Sys2Proof.Machine

/-- R16: the mesh position, row × 6 + column, of an eight's slot; the die gateway holds position 6. -/
def meshPos (slot : Nat) : Nat := if slot < 6 then slot else slot + 1

/-- The dimension-ordered route: the positions passed after `pos`, along the row to the column, then along the column. -/
def meshRoute : Nat → Nat → Nat → List Nat
  | 0, _, _ => []
  | fuel + 1, pos, dst =>
    if pos == dst then []
    else
      let next := if pos % 6 < dst % 6 then pos + 1 else if dst % 6 < pos % 6 then pos - 1 else if pos < dst then pos + 6 else pos - 6
      next :: meshRoute fuel next dst

/-- R31: the moves of a route under the west-first turn rule: no turn into west, so `west` holds while every move so far went west. -/
def meshMoves (pos : Nat) (west : Bool) : List (Nat × Bool) :=
  (if west && 0 < pos % 6 then [(pos - 1, true)] else []) ++ (if pos % 6 < 5 then [(pos + 1, false)] else []) ++
  (if 6 ≤ pos then [(pos - 6, false)] else []) ++ (if pos < 12 then [(pos + 6, false)] else [])

/-- One longer: the routes that reach a place and turn state not reached before, the first found of each. -/
def meshWiden (failed : List Nat) (seen : List (Nat × Bool)) (routes : List (List Nat × Nat × Bool)) : List (List Nat × Nat × Bool) :=
  (routes.flatMap fun (path, pos, west) => (meshMoves pos west).map fun m => (path ++ [m.1], m)).foldl (fun l x =>
    if failed.contains x.2.1 || seen.contains x.2 || l.any fun y => y.2 == x.2 then l else l ++ [x]) []

/-- R31: a shortest west-first route to `dst` that passes no failed position: the positions after the source. -/
def westFirst (failed : List Nat) (dst : Nat) : Nat → List (Nat × Bool) → List (List Nat × Nat × Bool) → Option (List Nat)
  | 0, _, _ => none
  | fuel + 1, seen, routes => match routes.find? fun x => x.2.1 == dst with
    | some x => some x.1
    | none => westFirst failed dst fuel (seen ++ routes.map (·.2)) (meshWiden failed seen routes)

/-- R31: the detours of a die whose routers at some positions have failed: for each pair of other positions whose dimension-ordered
route would pass one, a west-first route around it; a pair that has none gets no entry. -/
def detourTable (die : Nat) (failed : List Nat) : List Detour :=
  if failed.isEmpty then [] else
    let others := (List.range 18).filter fun p => !failed.contains p
    others.flatMap fun src => others.filterMap fun dst =>
      if (meshRoute 18 src dst).any failed.contains then
        (westFirst failed dst 18 [] [([], src, true)]).map fun path => { die := die, src := src, dst := dst, path := path }
      else none

/-- R31: the detour tables of the four preparation dies, from the fenced routers. -/
def Faults.detourTables (f : Faults) : List Detour :=
  (List.range 4).flatMap fun die => detourTable die (f.fences.filterMap fun u => match u with
    | .router p => if p / 17 == die then some (meshPos (p % 17)) else none
    | _ => none)

/-- The route that traffic takes between two positions of a die: the detour, where one is loaded (R31). -/
def Faults.route (f : Faults) (die src dst : Nat) : List Nat :=
  match f.detours.find? fun d => d.die == die && d.src == src && d.dst == dst with
  | some d => d.path
  | none => meshRoute 18 src dst

end Sys2Proof.Machine
end

