-- ==== Sys2Proof/Machine/Deflate.lean ====
section
/-!
DEFINITION. The compression slice's encoder (R222, R226): the matcher, and one final DEFLATE block (RFC 1951) with fixed codes or with
codes built from the block. What the compressor revision decides is open: the hash of the matcher's chains, the code lengths, and the
runs in which the code lengths are written.
-/
namespace Sys2Proof

/-- A symbol of a block: a literal, or a copy of `len` bytes from `dist` back. -/
inductive Token
  | lit (b : Byte)
  | copy (len dist : Nat)
  deriving DecidableEq, Repr, Inhabited

/-- Bytes from `i` on that equal those from `j` on, at most `n`. -/
def matchLen (a : Array Byte) (i j : Nat) : Nat → Nat
  | 0 => 0
  | n + 1 => if i < a.size && a.getD i 0 == a.getD j 0 then matchLen a (i + 1) (j + 1) n + 1 else 0

/-- The matcher: the block, the revision's hash chains (positions, newest first), and the chain depth. -/
structure Matcher where
  a      : Array Byte
  chains : Array (List Nat)
  depth  : Nat
  rev    : Nat

/-- The hash chain of the three bytes at a position. -/
def Matcher.chain (m : Matcher) (i : Nat) : Nat :=
  Config.matchHash m.rev ((m.a.getD i 0).toNat + 256 * (m.a.getD (i + 1) 0).toNat + 65536 * (m.a.getD (i + 2) 0).toNat) % 32768

/-- A position entered in its chain. -/
def Matcher.enter (m : Matcher) (i : Nat) : Matcher :=
  if m.a.size < i + 3 then m else { m with chains := m.chains.modify (m.chain i) fun l => (i :: l).take m.depth }

/-- The longest match at a position among its chain's newest positions within 32 KiB, the nearest of equals; 0 below 3 bytes. -/
def Matcher.best (m : Matcher) (i : Nat) : Nat × Nat :=
  if m.a.size < i + 3 then (0, 0)
  else
    let (len, dist) := ((m.chains.getD (m.chain i) []).take m.depth).foldl (fun (best : Nat × Nat) j =>
      let n := if i - j ≤ 32768 then matchLen m.a i j 258 else 0
      if best.1 < n then (n, i - j) else best) (0, 0)
    if len < 3 then (0, 0) else (len, dist)

/-- R226: the tokens of a block from position `i` on: greedy, or lazy, where a match gives way to a longer one at the next position. -/
def Matcher.tokens (lazy_ : Bool) : Nat → Matcher → Nat → List Token → List Token
  | 0, _, _, acc => acc.reverse
  | fuel + 1, m, i, acc =>
    if m.a.size ≤ i then acc.reverse
    else
      let (len, dist) := m.best i
      let m := m.enter i
      if len == 0 || (lazy_ && len < (m.best (i + 1)).1) then Matcher.tokens lazy_ fuel m (i + 1) (.lit (m.a.getD i 0) :: acc)
      else
        let m := (List.range (len - 1)).foldl (fun m k => m.enter (i + 1 + k)) m
        Matcher.tokens lazy_ fuel m (i + len) (.copy len dist :: acc)

/-- The tokens of a block in a table mode: static is greedy with depth 4, dynamic lazy with depth 32 (R226). -/
def blockTokens (rev mode : Nat) (b : Bytes) : List Token :=
  Matcher.tokens (mode == 2) b.length
    { a := b.toArray, chains := Array.replicate 32768 [], depth := if mode == 2 then 32 else 4, rev := rev } 0 []

/-! ### Codes and bits (RFC 1951) -/

/-- `n` bits of a value, least significant first. -/
def bitsLow (n v : Nat) : List Bool := (List.range n).map fun i => v / 2 ^ i % 2 == 1

/-- The code of each symbol from the code lengths: canonical, most significant bit first; none for length 0. -/
def huffBits (lens : List Nat) (s : Nat) : List Bool :=
  let l := lens.getD s 0
  if l == 0 then []
  else
    let first := (List.range l).foldl (fun c k => 2 * (c + (if k == 0 then 0 else lens.count k))) 0
    let code := first + ((lens.take s).filter fun x => x == l).length
    (bitsLow l code).reverse

/-- The place in a table of base values that covers a value: the last base not above it. -/
def baseIndex (bases : List Nat) (v : Nat) : Nat := (bases.filter fun b => b ≤ v).length - 1

/-- The length symbol of a copy, its number of extra bits and their value. -/
def lenSymbol (len : Nat) : Nat × Nat × Nat := let i := baseIndex lenBase len; (257 + i, lenExtra.getD i 0, len - lenBase.getD i 0)

/-- The distance symbol of a copy, its number of extra bits and their value. -/
def distSymbol (d : Nat) : Nat × Nat × Nat := let i := baseIndex distBase d; (i, distExtra.getD i 0, d - distBase.getD i 0)

/-- A token's bits under a pair of codes. -/
def Token.bits (lit dist : List Nat) : Token → List Bool
  | .lit b => huffBits lit b.toNat
  | .copy len d =>
    let (ls, ln, lx) := lenSymbol len
    let (ds, dn, dx) := distSymbol d
    huffBits lit ls ++ bitsLow ln lx ++ huffBits dist ds ++ bitsLow dn dx

/-- How often each of `n` symbols occurs. -/
def symbolCounts (n : Nat) (l : List Nat) : List Nat := (List.range n).map fun s => l.count s

/-- Bits packed into bytes, first bit lowest. -/
def packBits : Nat → List Bool → Bytes
  | 0, _ => []
  | fuel + 1, l =>
    if l.isEmpty then []
    else BitVec.ofNat 8 (((l.take 8).zipIdx.map fun (b, i) => if b then 2 ^ i else 0).sum) :: packBits fuel (l.drop 8)

/-- Code lengths of the fixed literal and length code. -/
def fixedLens : List Nat := List.replicate 144 8 ++ List.replicate 112 9 ++ List.replicate 24 7 ++ List.replicate 8 8

/-- The header of a dynamic block: HLIT, HDIST, HCLEN, the code length code, and the code lengths in the revision's runs of symbols with
their extra bits. -/
def dynamicHead (rev : Nat) (lit dist : List Nat) : List Bool :=
  let used (least : Nat) (l : List Nat) : Nat := max least (l.length - (l.reverse.takeWhile fun x => x == 0).length)
  let hlit := used 257 lit
  let hdist := used 1 dist
  let runs := Config.lengthRuns rev (fitLens hlit lit ++ fitLens hdist dist)
  let cl := Config.codeLengths rev (symbolCounts 19 (runs.map (·.1)))
  let order := clOrder.map fun s => cl.getD s 0
  let hclen := used 4 order
  bitsLow 5 (hlit - 257) ++ bitsLow 5 (hdist - 1) ++ bitsLow 4 (hclen - 4) ++ ((order.take hclen).flatMap (bitsLow 3)) ++
    runs.flatMap fun (s, x) => huffBits cl s ++ bitsLow (if s == 16 then 2 else if s == 17 then 3 else if s == 18 then 7 else 0) x
where
  /-- A list of code lengths cut or filled to a length. -/
  fitLens (n : Nat) (l : List Nat) : List Nat := l.take n ++ List.replicate (n - l.length) 0

/-- R222, R226: the DEFLATE payload of a block: one final block, BTYPE 01 in static mode and BTYPE 10 in dynamic mode. -/
def deflateBlock (rev mode : Nat) (b : Bytes) : Bytes :=
  let toks := blockTokens rev mode b
  let body (lit dist : List Nat) : List Bool := toks.flatMap (Token.bits lit dist) ++ huffBits lit 256
  let all : List Bool :=
    if mode == 1 then [true, true, false] ++ body fixedLens (List.replicate 30 5)
    else
      let lits := toks.map fun t => match t with | .lit b => b.toNat | .copy n _ => (lenSymbol n).1
      let dists := toks.filterMap fun t => match t with | .lit _ => none | .copy _ d => some (distSymbol d).1
      let lit := Config.codeLengths rev (symbolCounts 286 (lits ++ [256]))
      let dist := Config.codeLengths rev (symbolCounts 30 dists)
      [true, false, true] ++ dynamicHead rev lit dist ++ body lit dist
  packBits all.length all

end Sys2Proof
end

