-- ==== Sys2Proof/Machine/SinkOps.lean ====
section
/-!
DEFINITION. Writing to the media within its capacity (R514, R515), the compression engine (R221 to R227), and rollout sinks:
their headers (R310), events (R337), blocks, records (R329), sealing (R80, R330) and closing (R333, R334).
-/
namespace Sys2Proof.Machine

/-! ### Room on the media (R514 to R517) -/

/-- Would a host write of blocks make V exceed A − R? -/
def Media.over (m : Media) (slba nlb : Nat) : Bool :=
  m.usable < m.reserveBytes + m.validBytes + m.freshUnits slba nlb * unitBytes

/-- R515: the media enter READONLY when no LUN holds a reserve block, and the metadata space records it. -/
def State.enterReadonly (s : State) : State :=
  if s.media.anyReserve then s else
    let m := { s.media with state := 2 }
    { s with media := match m.record [0x01] .readonly with | some (_, m) => m | none => m }

/-- Bytes written at a byte address of the host space; the rest of the last block becomes zeros, what precedes the address in
its first block stays. -/
def Media.writeAt (m : Media) (a : Nat) (b : Bytes) : Option Media :=
  let first := a / 4096
  let n := ceilDiv (a % 4096 + b.length) 4096
  let data := fitTo (4096 * n) (m.readBytes (4096 * first) (a % 4096) ++ b)
  (m.write first n data).map (·.2)

/-! ### The compression engine (R221 to R225) -/

/-- A stored block: 16-byte header and payload (R52). -/
def blockOf (method : Nat) (orig payload : Bytes) : Bytes :=
  [0x01, byteOf method, 0, 0] ++ leBytes 4 orig.length ++ leBytes 4 payload.length ++ leBytes 4 (crc32c orig) ++ payload

/-- R222 to R225: a block compressed in a table mode, and whether its verification failed: what the slice made decodes to something else,
by a fault of the slice or of its codes. -/
def compressBlock (mode : Nat) (orig : Bytes) : Bytes × Bool :=
  let payload := deflateBlock Config.compressorRevision mode orig
  if mode == 0 || orig.length ≤ payload.length then (blockOf 0 orig orig, false)
  else if !Config.sliceGood mode orig then (blockOf 0 orig orig, true)
  else match inflate (orig.length + 1) payload with
    | (out, .done []) => if crc32c out == crc32c orig then (blockOf 1 orig payload, false) else (blockOf 0 orig orig, true)
    | _ => (blockOf 0 orig orig, true)

/-- The next multiple of 16. -/
def up16 (n : Nat) : Nat := ceilDiv n 16 * 16

/-- R221, R228: bytes to be sent, as compressed blocks in static mode, and whether a block's verification failed; `fuel` is at least the
blocks. -/
def codeBlocks : Nat → Bytes → Bytes × Bool
  | 0, _ => ([], false)
  | fuel + 1, b =>
    if b.isEmpty then ([], false)
    else
      let (x, bad) := compressBlock 1 (b.take 65536)
      let (y, bad') := codeBlocks fuel (b.drop 65536)
      (x ++ y, bad || bad')

/-- R228: received blocks decoded and checked. -/
def uncodeBlocks : Nat → Bytes → Option Bytes
  | 0, _ => none
  | fuel + 1, b =>
    if b.isEmpty then some []
    else
      let n := 16 + field b 8 4
      match decodeBlock (b.take n) n (field b 4 4) (field b 12 4) with
      | none => none
      | some x => (uncodeBlocks fuel (b.drop n)).map fun y => x ++ y

/-- R225: kind 0x15 against the compression slice that served a crew's stream: the lowest eight's (DESIGN CHOICE). -/
def State.compressFault (s : State) (crew block : Nat) : State :=
  let e := match s.crew crew with | some c => c.eights.headD 0 | none => 0
  s.raise { unit := 0x200 + e, sub := 5, kind := 0x15, phys := some (s.physEight e), crew := some crew, addr := block }

/-! ### Sink headers (R310) -/

/-- SINK. -/
def sinkNum (b : Bytes) : Nat := field b 1 1
/-- CREW. -/
def sinkCrew (b : Bytes) : Nat := field b 2 1
/-- KEEP. -/
def sinkKeep (b : Bytes) : Nat := bits b 26 24
/-- DSET. -/
def sinkDset (b : Bytes) : Nat := field b 4 2
/-- VOCAB. -/
def sinkVocab (b : Bytes) : Nat := field b 6 1
/-- GRAMMAR. -/
def sinkGrammar (b : Bytes) : Nat := field b 7 1
/-- NSTOP. -/
def sinkNstop (b : Bytes) : Nat := field b 8 1
/-- NEND. -/
def sinkNend (b : Bytes) : Nat := bits b 75 72
/-- PCOUNT. -/
def sinkPcount (b : Bytes) : Nat := field b 10 2
/-- MSIX. -/
def sinkMsix (b : Bytes) : Nat := field b 12 2
/-- END0 to END(NEND − 1). -/
def sinkEnds (b : Bytes) : List Nat := (List.range (sinkNend b)).map fun i => field b (16 + 4 * i) 4
/-- SLBA. -/
def sinkSlba (b : Bytes) : Nat := field b 32 8
/-- NBLK. -/
def sinkNblk (b : Bytes) : Nat := field b 40 8
/-- RING. -/
def sinkRing (b : Bytes) : Nat := field b 48 8
/-- RENT. -/
def sinkRent (b : Bytes) : Nat := field b 56 4
/-- The stop strings in use. -/
def sinkStops (b : Bytes) : List Bytes := (List.range (sinkNstop b)).map fun i => slice b (128 + 64 * i) (field b (64 + i) 1)
/-- The filter program. -/
def sinkProg (b : Bytes) : Bytes := b.drop 1152

/-- A sink by number. -/
def State.sink (s : State) (n : Nat) : Option Sink := s.sinks.find? fun k => k.num == n

/-- A sink changed. -/
def State.modSink (s : State) (n : Nat) (f : Sink → Sink) : State := { s with sinks := updWhere (fun k => k.num == n) f s.sinks }

/-! ### Events (R337, R338) -/

/-- What an event carries. -/
structure SinkEvent where
  kind    : Nat
  stream  : Nat := 0
  prompt  : Nat := 0
  verdict : Nat := 0
  stopIdx : Option Nat := none
  endr    : Nat := 0
  outcome : Nat := 0
  stopOff : Option Nat := none
  ntokc   : Nat := 0
  tlen    : Nat := 0
  nbad    : Nat := 0
  badOff  : Option Nat := none
  nbadTok : Nat := 0
  ndisc   : Nat := 0
  shard   : Nat := 0
  recIdx  : Nat := 0

/-- The 64 bytes of an event. -/
def SinkEvent.encode (e : SinkEvent) (sink dset : Nat) (phase : Bool) : Bytes :=
  let none4 (o : Option Nat) : Bytes := leBytes 4 (o.getD 0xFFFFFFFF)
  let b := [0x01, byteOf e.kind, byteOf sink, if phase then 1 else 0] ++ leBytes 4 e.stream ++ leBytes 8 e.prompt ++
    [byteOf e.verdict, byteOf (e.stopIdx.getD 0xFF), byteOf e.endr, byteOf e.outcome] ++ none4 e.stopOff ++ leBytes 4 e.ntokc ++
    leBytes 4 e.tlen ++ leBytes 4 e.nbad ++ none4 e.badOff ++ leBytes 4 e.nbadTok ++ leBytes 4 e.ndisc ++ leBytes 3 e.shard ++ [0] ++
    leBytes 4 e.recIdx ++ leBytes 2 dset ++ [0, 0]
  b ++ leBytes 4 (crc32c b)

/-- R337, R338: an event written into a sink's ring, or dropped when the ring is full (RENT − 1 entries unread). -/
def State.sinkEvent (s : State) (n : Nat) (e : SinkEvent) : State :=
  match s.sink n with
  | none => s
  | some k =>
    let rent := max 1 (sinkRent k.image)
    let next := (k.ringNext + 1) % rent
    if next == k.consumer % rent then s.modSink n fun k => { k with eventsLost := (k.eventsLost + 1) % 4294967296 }
    else
      let s := s.send (.dmaWrite (sinkRing k.image + 64 * k.ringNext) (e.encode n (sinkDset k.image) k.phase) false)
      s.modSink n fun k => { k with ringNext := next, phase := if next == 0 then !k.phase else k.phase, unsignalled := true }

/-- What an event says of a stream. -/
def Stream.event (t : Stream) (outcome shard rec_ : Nat) : SinkEvent :=
  { kind := 0x01, stream := t.num, prompt := t.prompt, verdict := t.verdict, stopIdx := t.stopIdx, endr := t.ended.getD 0,
    outcome := outcome, stopOff := t.stopOff, ntokc := t.tokens.length, tlen := t.text.length, nbad := t.nbad,
    badOff := t.badOff, nbadTok := t.nbadTok, ndisc := t.ndisc, shard := shard, recIdx := rec_ }

/-! ### Blocks of the open shard (R221, R330) -/

/-- Byte address of the open shard's data area. -/
def Sink.dataAt (k : Sink) : Nat := 4096 * (k.base + 321)

/-- Byte address of the extent's end. -/
def Sink.extentEnd (k : Sink) : Nat := 4096 * (sinkSlba k.image + sinkNblk k.image)

/-- Where the open shard's data would end with the bytes not yet stored and `more` after them, every block compressed as it
would be stored. -/
def Sink.endWith (k : Sink) (more : Bytes) : Nat :=
  let b := k.pending ++ more
  (List.range (ceilDiv b.length 65536)).foldl
    (fun e i => up16 e + (compressBlock k.mode (slice b (65536 * i) 65536)).1.length) k.endOff

/-- R221 to R225: one block of a sink's shard, `orig` compressed to `z`, stored after the last; where the media have no room the sink
is FULL (R335). -/
def State.storePiece (s : State) (n : Nat) (k : Sink) (orig : Bytes) (z : Bytes × Bool) : State :=
  let off := up16 k.endOff
  match s.media.writeAt (k.dataAt + off) z.1 with
  | none => s.modSink n fun k => { k with full := true }
  | some m =>
    let s := if z.2 then s.compressFault k.crew k.blocks.length else s
    { s with media := m }.modSink n fun k =>
      { k with pending := k.pending.drop 65536, blocks := k.blocks ++ [(off, z.1.length, crc32c orig)], endOff := off + z.1.length }

/-- R221 to R225: the next block of a sink's pending bytes compressed and stored. -/
def State.storeBlock (s : State) (n : Nat) : State :=
  match s.sink n with
  | none => s
  | some k =>
    if k.pending.isEmpty then s else s.storePiece n k (k.pending.take 65536) (compressBlock k.mode (k.pending.take 65536))

/-- Every pending block stored, the last one short, as far as the media have room; `fuel` is at least the blocks. -/
def State.storeAll : Nat → State → Nat → State
  | 0, s, _ => s
  | fuel + 1, s, n => match s.sink n with
    | some k =>
      let t := s.storeBlock n
      let stuck := match t.sink n with | some x => x.pending.length == k.pending.length | none => true
      if k.pending.isEmpty || stuck then t else State.storeAll fuel t n
    | none => s

/-! ### Records (R79, R329) -/

/-- Bytes with zeros up to a multiple of 4. -/
def pad4 (b : Bytes) : Bytes := b ++ zeros ((4 - b.length % 4) % 4)

/-- R53 to R56, R79: the record body of a finished stream. -/
def Stream.body (t : Stream) : Bytes :=
  let vals : List Bytes := [leBytes 8 t.prompt, leBytes 4 t.num, leBytes 1 t.verdict, leBytes 1 (t.stopIdx.getD 0xFF),
    leBytes 4 (t.stopOff.getD 0xFFFFFFFF), t.tokens.flatMap (leBytes 4), t.text]
  (vals.flatMap fun v => leBytes 4 v.length) ++ vals.flatMap pad4

/-- A dataset changed. -/
def State.modDataset (s : State) (n : Nat) (f : Dataset → Dataset) : State :=
  { s with catalogue := updWhere (fun d => d.dset == n) f s.catalogue }

/-- R47: the header of a rollout shard without its HCRC. -/
def rolloutHead (dset shard rcount bcount icrc doff slen olen : Nat) : Bytes :=
  leBytes 4 0xC4A5D336 ++ [0x01, 0x01, 0, 0] ++ leBytes 2 dset ++ [0, 0] ++ leBytes 3 shard ++ [0] ++ leBytes 4 rcount ++
  [0x07, 0, 0, 0] ++ leBytes 8 (4096 + 16 * rcount) ++ leBytes 4 bcount ++ leBytes 4 icrc ++ leBytes 8 doff ++
  leBytes 8 slen ++ leBytes 8 olen ++ fitTo 1024 rolloutFields ++ zeros (4092 - 64 - 1024)

/-- R59: a rollout dataset's manifest before its first shard. -/
def rolloutManifest (dset : Nat) : Bytes :=
  leBytes 4 0xC4A5D337 ++ [0x01, 0x04, 0x07, 0] ++ leBytes 2 dset ++ zeros 22 ++ zeros 32 ++ rolloutFields

/-- R59: a shard's manifest entry. -/
def shardEntry (shard count slen hcrc icrc : Nat) : Bytes :=
  leBytes 3 shard ++ [0] ++ leBytes 4 count ++ leBytes 8 slen ++ leBytes 4 hcrc ++ leBytes 4 icrc ++ zeros 8

/-- R59: a manifest with one more shard, its counts and generation advanced (R80). -/
def manifestWith (m : Bytes) (shard count slen hcrc icrc : Nat) : Bytes :=
  m.take 12 ++ leBytes 4 (manScount m + 1) ++ leBytes 8 (manNrec m + count) ++ leBytes 8 (manGen m + 1) ++ m.drop 32 ++
  shardEntry shard count slen hcrc icrc

/-- Blocks of the host space deallocated by the device itself. -/
def State.freeBlocks (s : State) (slba nlb : Nat) : State :=
  if nlb == 0 then s else match s.media.deallocate slba nlb with
    | some (_, m) => { s with media := m }
    | none => s

/-- What a sink's open shard holds on the media: where they had no room, the records that are stored whole (R335). -/
def Sink.whole (k : Sink) : Sink :=
  let olen := k.olen - k.pending.length
  { k with olen := olen, pending := [], index := k.index.filter fun e => e.1 + e.2.1 ≤ olen }

/-- Blocks that a sink's shards not yet sealed take: the open shard's and those being sealed. -/
def Sink.unsealed (k : Sink) : List (Nat × Nat) :=
  (k.base, if k.endOff == 0 then 0 else 321 + ceilDiv k.endOff 4096) :: k.seals.map fun x => (x.start, shardBlocks x.slen)

/-- The program sequence numbers under way of the pages that hold a range of host blocks. -/
def Media.liveSeqs (m : Media) (slba nlb : Nat) : List Nat :=
  ((coverUnits slba nlb).filterMap fun u => ((m.entry 0 u.1).bind m.pageAt).map (·.seq)).filter m.under

/-- R80, R330, R336: the open shard of a sink is sealed: its header, index and block table and its catalogue record are written, the
blocks of the reservation before it are deallocated, and the next shard opens after it. It stands once all of it is durable
(`State.sealDone`). -/
def State.seal (s : State) (n : Nat) : State :=
  let s := State.storeAll 20000 s n
  match s.sink n with
  | none => s
  | some k =>
    let k := k.whole
    if k.index.isEmpty then s else
      let rc := k.index.length
      let doff := ceilDiv (4096 + 16 * rc + 16 * k.blocks.length) 4096 * 4096
      let start := k.base + 321 - doff / 4096
      let tables := (k.index.flatMap fun (o, l, c) => leBytes 8 o ++ leBytes 4 l ++ leBytes 4 c) ++
        k.blocks.flatMap fun (o, l, c) => leBytes 8 (doff + o) ++ leBytes 4 l ++ leBytes 4 c
      let icrc := crc32c tables
      let slen := doff + k.endOff
      let head := rolloutHead (sinkDset k.image) k.shard rc k.blocks.length icrc doff slen k.olen
      let hcrc := crc32c head
      match s.media.writeAt (4096 * start) (fitTo doff (head ++ leBytes 4 hcrc ++ tables)) with
      | none => s.modSink n fun k => { k with full := true }
      | some m =>
        let s := { s with media := m }.freeBlocks k.base (start - k.base)
        let made := (s.media.metaWrite (shardEntry k.shard rc slen hcrc icrc ++ leBytes 8 start) 1 0).getD ([], s.media)
        let seqs := made.2.liveSeqs start (shardBlocks slen) ++ made.1
        ({ s with media := made.2 } : State).modSink n fun k =>
          { k with shard := k.shard + 1, base := start + shardBlocks slen, index := [], pending := [], olen := 0, blocks := [], endOff := 0,
                   seals := k.seals ++ [{ shard := k.shard, start := start, count := rc, slen := slen, hcrc := hcrc, icrc := icrc, seqs := seqs }] }

/-- R329: a kept stream's record appended to the open shard; its full blocks wait for the slices. -/
def State.append (s : State) (n : Nat) (t : Stream) : State :=
  match s.sink n with
  | none => s
  | some k =>
    let body := t.body
    let s := s.modSink n fun k =>
      { k with index := k.index ++ [(k.olen, body.length, crc32c body)], pending := k.pending ++ body, olen := k.olen + body.length,
               written := (k.written + 1) % 2 ^ 64 }
    s.sinkEvent n (t.event 0 k.shard k.index.length)

/-- Would the record fit the extent and the media (R335)? -/
def State.recordFits (s : State) (k : Sink) (body : Bytes) : Bool :=
  let stop := k.dataAt + k.endWith body
  stop ≤ k.extentEnd && s.media.stateCode != 2 && !s.media.over (k.dataAt / 4096) (ceilDiv (stop - k.dataAt) 4096)

/-- R332: has a flush of a sink been fetched while its present shard was open, and not sealed it yet? -/
def State.flushDue (s : State) (n shard : Nat) : Bool :=
  s.host.cmds.any fun c => c.opc == 0x04 && c.fid == 0x45 && c.fval == n && c.wait == .ready && c.first == shard

/-- R329, R331, R332, R335: a kept stream written back: the open shard is sealed first where the record would take it beyond its
bounds or a flush fetched before still has to seal it, and after it where it then holds 65,536 records or 1 GiB (R80). -/
def State.writeBack (s : State) (n : Nat) (t : Stream) : State :=
  match s.sink n with
  | none => s
  | some k =>
    if k.full then s.sinkEvent n (t.event 3 0 0) else
      let s := if 65536 ≤ k.index.length || 1073741824 < k.olen + t.body.length || s.flushDue n k.shard then s.seal n else s
      match s.sink n with
      | none => s
      | some k =>
        if !k.full && s.recordFits k t.body then
          let s := s.append n t
          match s.sink n with
          | some k => if 65536 ≤ k.index.length || 1073741824 ≤ k.olen then s.seal n else s
          | none => s
        else
          let s := (s.seal n).modSink n fun k => { k with full := true }
          s.sinkEvent n (t.event 3 0 0)

/-! ### Ending streams and closing sinks (R323, R328, R333, R334) -/

/-- The open streams of a sink. -/
def State.openStreams (s : State) (n : Nat) : List Stream := s.streams.filter fun t => t.sink == n && t.ended.isNone

/-- A stream of a sink that has not ended, changed. -/
def State.modStream (s : State) (sink num : Nat) (f : Stream → Stream) : State :=
  { s with streams := updWhere (fun t => t.sink == sink && t.num == num && t.ended.isNone) f s.streams }

/-- R315, R323 reason 5: a stream ends with no record; its event says it is discarded. -/
def State.abortStream (s : State) (t : Stream) : State :=
  let s := { s with streams := s.streams.erase t }
  let s := s.modSink t.sink fun k => { k with aborted := (k.aborted + 1) % 4294967296 }
  s.sinkEvent t.sink (Stream.event { t with ended := some 5, text := [], stopIdx := none, stopOff := none } 4 0 0)

/-- R327, R328: what a filter program of a stream reads. -/
def Stream.filterEnv (t : Stream) : FilterEnv :=
  { fields := fun _ _ => 0,
    draw := fun _ => 0,
    items := fun i => match i with
      | 64 => t.verdict
      | 65 => t.stopIdx.getD 0xFF
      | 66 => t.stopOff.getD 0xFFFFFFFF
      | 67 => t.tokens.length
      | 68 => t.text.length
      | 69 => t.nbad
      | 70 => t.nbadTok
      | 71 => t.ended.getD 0
      | 72 => t.num
      | 73 => t.prompt
      | 74 => t.sink
      | _ => 0 }

/-- R444: what names the buffer of a record that awaits compression. -/
def recordRef (sink stream : Nat) : BufRef := .other (1048576 + sink * 4294967296 + stream)

/-- R328, R335: the sink's filter runs on a stream that has ended: it is dropped with its event, or kept for write-back, after the
streams kept before it. A kept stream's record waits for its buffer (R447), unless its sink is closing. At a FULL sink nothing is
written and the event says so. -/
def State.filterStream (closing : Bool) (s : State) (t : Stream) : State :=
  match s.sink t.sink with
  | none => s
  | some k =>
    let rest := s.streams.erase t
    let pass := sinkPcount k.image == 0 || (runFilter t.filterEnv (filterCode (sinkProg k.image) 0 (sinkPcount k.image))).1 != 0
    let kept := sinkKeep k.image / 2 ^ t.verdict % 2 == 1
    let gone := { s with streams := rest }
    if pass && kept then
      if k.full then gone.sinkEvent t.sink (t.event 3 0 0) else
        let (granted, drawn) := s.alloc .rolloutRecord (recordRef t.sink t.num) t.body.length [ownerId 5 t.sink]
        let out (s : State) : State := { s with streams := rest ++ [{ t with kept := true }] }
        if granted then out drawn else if closing then out s else s
    else
      let s := gone.modSink t.sink fun k => { k with filtered := (k.filtered + 1) % 4294967296 }
      s.sinkEvent t.sink (t.event (if k.full then 3 else if pass then 2 else 1) 0 0)

/-- A kept stream leaves for its record. -/
def State.takeKept (s : State) (t : Stream) : State :=
  let s := s.freeRef fun b => b == recordRef t.sink t.num
  ({ s with streams := s.streams.erase t }).writeBack t.sink t

/-- R340: the counts of a sink kept as it closes. -/
def State.keepTotals (s : State) (n : Nat) : State :=
  match s.sink n with
  | some k => { s with sinkTotals := (n, [k.written, k.filtered, k.aborted, k.eventsLost]) :: s.sinkTotals.filter fun t => t.1 != n }
  | none => s

/-- R333, R334, R337: a sink goes, with its 0x04 event and its totals kept; a signal still due stays so. -/
def State.sinkGone (s : State) (n discarded : Nat) : State :=
  let s := (s.sinkEvent n { kind := 0x04, recIdx := discarded }).keepTotals n
  let h := s.host
  let due := match s.sink n with | some k => if k.unsignalled then [(n, sinkMsix k.image)] else [] | none => []
  { s with sinks := s.sinks.filter fun k => k.num != n,
           host := { h with watched := h.watched.filter fun w => w != 256 + n, sinkSignals := h.sinkSignals ++ due } }

/-- R80, R336: a shard that its sink sealed is durable: its manifest entry is appended, GEN advances, the new hash is stored, and the
event of kind 0x02 is posted. -/
def State.sealDone (s : State) (n : Nat) (x : Seal) : State :=
  match s.sink n with
  | none => s
  | some k =>
    let s := s.modDataset (sinkDset k.image) fun d =>
      let man := manifestWith d.manifest x.shard x.count x.slen x.hcrc x.icrc
      { d with manifest := man, mhash := sha384 man, gen := manGen man, place := d.place ++ [(x.shard, x.start)] }
    (s.sinkEvent n { kind := 0x02, shard := x.shard, recIdx := x.count }).modSink n fun k =>
      { k with seals := k.seals.filter fun y => y.shard != x.shard }

/-- A command that waits for the seal of a sink. -/
def Cmd.sealsSink (c : Cmd) (fid n : Nat) : Bool :=
  c.wait == .sealing && c.fid == fid && c.fval == n

/-- R332, R333, R336: seals whose programs all count as programmed end in shard order; a closing sink with none left leaves, and the
commands that waited complete. -/
def State.settleSeals (s : State) : State :=
  let s := s.sinks.foldl (fun s k => (k.seals.takeWhile fun x => !x.seqs.any s.media.under).foldl (fun s x => s.sealDone k.num x) s) s
  let s := (s.sinks.filter fun k => k.closing && k.seals.isEmpty).foldl (fun s k =>
    let s := s.sinkGone k.num 0
    (s.host.cmds.filter fun c => c.sealsSink 0x46 k.num).foldl (fun s c => s.complete c .ok) s) s
  (s.host.cmds.filter fun c => s.sinks.any fun k => c.sealsSink 0x45 k.num && k.seals.all fun x => c.first < x.shard).foldl
    (fun s c => s.complete c .ok) s

/-- R333: a sink closes: its open streams end by reason 5, streams that had ended are finished, and its shard is sealed; it leaves
when its shards are sealed (`State.settleSeals`). -/
def State.closeSink (s : State) (n : Nat) : State :=
  let s := (s.openStreams n).foldl State.abortStream s
  let s := (s.streams.filter fun t => t.sink == n && !t.kept).foldl (State.filterStream true) s
  let s := (s.streams.filter fun t => t.sink == n && t.kept).foldl State.takeKept s
  ((s.seal n).modSink n fun k => { k with closing := true }).settleSeals

/-- R334, R323: a sink of a crew that is reset: its open streams end by reason 5 and those that had ended are discarded, its shards not
yet sealed are discarded and deallocated, and one event of kind 0x04 carries the discarded record count. -/
def State.discardSink (s : State) (n : Nat) : State :=
  match s.sink n with
  | none => s
  | some k =>
    let s := s.freeRef fun b => match b with | .other x => 1048576 ≤ x && (x - 1048576) / 4294967296 == n | _ => false
    let s := (s.openStreams n).foldl State.abortStream s
    let s := (s.streams.filter fun t => t.sink == n).foldl (fun s t => s.sinkEvent n (t.event 4 0 0)) s
    let s := { s with streams := s.streams.filter fun t => t.sink != n }
    let s := k.unsealed.foldl (fun s r => s.freeBlocks r.1 r.2) s
    s.sinkGone n (k.index.length + (k.seals.map (·.count)).sum)

end Sys2Proof.Machine
end

