-- ==== Sys2Proof/Machine/CrewOps.lean ====
section
/-!
DEFINITION. Crews ("Crews, managers and workers"): the logical unit map at start-up (R768), free eights (R600), delivery targets
(R381), Timed admission (R423, R429), map changes (R412) and crew reset (R604).
-/
namespace Sys2Proof.Machine

/-! ### The logical unit map (R17, R768) -/

/-- Is a physical engine disabled, by fuse, self-test or field fence? -/
def State.engineOff (s : State) (p : Nat) : Bool := s.faults.disabledEngines.contains p || s.faults.fences.contains (.engine p)

/-- Usable physical lanes of a physical eight. -/
def State.usableLanes (s : State) (p : Nat) : List Nat := (List.range 9).filter fun l => !s.engineOff (9 * p + l)

/-- Is a physical eight usable? -/
def State.eightUsable (s : State) (p : Nat) : Bool :=
  !s.faults.disabledEights.contains p && !s.faults.eightFences.contains p && !s.faults.fences.contains (.router p) &&
  !((List.range 6).any fun u => s.faults.fences.contains (.eightUnit p u)) && !(s.usableLanes p).isEmpty

/-- R768: the logical lanes of a physical eight: its lowest eight usable lanes, then none. -/
def State.laneMap (s : State) (p : Nat) : List Nat :=
  let l := (s.usableLanes p).take 8
  l ++ List.replicate (8 - l.length) noLane

/-- R768: the usable physical eights of a die that carry logical indices, ascending. -/
def State.carriers (s : State) (die : Nat) : List Nat :=
  let all := ((List.range 17).map fun t => 17 * die + t).filter s.eightUsable
  let lanes (p : Nat) : Nat := min 8 (s.usableLanes p).length
  let better (p q : Nat) : Bool := lanes p > lanes q || (lanes p == lanes q && p < q)
  all.filter fun p => (all.filter fun q => better q p).length < 16

/-- R768: the logical unit map formed at start-up. -/
def State.formMap (s : State) : State :=
  let die (d : Nat) : List (Option (Nat × List Nat)) :=
    let cs := s.carriers d
    (List.range 16).map fun i => (cs[i]?).map fun p => (p, s.laneMap p)
  { s with faults := { s.faults with lmap := (List.range 4).flatMap die, detours := s.faults.detourTables } }

/-- A logical eight's physical eight and lanes set. -/
def State.setEight (s : State) (e : Nat) (v : Option (Nat × List Nat)) : State :=
  { s with faults := { s.faults with lmap := s.faults.lmap.set e v } }

/-- The unused spare engine's lane of a physical eight that carries lanes: a usable lane that no logical lane takes. -/
def State.spareLane (s : State) (e : Nat) : Option Nat :=
  (s.usableLanes (s.physEight e)).find? fun l => !(s.lanes e).contains l

/-- The die's unused spare eight: a usable physical eight that carries no logical eight. -/
def State.spareEight (s : State) (die : Nat) : Option Nat :=
  ((List.range 17).map fun t => 17 * die + t).find? fun p =>
    s.eightUsable p && !s.faults.lmap.any fun v => (v.map (·.1)) == some p

/-! ### Free eights (R600) -/

/-- Logical eights of a die that no crew holds and that a physical eight carries, ascending. -/
def State.freeOnDie (s : State) (d : Nat) : List Nat :=
  ((List.range 16).map fun i => 16 * d + i).filter fun e =>
    (s.faults.lmap.getD e none).isSome && !s.crews.any fun c => c.eights.contains e

/-- Logical eights that no crew holds. -/
def State.freeEights (s : State) : List Nat := (List.range 4).flatMap s.freeOnDie

/-- R600: the eight taken next among the free ones not already `taken`. -/
def State.pickEight (s : State) (taken : List Nat) : Option Nat :=
  let left (d : Nat) : List Nat := (s.freeOnDie d).filter fun e => !taken.contains e
  match argmin (fun d => 16 - (left d).length) ((List.range 4).filter fun d => !(left d).isEmpty) with
  | none => none
  | some d => (left d).head?

/-- R600: `n` eights, one at a time. -/
def State.pickEights (s : State) : Nat → List Nat → List Nat
  | 0, taken => taken
  | n + 1, taken => match s.pickEight taken with
    | none => taken
    | some e => State.pickEights s n (taken ++ [e])

/-- A list of numbers in ascending order without repeats, from a range. -/
def ascending (bound : Nat) (l : List Nat) : List Nat := (List.range bound).filter l.contains

/-- R601, R767: the lowest-numbered crew that a predicate names. -/
def State.lowestCrew (s : State) (p : Crew → Bool) : Option Nat :=
  argmin (fun n => n) ((s.crews.filter p).map (·.num))

/-! ### Delivery targets (R381) -/

/-- KIND: over CXL? -/
def tgtCxl (t : Bytes) : Bool := bits t 8 8 == 1
/-- IMM. -/
def tgtImm (t : Bytes) : Bool := bits t 9 9 == 1
/-- LQPN. -/
def tgtLqpn (t : Bytes) : Nat := field t 4 3
/-- BASE. -/
def tgtBase (t : Bytes) : Nat := field t 8 8
/-- STRIDE. -/
def tgtStride (t : Bytes) : Nat := field t 16 8
/-- NREG. -/
def tgtNreg (t : Bytes) : Nat := field t 24 2
/-- RKEY. -/
def tgtRkey (t : Bytes) : Nat := field t 28 4

/-- A RoCEv2 queue pair by LQPN. -/
def State.rp (s : State) (n : Nat) : Option RocePair := s.roce.find? fun p => p.lqpn == n
/-- A RoCEv2 queue pair changed. -/
def State.modRp (s : State) (n : Nat) (f : RocePair → RocePair) : State := { s with roce := updWhere (fun p => p.lqpn == n) f s.roce }
/-- R377 PORT. -/
def RocePair.port (p : RocePair) : Nat := bits p.ctx 13 8
/-- R377 ROLE: a responder? -/
def RocePair.responder (p : RocePair) : Bool := bits p.ctx 14 14 == 1

/-- The port of a delivery target; none over CXL. -/
def State.tgtPort (s : State) (t : Bytes) : Option Nat :=
  if tgtCxl t then none else (s.rp (tgtLqpn t)).map RocePair.port

/-! ### Timed admission (R423, R424, R429) -/

/-- The arithmetic clock of the variant, Hz. -/
def State.clock (s : State) : Nat := if s.fuses.order == 2 then 1200000000 else 1500000000

/-- R423 ports: bytes per second that a job's delivery asks of a port, or of CXL. -/
def State.portDemand (s : State) (rc : Recipe) (j : Job) (port : Option Nat) : Nat :=
  (j.ranks.filter fun k => s.tgtPort k.target == port).length * jobRating j.block * regionBytes rc j.b

/-- R423 ports, R595: does a port, or CXL, hold the demand of every admitted Timed crew and of the job? -/
def State.portHolds (s : State) (crew : Nat) (rc : Recipe) (j : Job) (port : Option Nat) : Bool :=
  let others := (s.crews.map fun c => match c.recipe, c.job with
    | some r, some x => if c.num != crew && x.admitted then s.portDemand r x port else 0
    | _, _ => 0).sum
  let need := others + s.portDemand rc j port
  let share := s.num 0x2407 0
  match port with
  | some p => need * 256 ≤ share * (24375000000 * ((s.port p).map (·.width)).getD 0)
  | none => need * 256 * 16 * 64 ≤ share * (121000000000 * s.host.width * s.host.speed)

/-- R423: the first condition that a Timed job fails (1 compute, 2 ports, 3 latency) with the port, 0 for CXL. -/
def State.timedFail (s : State) (crew : Nat) (eights : List Nat) (rc : Recipe) (j : Job) : Option (Nat × Nat) :=
  let work := j.ranks.length * j.b * rcpDcost rc.image
  let cadm256 := 8 * s.engines eights * s.clock * s.num 0x2406 0
  let ports : List (Option Nat) := (j.ranks.map fun k => s.tgtPort k.target).eraseDups
  if cadm256 < jobRating j.block * work * 256 then some (1, 0)
  else match ports.find? fun p => !s.portHolds crew rc j p with
    | some p => some (2, p.getD 0)
    | none =>
      if (jobLb j.block - 1000) * cadm256 < 2 * work * 1000000 * 256 || jobLb j.block < 1000 then some (3, 0) else none

/-- R424, R429: an entry of KIND 0x04 for a failing condition. -/
def State.logAdmission (s : State) (crew : Nat) (f : Nat × Nat) : State :=
  let v (i : Nat) : Nat := Config.admissionField i f.1 f.2
  s.logTiming (timingEntry 4 crew 0 0 (v 0) (v 1) (v 2) (v 3) (s.choices crew))

/-- R429: the admissions checked again; one that fails is lost. -/
def State.recheckTimed (s : State) : State :=
  (s.crews.map (·.num)).foldl (fun s n => match s.run n with
    | some r =>
      if r.job.mode == 2 && r.job.admitted then
        match s.timedFail n r.crew.eights r.rc r.job with
        | some f =>
          let s := s.modJob n fun j => { j with admitted := false }
          (s.logAdmission n f).raise { unit := 0x2C5, kind := 0x28, crew := some n }
        | none => s
      else s
    | none => s) s

/-! ### Map changes (R412, R603) -/

/-- R412: the map of a crew with an open job changed: CrewFingerprint follows and kind 0x08 is raised, with the physical eight that
carries the logical eight, or carried it when it has left the map, as PHYS (DESIGN CHOICE). -/
def State.mapChanged (s : State) (crew eight phys : Nat) : State :=
  match s.crew crew with
  | none => s
  | some c => match c.job with
    | none => s
    | some j =>
      let old := c.fprint.getD (fingerprint j.settings)
      let new := fingerprint (withEmap j.settings (s.emap c.eights))
      let s := s.modCrew crew fun c => { c with fprint := some new }
      (s.raise { unit := 0x200 + eight, kind := 0x08, phys := some phys, crew := some crew,
                 ctx := some (field old 0 8, field new 0 8) }).recheckTimed

/-! ### Crew reset (R604, R159, R177, R292, R334, R385, R460, R563) -/

/-- R385: the last packet of a batch of a crew that was sent and is not acknowledged, on a queue pair that works: (LQPN, PSN). -/
def State.unacked (s : State) (crew : Nat) (j : Job) (b : Batch) : Option (Nat × Nat) :=
  match j.rank b.rank with
  | none => none
  | some k =>
    if tgtCxl k.target then none else
      match s.rp (tgtLqpn k.target) with
      | none => none
      | some p =>
        let mine := p.flight.filter fun f => f.crew == some crew && f.batch == some (b.rank, b.k)
        if p.err then none
        else match (mine.getLast?).map Frame.body with
          | some (.out (.rdma _ psn _ _ _ _ _ _)) => some (p.lqpn, psn)
          | _ => none

/-- R385: WRITE packets of a crew's batches that have not started leave the transmit queues. -/
def State.dropWrites (s : State) (crew : Nat) : State :=
  let keep (f : Frame) : Bool := match f.body with | .write _ _ _ _ _ _ _ _ _ _ => f.crew != some crew | _ => true
  { s with ports := s.ports.map fun p => { p with queues := p.queues.map fun q => q.keep keep } }

/-- R385, R460: batch buffers whose packets are still retried stay until the last is acknowledged. -/
def State.holdRetries (s : State) (crew : Nat) (j : Job) : State :=
  j.batches.foldl (fun s b => match s.unacked crew j b with
    | none => s
    | some (q, psn) => { s with mem := { s.mem with
        bufs := updWhere (fun x => x.ref == .batch crew b.rank b.k) (fun x => { x with ref := .retry q psn }) s.mem.bufs } }) s

/-- Does a buffer belong to a crew's work? -/
def BufRef.ofCrew (crew : Nat) (mine : List Nat) : BufRef → Bool
  | .context n => mine.contains n
  | .batch c _ _ => c == crew
  | .heat c _ _ _ => c == crew
  | .reserve c _ _ => c == crew
  | .setTable c _ => c == crew
  | _ => false

/-- R460: a crew leaves every buffer that it, or a sink of its, still owns: those drawn by its own requests and the lists it joined. Batch
buffers whose packets are retried stay. -/
def State.leaveLists (s : State) (crew : Nat) : State :=
  let mine (o : Nat) : Bool := o == ownerId 0 crew || o == ownerId 1 crew || s.sinks.any fun k => k.crew == crew && o == ownerId 5 k.num
  let held := s.mem.bufs.filter fun b => (match b.ref with | .retry _ _ => false | _ => true) && b.owners.any mine
  let s := held.foldl (fun s b => (b.owners.filter mine).foldl (fun s o => match s.mem.bufs.find? fun x => x.id == b.id with
    | some x => s.leave o x
    | none => s) s) s
  s.serveWaiting

/-- Is an outstanding command one of the crew's that RESET CREW ends? -/
def State.ofCrew (s : State) (crew : Nat) (c : Cmd) : Bool :=
  (isJobOpc c.opc && c.opc != 0x26 && c.crew == crew) ||
  (c.opc == 0x11 && c.ingest && s.host.ingests.any fun g => g.crew == crew && g.n == c.istream) ||
  (c.wait == .sealing && s.sinks.any fun k => k.crew == crew && k.num == c.fval)

/-- R604: a crew is reset: contexts, units and buffers are cleared, its commands end with Aborted by crew reset (they report the state
the reset finds, since EMPTY comes last), its sinks and ingest streams are discarded, and it is EMPTY. -/
def State.resetCrew (s : State) (n : Nat) : State :=
  match s.crew n with
  | none => s
  | some c =>
    let mine := (s.contexts.filter fun x => x.crew == n).map (·.num)
    let s := match c.job with | some j => (s.holdRetries n j).dropWrites n | none => s
    let s := { s with contexts := s.contexts.filter fun x => x.crew != n }
    let s := ((s.freeRef (BufRef.ofCrew n mine)).leaveResidents n).leaveLists n
    let ended := s.host.cmds.filter (s.ofCrew n)
    let s := ended.foldl (fun s c => (s.endGrants c.qid c.cid).complete c .crewReset) s
    let s := s.modCrew n fun c =>
      { num := c.num, state := 0, eights := c.eights, gen := c.gen + 1, rejection := c.rejection, drained := c.drained,
        domainJob := c.domainJob }
    let s := ((s.sinks.filter fun k => k.crew == n).map (·.num)).foldl State.discardSink s
    let me := s.domain.deviceId
    { s with
      host := { s.host with ingests := s.host.ingests.filter fun g => g.crew != n },
      domain := { s.domain with claims := s.domain.claims.filter fun x => !(some x.job == c.domainJob && x.member == me) } }

/-- R643: RESET CREW takes effect on every crew. -/
def State.resetCrews (s : State) (ns : List Nat) : State := ns.foldl State.resetCrew s

end Sys2Proof.Machine
end

