-- ==== Sys2Proof/Machine/PortOps.lean ====
section
/-!
DEFINITION. A port's state: fencing (R349, R353), going down, retraining (R352 to R354), what training gives (R346, R347) and the
topology log (R350).
-/
namespace Sys2Proof.Machine

/-- A port enters a PortState (R351); a change counts in PORTCHG (R620). -/
def State.setPortState (s : State) (n st : Nat) : State :=
  match s.port n with
  | none => s
  | some p =>
    let s := s.modPort n fun p => { p with state := st }
    if p.state == st then s else { s with domain := { s.domain with portChanges := s.domain.portChanges + 1 } }

/-- An entry of GET LOG page 0x40. -/
def State.topoEntry (s : State) (p : Port) : Bytes :=
  [byteOf p.n, byteOf (s.portMode p.n), byteOf p.state, byteOf (p.width + p.lanes * 16), byteOf p.cause] ++
  leBytes 3 (p.peer + p.peerPort * 4096) ++ leBytes 4 p.retrains ++ zeros 4

/-- R349, R359: the topology log records a port as it now stands, once start-up has written the log. -/
def State.noteTopology (s : State) (n : Nat) : State :=
  match s.port n with
  | some p => if n < s.topology.length then { s with topology := s.topology.set n (s.topoEntry p) } else s
  | none => s

/-- R354: what a link loses when its port does not come back: the flits of its replay buffer and what waits on it. -/
def Port.cut (p : Port) : Port :=
  { p with width := 0, lanes := 0, agreed := 0, shaken := false, resuming := false, link := {}, peer := 0xFFF, peerPort := 0,
           queues := p.queues.map fun q => { q with frames := [], deficit := 0 } }

/-- R349, R350, R353: a port fenced with a cause; the topology log names the cause and the lanes that trained. -/
def State.fencePort (s : State) (n cause : Nat) : State :=
  ((s.modPort n fun p => { p.cut with cause := cause, lanes := p.lanes }).setPortState n 4).noteTopology n

/-- R341, R607: a port goes down. -/
def State.downPort (s : State) (n : Nat) : State := (s.modPort n Port.cut).setPortState n 0

/-- R643, R607: every port goes down. -/
def State.downPorts (s : State) : State := (s.ports.map (·.n)).foldl State.downPort s

/-- R344: ports P24 to P35 set to Ethernet without the licence stay down with cause 4. -/
def State.unlicensed (s : State) (n : Nat) : Bool := 24 ≤ n && s.portMode n == 2 && s.features / 4 % 2 == 0

/-- R344, R713: a port that the licence no longer covers stays down with cause 4. -/
def State.downUnlicensedPort (s : State) (n : Nat) : State := (s.downPort n).modPort n fun p => { p with cause := 4 }

/-- R353: retrains of a port within the last 600 s of local uptime. -/
def State.retrainsIn (s : State) (p : Port) : List Nat := p.recent.filter fun t => s.since t < 600000000

/-- R352, R368: what a link keeps through a retrain: its flits, of which the unacknowledged await their replay. Credits are lost. -/
def Link.retrained (l : Link) : Link :=
  { l with credits := [0, 0, 0, 0], owed := [0, 0, 0, 0], replays := l.unacked.map fun _ => 0, resend := l.unacked.length }

/-- R352, R353: a running port retrains and keeps its unacknowledged flits; a fourth retrain within 600 s fences it. -/
def State.retrain (s : State) (n : Nat) (proto : Bool) : State :=
  match s.port n with
  | none => s
  | some p =>
    let recent := s.retrainsIn p ++ [s.uptime]
    let s := s.modPort n fun p => { p with retrains := (p.retrains + 1) % 4294967296, recent := recent }
    if s.unlicensed n then s.downUnlicensedPort n
    else if 3 < recent.length then s.fencePort n 5
    else (s.modPort n fun p =>
      { p with resuming := true, protoErr := proto, agreed := 0, shaken := false, link := p.link.retrained }).setPortState n 1

/-- Training starts afresh in the mode that PortMode sets (R341, R345): the link keeps nothing. -/
def State.trainPort (s : State) (n : Nat) : State :=
  let s := s.modPort n fun p => { p.cut with cause := 0 }
  if s.started && s.unlicensed n then s.downUnlicensedPort n
  else if s.portMode n == 0 then s.setPortState n 0 else s.setPortState n 1

/-! ### Width (R346 to R348) -/

/-- R346, R347: the lanes used of those that train at both ends: their number and mask; none when no width is completed. -/
def widthOf (mode most both : Nat) : Option (Nat × Nat) :=
  let has (m : Nat) : Bool := both &&& m == m
  if 4 ≤ most && has 15 then some (4, 15)
  else if 2 ≤ most && has 3 then some (2, 3)
  else if 2 ≤ most && has 12 then some (2, 12)
  else if mode == 2 then none
  else ((List.range 4).find? fun i => has (2 ^ i)).map fun i => (1, 2 ^ i)

/-! ### The topology log (R350) -/

/-- R350: the page as it stands now. -/
def State.topologyNow (s : State) : List Bytes := s.ports.map s.topoEntry

/-- R350: the page written and admission checked again; kind 0x20 names the ports down. -/
def State.writeTopology (s : State) : State :=
  let s := { s with topology := s.topologyNow }
  let hurt := s.ports.filter fun p => (s.portMode p.n == 1 || s.portMode p.n == 2) && (p.state == 3 || p.state == 4)
  let down := (hurt.filter fun p => p.state == 4).length
  let s := if hurt.isEmpty then s else s.raise { unit := 0x2C3, kind := 0x20, addr := down }
  s.recheckTimed

end Sys2Proof.Machine
end

