-- ==== Sys2Proof/Machine/Faults.lean ====
section
/-!
DEFINITION. The fault collector ("Faults, fencing and health"): its queue (R634 to R636), reactions (R640 to R643), health scores
(R649, R650), fences and stand-ins (R20 to R25, R31, R769), the fence budget and probation (R652, R655), and how messages in
transit settle.
-/
namespace Sys2Proof.Machine

/-! ### Scores (R649) -/

/-- The physical unit a message scores (R632, R646). -/
def FaultMsg.ref (m : FaultMsg) : UnitRef :=
  if m.unit < 0x200 then .engine m.phys
  else if m.unit < 0x240 then .eightUnit m.phys m.sub
  else if m.unit == 0x2C4 && m.sub == 0 then .router m.phys
  else .other m.unit

/-- R644 Points. -/
def kindPoints (kind : Nat) : Nat :=
  match kind with
  | 0x01 => 64
  | 0x50 => 1
  | 0x51 => 16
  | 0x52 => 128
  | 0x53 => 128
  | _ => 0

/-- A unit's score set; scores of 0 are not listed. -/
def Faults.setScore (f : Faults) (u : UnitRef) (n : Nat) : Faults :=
  let rest := f.scores.filter fun p => p.1 != u
  { f with scores := if n == 0 then rest else rest ++ [(u, n)] }

/-- R649: a unit's score after a message. -/
def scoreAfter (old kind count : Nat) : Nat := if kind == 0x03 then 1023 else min 1023 (old + count * kindPoints kind)

/-- R651: scores, probation states and field fences written to the configuration NOR. -/
def Faults.save (f : Faults) : Faults := { f with savedScores := f.scores, savedProbation := f.probation, savedFences := f.fences }

/-! ### The queue (R634 to R636) -/

/-- Do a message and an entry have the same UNIT, SUB and KIND? -/
def FaultEntry.same (e : FaultEntry) (m : FaultMsg) : Bool := e.msg.unit == m.unit && e.msg.sub == m.sub && e.msg.kind == m.kind

/-- A message as a new entry. -/
def FaultMsg.entry (m : FaultMsg) (us : Nat) : FaultEntry := { msg := m, first := us, last := us, total := m.count }

/-- R635: a message coalesced into an entry. -/
def FaultEntry.coalesce (e : FaultEntry) (m : FaultMsg) (us : Nat) : FaultEntry :=
  { e with msg := { e.msg with sev := max e.msg.sev m.sev }, last := us, total := min 0xFFFFFFFF (e.total + m.count) }

/-- R635: the message joins the newest entry of its UNIT, SUB and KIND (an older one is being removed, R637). -/
def joinEntry (m : FaultMsg) (us : Nat) : List FaultEntry → List FaultEntry
  | [] => []
  | e :: es => if e.same m && !es.any fun x => x.same m then e.coalesce m us :: es else e :: joinEntry m us es

/-- R634 to R636: a message at the queue; `fresh` when its entry is removed in the same cycle (R637). -/
def Faults.enqueue (f : Faults) (m : FaultMsg) (us : Nat) (fresh : Bool) : Faults :=
  if !fresh && (f.queue.any fun e => e.same m) then
    { f with queue := joinEntry m us f.queue }
  else if f.queue.length < 4096 then { f with queue := f.queue ++ [m.entry us] }
  else
    let old := match f.queue.getLast? with | some e => e.total | none => 0
    { f with queue := f.queue.dropLast ++ [m.entry us], lost := (f.lost + old) % 4294967296 }

/-! ### Fences (R20 to R25, R31, R412, R603, R769) -/

/-- Samples in flight that a predicate names are made again (R25, R176). -/
def State.remakeAll (s : State) (p : Context → Bool) : State :=
  let hit := (s.contexts.filter fun c => p c && c.peerOf.isNone).map (·.num)
  let peers := (s.contexts.filter fun c => p c && c.peerOf.isSome).map (·.num)
  let s := (peers.filterMap s.ctx).foldl State.freeCtx s
  hit.foldl (fun s n => match s.ctx n with | some c => s.remake c | none => s) s

/-- The crew that holds a logical eight. -/
def State.crewOf (s : State) (eight : Nat) : Option Nat := (s.crews.find? fun c => c.eights.contains eight).map (·.num)

/-- The logical eight that a physical eight carries. -/
def State.logicalEight (s : State) (phys : Nat) : Option Nat := s.faults.lmap.findIdx? fun v => (v.map (·.1)) == some phys

/-- R603: an eight with nothing left leaves its crew; a crew that loses its last eight raises kind 0x09. -/
def State.loseEight (s : State) (eight : Nat) : State :=
  let phys := s.physEight eight
  let owner := s.crewOf eight
  let s := s.setEight eight none
  match owner with
  | none => s
  | some n =>
    let s := s.modCrew n fun c => { c with eights := c.eights.filter fun e => e != eight }
    let s := s.mapChanged n eight phys
    let left := match s.crew n with | some c => c.eights | none => []
    let s := if left.isEmpty then s.raise { unit := 0x200 + eight, kind := 0x09, phys := some phys, crew := some n } else s
    s.remakeAll fun c => c.eight == eight

/-- R23, R769: the die's spare eight takes over a logical eight; without one the eight is lost. PHYS of kind 0x07 is the eight it
replaces (DESIGN CHOICE). -/
def State.replaceEight (s : State) (eight : Nat) : State :=
  let old := s.physEight eight
  match s.spareEight (eight / 16) with
  | none => s.loseEight eight
  | some q =>
    let before := (s.liveLanes eight).length
    let s := { s with faults := { s.faults with eightFences := s.faults.eightFences ++ [old] } }
    let s := s.setEight eight (some (q, s.laneMap q))
    let s := s.raise { unit := 0x200 + eight, kind := 0x07, phys := some old, crew := s.crewOf eight, addr := q }
    let s := match s.crewOf eight with
      | some n => if (s.liveLanes eight).length == before then s else s.mapChanged n eight q
      | none => s
    s.remakeAll fun c => c.eight == eight

/-- R22, R24: a fenced engine's logical lane goes to the eight's spare engine, else the spare eight takes over, else the map
changes. PHYS of kind 0x07 is the engine that the spare replaces (DESIGN CHOICE). -/
def State.replaceEngine (s : State) (eight lane : Nat) : State :=
  let phys := s.physEight eight
  let set (l : Nat) (s : State) : State := s.setEight eight (some (phys, (s.lanes eight).set lane l))
  let mine (c : Context) : Bool := c.engine == 8 * eight + lane
  match s.spareLane eight with
  | some l =>
    let old := s.physEngine (8 * eight + lane)
    let s := set l s
    (s.raise { unit := 8 * eight + lane, kind := 0x07, phys := some old, crew := s.crewOf eight, addr := 9 * phys + l }).remakeAll mine
  | none =>
    if (s.spareEight (eight / 16)).isSome then s.replaceEight eight
    else
      let s := set noLane s
      if (s.liveLanes eight).isEmpty then s.loseEight eight
      else
        let s := match s.crewOf eight with | some n => s.mapChanged n eight phys | none => s
        s.remakeAll mine

/-- A unit that leaves service: NAND channels and LUNs (R519). The units lost by it are raised as kind 0x54 (R523). -/
def State.failLun (s : State) (ch pos : Nat) : State :=
  let m := s.media.failLun ch pos
  let n := m.lostUnits - s.media.lostUnits
  let s := { s with media := m }
  if n == 0 then s else s.raise { unit := 0x2C7, kind := 0x54, addr := n }

/-- The LUN that a unit id names (R33): channel and position. -/
def State.lunOf (s : State) (unit : Nat) : Nat × Nat :=
  let k := unit - 0x300
  (k / 32, k % 32 / 4 * max 1 s.media.geom.lunsPerCe + k % 4)

/-- Can the unit be fenced (R642)? -/
def UnitRef.fenceable : UnitRef → Bool
  | .engine _ => true
  | .eightUnit _ _ => true
  | .router _ => true
  | .other u => (0x270 ≤ u && u < 0x2B4) || 0x300 ≤ u

/-- A unit fenced: recorded, saved (R651), and its work taken over. -/
def State.fence (s : State) (u : UnitRef) : State :=
  if s.faults.fences.contains u then s else
    let record (s : State) : State :=
      { s with faults := ({ s.faults with fences := s.faults.fences ++ [u], probation := s.faults.probation.erase u }).save }
    match u with
    | .engine p =>
      let s := record s
      match s.logicalEight (p / 9) with
      | none => s
      | some e => match (s.lanes e).findIdx? fun l => l == p % 9 with
        | some lane => s.replaceEngine e lane
        | none => s
    | .eightUnit p _ =>
      let s := record s
      match s.logicalEight p with
      | some e => s.replaceEight e
      | none => s
    | .router p =>
      let s := record s
      let s := { s with faults := { s.faults with detours := s.faults.detourTables } }
      match s.logicalEight p with
      | some e => s.replaceEight e
      | none => s
    | .other n =>
      if 0x290 ≤ n && n < 0x2B4 then
        match s.port (n - 0x290) with
        | some p => if p.state == 4 then s else ({ s with faults := s.faults.save } : State).fencePort (n - 0x290) 0
        | none => s
      else if 0x270 ≤ n && n < 0x290 then
        ((s.media.luns.filter fun l => l.ch == n - 0x270).map (·.pos)).foldl (fun s p => s.failLun (n - 0x270) p) (record s)
      else if 0x300 ≤ n then let (c, p) := s.lunOf n; (record s).failLun c p
      else s

/-! ### The fence budget and probation (R652, R653, R655) -/

/-- R652: fences of a crew within the last FenceWindow of local uptime. -/
def State.fencesIn (s : State) (crew : Nat) : Nat :=
  (s.faults.fenceTimes.filter fun f => f.1 == crew && s.since f.2 < s.num 0x6011 0).length

/-- R655: threshold crossings within CommonCauseWindow. -/
def State.crossingsIn (s : State) : Nat := (s.faults.crossings.filter fun t => s.since t < s.num 0x6014 0).length

/-- The logical eight that a unit inside an eight lies in. -/
def State.eightOf (s : State) : UnitRef → Option Nat
  | .engine p => s.logicalEight (p / 9)
  | .eightUnit p _ => s.logicalEight p
  | _ => none

/-- R652, R653, R655: a fence demanded for a unit: taken at once outside the budget, within it, or turned into probation. -/
def State.demand (s : State) (m : FaultMsg) (u : UnitRef) (crossing : Bool) : State :=
  if s.faults.fences.contains u then s else
    match u with
    | .router _ => s.fence u
    | .other _ => if u.fenceable then s.fence u else s
    | _ => match (s.eightOf u).bind s.crewOf with
      | none => s.fence u
      | some crew =>
        let count (s : State) : State := { s with faults := { s.faults with fenceTimes := s.faults.fenceTimes ++ [(crew, s.uptime)] } }
        let onProbation (s : State) : State :=
          if s.faults.probation.contains u then s else { s with faults := { s.faults with probation := s.faults.probation ++ [u] } }
        let n := s.fencesIn crew
        if m.kind == 0x03 then (count s).fence u
        else if crossing && s.faults.commonCause then onProbation s
        else if n < s.num 0x6010 (crew + 1) then (count s).fence u
        else (onProbation s).raise { unit := m.unit, sub := m.sub, phys := some m.phys, kind := 0x05, crew := some crew, addr := n }

/-! ### Reactions (R640, R642, R643) -/

/-- R643: severity 4 stops the device: every crew is reset, every port goes down, programs in progress complete and no other starts.
Commands outstanding end with Internal error but those of the media path, which R643 answers as the media does (DESIGN CHOICE, log 150). -/
def State.stopDevice (s : State) : State :=
  let s := s.resetCrews (s.crews.map (·.num))
  let s := s.downPorts
  let s := { s with faults := { s.faults with stopped := true }, media := { s.media with frozen := true } }
  let told (c : Cmd) : Bool := within 0x01 0x03 c.opc || c.wait == .programs
  (s.host.cmds.filter fun c => !told c).foldl (fun s c => (s.endGrants c.qid c.cid).complete c .internal) s

/-- R655: a crossing entered; the one that passes the limit sets CommonCause and raises kind 0x06. -/
def State.crossing (s : State) : State :=
  let s := { s with faults := { s.faults with crossings := s.faults.crossings ++ [s.uptime] } }
  let n := s.crossingsIn
  if s.num 0x6013 0 < n && !s.faults.commonCause then
    ({ s with faults := { s.faults with commonCause := true } }).raise { unit := 0x2C6, kind := 0x06, addr := n }
  else s

/-- The message's points added, and what a crossing of 512 demands (R649, R650, R655). -/
def State.score (s : State) (m : FaultMsg) : State :=
  let u := m.ref
  let old := s.faults.score u
  let new := scoreAfter old m.kind m.count
  let s := { s with faults := s.faults.setScore u new }
  if old < 512 && 512 ≤ new then
    let s := s.crossing
    let s := s.raise { unit := m.unit, sub := m.sub, phys := some m.phys, kind := 0x04, crew := m.crew, addr := new }
    match u with
    | .other n => if (0x290 ≤ n && n < 0x2B4) || 0x300 ≤ n then s.fence u else s
    | _ => s.demand m u true
  else s

/-- R640: severity 3: the crews concerned are reset and DEVERR is set. -/
def State.failJobs (s : State) (crew : Option Nat) : State :=
  let crews := match crew with
    | some n => [n]
    | none => (s.crews.filter fun c => c.state != 0).map (·.num)
  (s.resetCrews crews).setDeverr

/-- R374, R640, R642, R643: the reaction of a message's severity; one of severity 2 or above against a central router stands as a fault on
it (DESIGN CHOICE). A crossing has been judged already, and kind 0x04 of a unit that the
crossing fences asks for no second fence. -/
def State.react (s : State) (m : FaultMsg) (judged : Bool) : State :=
  let u := m.ref
  let done := judged || (m.kind == 0x04 && (match u with | .other n => (0x290 ≤ n && n < 0x2B4) || 0x300 ≤ n | _ => true))
  let s := if 2 ≤ m.sev && !done then s.demand m u false else s
  let s := if 2 ≤ m.sev && m.unit == 0x2C4 && m.sub == 2 then
    { s with faults := { s.faults with centralDown := s.faults.centralDown.erase m.phys ++ [m.phys] } } else s
  let s := if m.sev == 3 then s.failJobs m.crew else s
  if 4 ≤ m.sev then s.setDeverr.stopDevice else s

/-- A message at the collector (R634 to R643). -/
def State.take (s : State) (m : FaultMsg) (fresh : Bool) : State :=
  let crosses := s.faults.score m.ref < 512 && 512 ≤ scoreAfter (s.faults.score m.ref) m.kind m.count
  let s := { s with faults := s.faults.enqueue m s.us fresh }
  let s := s.score m
  s.react m crosses

/-- The messages in transit reach the collector, in the order they were sent; `fuel` bounds the messages that reactions send. -/
def State.settleFor : Nat → State → State
  | 0, s => s
  | fuel + 1, s => match s.faults.transit with
    | [] => s
    | m :: ms => State.settleFor fuel (({ s with faults := { s.faults with transit := ms } }).take m false)

/-- Every message sent reaches the collector before the next command. -/
def State.settle (s : State) : State := s.settleFor 4096

end Sys2Proof.Machine
end

