-- ==== Sys2Proof/Machine/PowerOps.lean ====
section
/-!
DEFINITION. What a reset, a fall of power and a start do ("Start-up, firmware, licences and attestation", "Package, lands and
electrical limits"): what is kept and lost, choosing and verifying a firmware slot (R695, R696), licences (R712), and the link
reset of R597.
-/
namespace Sys2Proof.Machine

/-! ### Media across a loss (R498 to R510) -/

/-- The media as they wait for mount: what lies on the flash stays, what DRAM held goes; a metadata record that does not count
as programmed has not taken effect (R510). -/
def Media.unmount (m : Media) : Media :=
  let m := m.dropTrims fun t => !t.durable
  let trims := m.trims
  let pending (r : MetaRec) : Bool := m.records.any fun x => x.2 == r
  { m with state := if m.formatted && !m.formatting then 5 else 3, heldState := none, mountStep := 0, map := [], rr := 0, frozen := false,
           formatted := m.formatted && !m.formatting, formatting := false, patrolAt := m.patrolSaved,
           iface := .sdr, wpN := false, cached := [], records := [],
           secure := m.secure.filter fun r => trims.any fun t => t.space == 0 && t.first ≤ (r.1 + 3) / 4 && (r.1 + 3) / 4 < t.first + t.count,
           sblks := m.sblks.map fun x => { x with intent := x.intent && !pending (.intent x.g x.k), erasedOnce := false },
           groups := m.groups.map fun g => { g with rebuilt := g.recorded } }

/-- A reset that leaves the NAND powered: programs already issued end as reported. -/
def Media.landed (m : Media) : Media :=
  { m with pages := updWhere (fun p => p.prog == ProgState.issued) (fun p => { p with prog := ProgState.reported }) m.pages }

/-! ### What is lost (R607, R731, R738, R759) -/

/-- Every domain loses its state but for what the NOR device, the fuses, the flash and the always-on domain keep. -/
def State.wipe (s : State) : State :=
  let p := s.power
  let u := s.startup
  let d := s.dict
  { State.reset with
    pending := s.pending, free := s.free, uptime := s.uptime, sent := s.sent,
    pins := { s.pins with rails := { s.pins.rails with hd := false, pd := [false, false, false, false], ed := [false, false],
                                                       hbm := false, lpddr := false, nandIo := false },
                          alertHeld := none },
    power := { brownOuts := p.brownOuts, temps := p.temps, packagePower := p.packagePower, entryAborts := p.entryAborts },
    startup := { u with phase := .off, cxlDone := false, trainedLocal := 0, running := none, licenceValid := 0, aenHeld := false,
                        slotA := { u.slotA with state := if u.slotA.state == 3 then 2 else u.slotA.state },
                        slotB := { u.slotB with state := if u.slotB.state == 3 then 2 else u.slotB.state } },
    fuses := s.fuses,
    catalogue := s.catalogue, vocabs := s.vocabs, grammars := s.grammars,
    media := { s.media.unmount with discard := s.sinks.flatMap Sink.unsealed },
    faults := { savedScores := s.faults.savedScores, savedProbation := s.faults.savedProbation, savedFences := s.faults.savedFences,
                eightFences := s.faults.eightFences, fenceTimes := s.faults.fenceTimes, crossings := s.faults.crossings,
                commonCause := s.faults.commonCause },
    dict := { d with sessions := [], fails := [], lockouts := [], mctpEid := 0, i3cDynamic := none, spdm := [] } }

/-- R431, R657: a cold start or brown-out: local uptime restarts at 0 and the fault windows are empty. -/
def State.coldTime (s : State) : State :=
  { s with uptime := 0, faults := { s.faults with fenceTimes := [], crossings := [], commonCause := false } }

/-- R758, R716, R697: a device reset with a StartupCause; any pad hold in force is one the DX36 releases itself (R734). -/
def State.deviceReset (s : State) (cause : Nat) : State :=
  let s := { s with media := s.media.landed }.wipe
  { s with startup := { s.startup with cause := cause },
           pins := { s.pins with padHold := s.pins.padHold.map fun _ => .reset } }

/-! ### Starting (R691) -/

/-- R764: every sensor 20 °C below its trip temperature. -/
def tripOf (sensor : Nat) : Int := if sensor < 7 then 1150 else 1050

/-- R764: is every sensor cool enough to restart after a thermal trip? -/
def State.cool (s : State) : Bool := s.power.temps.zipIdx.all fun t => t.1 ≤ tripOf t.2 - 200

/-- R691: PWROK and RESET_N are both high and nothing holds the device off: the sequence begins at step 1. -/
def State.tryStart (s : State) : State :=
  if s.pins.pwrok && s.pins.resetN && s.pins.vin48 && !s.pins.inputBad && s.startup.phase == .off && (!s.pins.hwTrip || s.cool) then
    { s with startup := { s.startup with phase := .step 1, began := s.uptime },
             pins := { s.pins with hwTrip := false, alertTemp := false } }
  else s

/-- R764: as `tryStart`, for what does not restart a device that a thermal trip holds off. -/
def State.restart (s : State) : State := if s.pins.hwTrip then s else s.tryStart

/-- R738: a brown-out. -/
def State.brownOut (s : State) : State :=
  let s := { s with media := s.media.cutShort }.wipe.coldTime
  let s := { s with power := { s.power with brownOuts := (s.power.brownOuts + 1) % 4294967296 },
                    startup := { s.startup with cause := 2 },
                    pins := { s.pins with padHold := some .brownOut } }
  s.restart

/-- VIN48 is lost: the always-on domain stops too; the next start is a cold start. -/
def State.powerLost (s : State) : State :=
  let s := { s with media := s.media.cutShort }.wipe.coldTime
  { s with startup := { s.startup with cause := 0 },
           pins := { s.pins with vin48 := false, aon := false, vaux18 := false, pwrok := false, padHold := none,
                                 hwTrip := false, alertTemp := false, inputBad := false, rails := {} } }

/-! ### Firmware slots (R695, R696, R698) -/

/-- A slot's image. -/
def State.slot (s : State) (n : Nat) : FwSlot := if n == 0 then s.startup.slotA else s.startup.slotB

/-- A slot changed. -/
def State.setSlot (s : State) (n : Nat) (f : FwSlot → FwSlot) : State :=
  if n == 0 then { s with startup := { s.startup with slotA := f s.startup.slotA } }
  else { s with startup := { s.startup with slotB := f s.startup.slotB } }

/-- SV of an image. -/
def imgSv (b : Bytes) : Nat := field b 5 1
/-- FWVER of an image. -/
def imgVer (b : Bytes) : Nat := field b 8 8
/-- ILEN of an image. -/
def imgLen (b : Bytes) : Nat := field b 16 4

/-- R716 SecurityCounter: fuse steps burned; a step counts when either fuse is blown. -/
def State.securityCounter (s : State) : Nat := (s.startup.counterFuses.filter fun f => f != 0).length

/-- R695: does an image verify, its security version apart? -/
def imgVerifies (b : Bytes) : Bool :=
  let n := imgLen b
  let eoff := field b 20 4
  let elen := field b 24 4
  field b 0 4 == 0xC4A5D33C && field b 4 1 == 1 && within 1 64 (imgSv b) && within 4096 25165728 n &&
  eoff % 4096 == 0 && within 1 4194304 elen && eoff + elen ≤ n && n + 96 ≤ b.length &&
  ecdsaVerify Config.firmwareKey (sha384 (b.take n)) (slice b n 96)

/-- R695, R696: a slot judged: what becomes of it (3 running, 4 below the counter, 0 empty). -/
def State.judgeSlot (s : State) (n : Nat) : Nat :=
  let b := (s.slot n).image
  if !imgVerifies b then 0 else if imgSv b < s.securityCounter then 4 else 3

/-- A slot that fails R695: marked empty, or kept below the counter. -/
def State.failSlot (s : State) (n v : Nat) : State :=
  s.setSlot n fun x => if v == 4 then { x with state := 4 } else { image := [], state := 0 }

/-- The firmware of a slot starts. -/
def State.runSlot (s : State) (n : Nat) (commit : Bool) : State :=
  let s := s.setSlot n fun x => { x with state := 3 }
  { s with startup := { s.startup with running := some n, fromCommit := commit, phase := .step 5 } }

/-- R696: a slot tried, then the other once, else recovery. -/
def State.trySlots (s : State) (n : Nat) (commit : Bool) : State :=
  let v := s.judgeSlot n
  if v == 3 then s.runSlot n commit
  else
    let s := s.failSlot n v
    let w := s.judgeSlot (1 - n)
    if w == 3 then s.runSlot (1 - n) false
    else
      let s := s.failSlot (1 - n) w
      { s with startup := { s.startup with phase := .recovery }, host := { s.host with training := true } }

/-- R696, R697: step 4: the slot is chosen and verified. -/
def State.chooseSlot (s : State) : State :=
  let u := s.startup
  match u.pending with
  | some n => { s with startup := { u with pending := none, takeNext := none } }.trySlots n true
  | none => match u.takeNext with
    | some n => { s with startup := { u with takeNext := none } }.trySlots n false
    | none => s.trySlots u.lastGood false

/-- R698: the security counter burned to a value: steps below it lacking a fuse get both. -/
def burn (fuses : List Nat) (n : Nat) : List Nat :=
  fuses.zipIdx.map fun (f, i) => if i < n || f == 1 then 2 else f

/-- R698: at start-up complete the counter is raised when the start came from a commit, and half-burned steps are completed; a
slot below it then reads SlotState 4. -/
def State.raiseCounter (s : State) : State :=
  let u := s.startup
  let sv := match u.running with | some n => imgSv (s.slot n).image | none => 0
  let upTo := if u.fromCommit && s.securityCounter < sv then sv else 0
  let s := { s with startup := { u with counterFuses := burn u.counterFuses upTo } }
  [0, 1].foldl (fun s n =>
    if u.running != some n && (s.slot n).state != 0 && imgSv (s.slot n).image < s.securityCounter then
      s.setSlot n fun x => { x with state := 4 }
    else s) s

/-! ### Licences (R710 to R712) -/

/-- R674: the key hash. -/
def keyHash (key : Bytes) : Bytes := (sha384 key).take 16

/-- R711 checks 1 to 3: the failing status, if any. -/
def licenceFail (f : Fuses) (b : Bytes) : Option Nat :=
  if field b 4 1 != 1 || field b 0 4 != 0xC4A5D33D || bits b 42 40 == 0 || bits b 63 43 != 0 || (slice b 48 48) != zeros 48 then some 0x02
  else if !ecdsaVerify Config.licenceKey (sha384 (b.take 96)) (b.drop 96) then some 0x32
  else if slice b 16 16 != f.serial || slice b 32 16 != keyHash f.identityKey then some 0x02
  else none

/-- LID of a licence. -/
def licenceId (b : Bytes) : Nat := field b 8 8

/-- R712: every stored licence checked again. -/
def State.checkLicences (s : State) : State :=
  let ok := s.startup.licences.map fun b => b.length == 192 && (licenceFail s.fuses b).isNone
  { s with startup := { s.startup with licenceValid := (ok.zipIdx.map fun (v, i) => if v then 2 ^ i else 0).sum } }

/-! ### Link reset (R597) -/

/-- R597 step 1: a queue pair goes, its commands and outstanding completions discarded with it. -/
def State.dropQp (s : State) (q : Nat) : State :=
  let mine := s.host.cmds.filter fun c => c.qid == q
  let s := mine.foldl (fun s c => s.endGrants c.qid c.cid) s
  let cmds := s.host.cmds.filter fun c => c.qid != q
  let watched := s.host.watched.filter fun w => w != q
  { s with host := { s.host with cmds := cmds, qps := s.host.qps.filter fun p => p.qid != q, watched := watched } }

/-- R597: the link reset. -/
def State.linkReset (s : State) : State :=
  let s := (s.host.qps.map (·.qid)).foldl (fun s q => s.dropQp q) s
  let s := s.resetCrews (s.crews.map (·.num))
  let s := (s.sinks.map (·.num)).foldl State.closeSink s
  let h := s.host
  let hold := h.sliceHold ++ h.grants.map fun g => (g.first, g.count, s.uptime)
  let h := { h with adminCtx := List.replicate 64 0, aen := false, acerr := false, barBytes := [], grants := [], sliceHold := hold }
  let h := { h with ingests := [], turn := 0, linkResets := (h.linkResets + 1) % 4294967296, watched := s.sinks.map fun k => 256 + k.num,
                    cacheLines := [] }
  let spdm := s.dict.spdm.filter fun t => t != .mailbox
  ({ s with host := h, dict := { s.dict with spdm := spdm } }).freeRef fun r => match r with | .window _ _ _ => true | _ => false

end Sys2Proof.Machine
end

