-- ==== Sys2Proof/Machine/HostOps.lean ====
section
/-!
DEFINITION. The command interface's operations ("The storage and job command set", "CXL attachment"): queue pairs (R530 to R538),
capsule checks (R539 to R543, R554, R555), the data of commands in both directions (R540, R556 to R560), posting (R536, R541) and
registers (R580 to R582).
-/
namespace Sys2Proof.Machine

/-! ### Queue pairs -/

/-- R531, R532, R554: the byte offset of the first field of a queue pair context out of range. -/
def ctxBad (b : Bytes) (qidOk : Bool) : Option Nat :=
  if field b 0 1 != 1 then some 0
  else if !qidOk then some 1
  else if !within 2 4096 (bits b 47 32) then some 4
  else if 2047 < bits b 63 48 then some 6
  else if bits b 127 64 % 4096 != 0 then some 8
  else if bits b 191 128 % 4096 != 0 then some 16
  else if bits b 16 16 == 0 && bits b 255 192 % 64 != 0 then some 24
  else if field b 32 1 == 0 then some 32
  else none

/-- A queue pair created; with TAILMODE 0 its tail line is watched (R533, R586). -/
def State.createQp (s : State) (qid : Nat) (ctx : Bytes) : State :=
  let q : QueuePair := { qid := qid, ctx := ctx }
  let below := s.host.qps.filter fun p => p.qid < qid
  let above := s.host.qps.filter fun p => qid < p.qid
  let watched := if q.tailmode == 0 then s.host.watched ++ [qid] else s.host.watched
  { s with host := { s.host with qps := below ++ q :: above, watched := watched } }

/-- R536: entries posted and not consumed. -/
def QueuePair.posted (p : QueuePair) : Nat := let d := max 1 p.depth; (p.cqTail + d - p.cqHead) % d

/-- R536: the completion ring is full. -/
def QueuePair.full (p : QueuePair) : Bool := p.depth ≤ p.posted + 1

/-- R541: the 16 bytes of an entry. -/
def Posting.encode (e : Posting) (p : QueuePair) : Bytes :=
  leBytes 4 e.res0 ++ leBytes 2 p.sqHead ++ leBytes 2 p.qid ++ leBytes 2 e.cid ++
  [byteOf ((if p.phase then 1 else 0) + e.kind * 2 + e.jstate * 4), byteOf e.status, 0x01] ++ leBytes 3 e.res1

/-- R536, R532: the oldest held entry posted, then its interrupt when CCOUNT or CTIME asks for one at once. -/
def State.post (s : State) (q : Nat) : State :=
  match s.qp q with
  | none => s
  | some p => match p.held with
    | [] => s
    | e :: es =>
      if p.full then s else
        let s := s.send (.dmaWrite (p.cqbase + 16 * p.cqTail) (e.encode p) false)
        let wrap := p.cqTail + 1 == p.depth
        let due := max 1 p.ccount ≤ p.unsignalled + 1 || p.ctime == 0
        let s := s.modQp q fun p =>
          { p with held := es, cqTail := if wrap then 0 else p.cqTail + 1, phase := if wrap then !p.phase else p.phase,
                   unsignalled := if due then 0 else p.unsignalled + 1 }
        if due then s.signal p.vector else s

/-- As many held entries posted as the ring takes. -/
def State.postAll : Nat → State → Nat → State
  | 0, s, _ => s
  | n + 1, s, q => State.postAll n (s.post q) q

/-- R538: a queue pair deleted: its outstanding commands end with Aborted by request, and then it goes. -/
def State.deleteQp (s : State) (q : Nat) : State :=
  let mine := s.host.cmds.filter fun c => c.qid == q
  let s := mine.foldl (fun s c => (s.endGrants c.qid c.cid).complete c .aborted) s
  let held := match s.qp q with | some p => p.held.length | none => 0
  (State.postAll held s q).dropQp q

/-- R582, R583: an AEN write of 1 takes effect. -/
def State.enableAdmin (s : State) : State :=
  let s := { s with host := { s.host with aen := true } }
  if (s.qp 0).isSome then s
  else match ctxBad s.host.adminCtx (field s.host.adminCtx 1 1 == 0) with
    | some _ => { s with host := { s.host with acerr := true } }
    | none => { s with host := { s.host with acerr := false } }.createQp 0 s.host.adminCtx

/-- R582, R583: an AEN write of 1, held while start-up is incomplete. -/
def State.writeAen (s : State) : State :=
  if s.started then s.enableAdmin else { s with startup := { s.startup with aenHeld := true } }

/-- R582: an AEN write of 0 deletes queue pair 0. -/
def State.clearAen (s : State) : State :=
  let s := { s with host := { s.host with aen := false, acerr := false }, startup := { s.startup with aenHeld := false } }
  if (s.qp 0).isSome then s.deleteQp 0 else s

/-- R537: a queue pair enters its error state and kind 0x29 is raised. -/
def State.errQp (s : State) (q : Nat) : State :=
  match s.qp q with
  | none => s
  | some p => if p.err then s else
      (s.modQp q fun p => { p with err := true }).raise { unit := 0x2C0, kind := 0x29, addr := q }

/-- R536, R537: a completion head index: none when it passes the last posted entry. -/
def QueuePair.takeHead (p : QueuePair) (head : Nat) : Option QueuePair :=
  let d := max 1 p.depth
  if p.depth ≤ head || (p.cqTail + d - p.cqHead) % d < (head + d - p.cqHead) % d then none else some { p with cqHead := head }

/-- R533, R534, R537: a queue pair's indexes as its tail line or doorbells give them. -/
def State.setTail (s : State) (q tail : Nat) : State :=
  match s.qp q with
  | none => s
  | some p => if p.depth ≤ tail then s.errQp q else s.modQp q fun p => { p with sqTail := tail }

/-- A completion head index taken, or the queue pair errs. -/
def State.setHead (s : State) (q head : Nat) : State :=
  match s.qp q with
  | none => s
  | some p => match p.takeHead head with
    | none => s.errQp q
    | some p' => s.modQp q fun _ => p'

/-! ### Fetching (R535) -/

/-- Does the queue pair have an entry to fetch? -/
def QueuePair.ready (p : QueuePair) : Bool := !p.err && p.sqHead != p.sqTail

/-- R535: the queue pair fetched from next: the one whose turn it is while it has entries and weight left, else the next above
it, else the lowest; `true` when a new round begins. -/
def State.nextQp (s : State) : Option (QueuePair × Bool) :=
  let rs := s.host.qps.filter QueuePair.ready
  match rs.find? fun p => (p.qid == s.host.turn && p.fetched < p.weight) || s.host.turn < p.qid with
  | some p => some (p, false)
  | none => match rs.head? with
    | some p => some (p, true)
    | none => none

/-- R590: the device cache holds every watched line: after a wake each is read again before any entry is fetched. -/
def State.linesRead (s : State) : Bool :=
  (s.host.qps.all fun p => p.tailmode != 0 || s.host.watched.contains p.qid) &&
  s.sinks.all fun k => s.host.watched.contains (256 + k.num)

/-- May the device fetch now: start-up complete, PS0 or PS1, the link secure, no entry under way, watched lines read? -/
def State.fetches (s : State) : Bool :=
  s.started && s.power.state ≤ 1 && s.power.entry.isNone && s.host.insecure.isEmpty && s.host.speed != 0 && s.linesRead

/-! ### Capsule checks (R539 to R543, R554, R555) -/

/-- R542: is the opcode one of the table? -/
def isOpc (o : Nat) : Bool := within 0x01 0x06 o || within 0x10 0x14 o || within 0x20 0x26 o

/-- R542: is it an admin opcode? -/
def isAdminOpc (o : Nat) : Bool := o ≤ 0x06

/-- R543: the fields of an opcode in bits [511:160]. -/
def capsuleFields (o : Nat) : List (Nat × Nat) :=
  match o with
  | 0x01 => [(167, 160)]
  | 0x02 => [(167, 160), (223, 192)]
  | 0x03 => [(167, 160), (223, 192)]
  | 0x04 => [(167, 160), (223, 192)]
  | 0x05 => [(160, 160), (223, 192)]
  | 0x06 => [(162, 160)]
  | 0x10 => [(255, 160)]
  | 0x11 => [(263, 160)]
  | 0x12 => [(255, 160)]
  | 0x13 => [(255, 160)]
  | 0x22 => [(207, 160)]
  | _ => []

/-- R549: the feature identifiers listed. -/
def isFeature (f : Nat) : Bool :=
  [0x01, 0x02, 0x03, 0x08, 0x09, 0x20, 0x21, 0x22, 0x23, 0x24, 0x25, 0x30, 0x31, 0x40, 0x41, 0x42, 0x43, 0x44, 0x45, 0x46, 0x50, 0x51].contains f

/-- R548: the log pages. -/
def isPage (p : Nat) : Bool := [0x31, 0x32, 0x33, 0x34, 0x35, 0x40, 0x50].contains p

/-- R543: byte offsets of the fields of an opcode out of range. -/
def fieldOffsets (c : Cmd) : List Nat :=
  let at_ (ok : Bool) (off : Nat) : List Nat := if ok then [] else [off]
  match c.opc with
  | 0x01 => at_ (1 ≤ c.fid) 20
  | 0x02 => at_ (isPage c.fid) 20 ++ at_ (c.fval % 64 == 0) 24
  | 0x03 => at_ (isFeature c.fid) 20
  | 0x04 => at_ (isFeature c.fid) 20
  | 0x05 => at_ (c.dlen % 4096 == 0) 16 ++ at_ (c.fval % 4096 == 0) 24
  | 0x06 => at_ (c.action ≤ 1) 20
  | 0x10 => at_ (c.dlen == 4096 * c.nlb) 16 ++ at_ (within 1 65536 c.nlb) 28
  | 0x11 =>
    if c.ingest then at_ (c.slba == 0) 20 ++ at_ (c.nlb == 0) 28
    else at_ (c.dlen == 4096 * c.nlb) 16 ++ at_ (within 1 65536 c.nlb) 28
  | 0x12 => at_ (within 1 67108864 c.nlb) 28
  | 0x13 => at_ (within 1 67108864 c.nlb) 28
  | 0x22 => at_ (1 ≤ bits c.capsule 207 192) 24
  | _ => []

/-- R555 step 2: byte offsets of RSVD bits that are not 0. -/
def rsvdOffsets (c : Cmd) : List Nat :=
  let named (b : Nat) : Bool := (capsuleFields c.opc).any fun f => f.2 ≤ b && b ≤ f.1
  let all := (List.range 23).map (· + 41) ++ (List.range 352).map (· + 160)
  (all.filter fun b => !named b && bits c.capsule b b == 1).map (· / 8)

/-- R555 step 2, R554: the first offending byte of a capsule whose VER stands. -/
def State.capsuleBad (s : State) (c : Cmd) : Option Nat :=
  let crewOk := if isJobOpc c.opc then c.crew < 64 && (s.crew c.crew).isSome
    else if c.opc == 0x02 then (if c.fid == 0x32 || c.fid == 0x35 then c.crew < 64 else c.crew == 0)
    else c.crew == 0
  let offs := (if crewOk then [] else [4]) ++ (if c.dlen ≤ 268435456 then [] else [16]) ++ fieldOffsets c ++ rsvdOffsets c
  argmin (fun n => n) offs

/-- R540: a data list. -/
def plistOk (l : Bytes) (dlen : Nat) : Bool :=
  let n := l.length / 16
  let len (i : Nat) : Nat := field l (16 * i + 8) 4
  l.length % 16 == 0 && within 1 256 n && ((List.range (n - 1)).all fun i => len i % 4096 == 0) &&
  ((List.range n).map len).sum == dlen

/-- PLIST of a capsule. -/
def Cmd.usesList (c : Cmd) : Bool := bits c.capsule 40 40 == 1

/-- R542, R549: does the command take data from the host? -/
def Cmd.takesData (c : Cmd) : Bool :=
  c.dlen != 0 && ((c.opc == 0x04 && c.fid != 0x09) || c.opc == 0x05 || c.opc == 0x11 || c.opc == 0x20 || c.opc == 0x21)

/-- R555 steps 1 and 2, R540, R643: what a fetched command is answered at once, if anything. -/
def State.refuse (s : State) (c : Cmd) : Option Result :=
  if !isOpc c.opc || (isAdminOpc c.opc && c.qid != 0) then some { status := 0x01 }
  else if c.ver == 0 || s.host.negotiated < c.ver then some (.capsuleField 1)
  else match s.capsuleBad c with
    | some off => some (.capsuleField off)
    | none =>
      if c.usesList && !plistOk c.plist c.dlen then some (.capsuleField 8)
      else if s.faults.stopped && !(c.opc == 0x01 || c.opc == 0x02 || c.opc == 0x03) then some .internal
      else none

/-- R539, R554, R555: the answer to a capsule whose CID is outstanding already: no field after the opcode and VER stands before CID. -/
def State.refuseTaken (s : State) (c : Cmd) : Result :=
  if !isOpc c.opc || (isAdminOpc c.opc && c.qid != 0) then { status := 0x01 }
  else if c.ver == 0 || s.host.negotiated < c.ver then .capsuleField 1
  else .capsuleField 2

/-- R535, R555: the command that a fetched capsule makes; a FLUSH notes the writes it waits for (R482), and a sink flush the shard it
seals (R332). -/
def State.fetchedCmd (s : State) (q : Nat) (capsule plist : Bytes) : Cmd :=
  let c : Cmd := { qid := q, cid := field capsule 2 2, order := s.host.fetches, capsule := fitTo 64 capsule, plist := [], wait := .ready }
  { c with plist := if c.usesList then plist else [], wait := if c.takesData then .data else .ready,
           seqs := if c.opc == 0x14 then s.media.cached else [],
           first := match s.sink c.fval with
             | some k => if c.opc == 0x04 && c.fid == 0x45 then k.shard else 0
             | none => 0 }

/-- R535, R586: a capsule leaves the ring of a queue pair: its head moves on, the turn is noted, and the ring's line is cached. -/
def State.leaveRing (s : State) (p : QueuePair) (fresh : Bool) : State :=
  let h := s.host
  let qps := if fresh then h.qps.map fun x => { x with fetched := 0 } else h.qps
  let used := if fresh || h.turn != p.qid then 1 else p.fetched + 1
  let line := bits p.ctx 127 64 + 64 * p.sqHead
  let lines := (line :: h.cacheLines.filter fun x => x != line).take (65536 - h.watched.length)
  { s with host := { h with qps := updWhere (fun x => x.qid == p.qid) (fun x => { x with sqHead := (x.sqHead + 1) % max 1 x.depth, fetched := used }) qps,
                            turn := p.qid, fetches := h.fetches + 1, cacheLines := lines } }

/-- R535, R539, R555, R718: the next submission entry is fetched, which ends PS1: it is answered at once, or becomes outstanding. -/
def State.fetchCapsule (s : State) (capsule plist : Bytes) : State :=
  if !s.fetches then s else
    match s.nextQp with
    | none => s
    | some (p, fresh) =>
      let c := s.fetchedCmd p.qid capsule plist
      let s := ({ s with power := { s.power with state := 0 } } : State).leaveRing p fresh
      if (s.cmd c.qid c.cid).isSome then s.hold c.qid (s.posting c (s.refuseTaken c))
      else
        let s := { s with host := { s.host with cmds := s.host.cmds ++ [c] } }
        match s.refuse c with
        | some r => s.complete c r
        | none => s

/-! ### Data to the device (R556 to R560) -/

/-- The bytes of a slice in the write window. -/
def sliceBytes : Nat := 65536

/-- A slice in an outstanding grant. -/
def State.sliceGranted (s : State) (n : Nat) : Bool := s.host.grants.any fun g => g.first ≤ n && n < g.first + g.count

/-- R559: a slice held for 1 s after a withdrawal. -/
def State.sliceHeld (s : State) (n : Nat) : Bool :=
  s.host.sliceHold.any fun h => h.1 ≤ n && n < h.1 + h.2.1 && s.since h.2.2 < 1000000

/-- R556, R558: a grant of `count` slices from `first` for the next data of a command; nothing when it is not possible. -/
def State.grant (s : State) (q i first count : Nat) : State :=
  match s.cmd q i with
  | none => s
  | some c =>
    let len := min (count * sliceBytes) (c.dlen - c.granted)
    let mine := (s.host.grants.filter fun g => g.qid == q && g.cid == i).length
    let free := (List.range count).all fun k => !s.sliceGranted (first + k) && !s.sliceHeld (first + k)
    if c.wait == .data && len != 0 && within 1 16 count && count == ceilDiv len sliceBytes && first + count ≤ 16384 && mine < 4 && free then
      match s.alloc .writeWindow (.window q i first) len [ownerId 3 q] with
      | (false, s) => s
      | (true, s) =>
        let g : Grant := { qid := q, cid := i, first := first, count := count, offset := c.granted, len := len }
        let s := { s with host := { s.host with grants := s.host.grants ++ [g] } }
        let s := s.modCmd q i fun c => { c with granted := c.granted + len }
        s.hold q { kind := 1, cid := i, res0 := first + count * 16384, status := 0, jstate := 7, res1 := g.offset / sliceBytes }
    else s

/-- R557: a slice-done doorbell: the grant's data are taken and its slices freed; the command is ready with its last data. -/
def State.sliceDone (s : State) (first : Nat) : State :=
  match s.host.grants.find? fun g => g.first == first with
  | none => s
  | some g =>
    let data := getCells (fun _ => 0) s.host.window (sliceBytes * g.first) g.len
    let s := { s with host := { s.host with grants := s.host.grants.erase g } }
    let s := s.freeRef fun r => r == .window g.qid g.cid g.first
    s.modCmd g.qid g.cid fun c =>
      let parts := c.parts ++ [(g.offset, data)]
      { c with parts := parts, wait := if c.dlen ≤ (parts.map fun p => p.2.length).sum then .ready else c.wait }

/-- R557: one byte of a write-window write: kept when its slice is granted. -/
def State.windowByte (s : State) (a : Nat) (b : Byte) : State :=
  if s.sliceGranted (a / sliceBytes) then { s with host := { s.host with window := putCell (fun _ => 0) s.host.window a b } } else s

/-- R557: a write into the write window; each slice not granted that it touches counts as a stray write. -/
def State.windowWrite (s : State) (off : Nat) (data : Bytes) : State :=
  let n := if data.isEmpty then 0 else (off + data.length - 1) / sliceBytes + 1 - off / sliceBytes
  let stray := ((List.range n).filter fun k => !s.sliceGranted (off / sliceBytes + k)).length
  let s := (data.zipIdx).foldl (fun s (b, i) => s.windowByte (off + i) b) s
  { s with host := { s.host with strayWrites := (s.host.strayWrites + stray) % 4294967296 } }

/-- R559: a command whose grant was not taken up in time. -/
def State.grantExpired (s : State) (q i : Nat) : State :=
  match s.cmd q i with
  | none => s
  | some c =>
    if s.host.grants.any fun g => g.qid == q && g.cid == i then
      let s := s.endGrants q i
      s.complete c { status := 0x02, res0 := 0xFFFFFFFF }
    else s

/-! ### Data to the host (R540) -/

/-- The pieces of data for the entries of a list. -/
def spread : List (Nat × Nat) → Bytes → List (Nat × Bytes)
  | [], _ => []
  | (a, n) :: l, b => if b.isEmpty then [] else (a, b.take n) :: spread l (b.drop n)

/-- Data of a command written to the host. -/
def State.toHost (s : State) (c : Cmd) (b : Bytes) : State :=
  let places := if c.usesList then (List.range (c.plist.length / 16)).map fun i => (field c.plist (16 * i) 8, field c.plist (16 * i + 8) 4)
    else [(c.dptr, b.length)]
  s.sendAll ((spread places b).map fun p => .dmaWrite p.1 p.2 false)

/-! ### Running a command -/

/-- A command that is ready, with the opcode of a row and, for a feature, its identifier. -/
def State.readyCmd (s : State) (q i opc : Nat) (fid : Option Nat) : Option Cmd :=
  match s.cmd q i with
  | some c => if c.wait == .ready && c.opc == opc && (fid.isNone || fid == some c.fid) then some c else none
  | none => none

/-- A ready command answered by `f`, or nothing. -/
def State.onCmd (s : State) (q i opc : Nat) (fid : Option Nat) (f : Cmd → State) : State :=
  match s.readyCmd q i opc fid with
  | some c => f c
  | none => s

/-- R554: a feature's data must hold `n` bytes: DLEN offends otherwise. -/
def Cmd.short (c : Cmd) (n : Nat) : Bool := c.data.length < n

/-! ### Registers (R581, R582) -/

/-- A word of BAR0 written. -/
def State.regWord (s : State) (off v : Nat) : State :=
  if 0x20000 ≤ off && off < 0x20040 then
    { s with host := { s.host with adminCtx := (s.host.adminCtx.take (off - 0x20000)) ++ leBytes 4 v ++ s.host.adminCtx.drop (off - 0x20000 + 4) } }
  else if off == 0x20040 then
    if v % 2 == 1 then s.writeAen else s.clearAen
  else if off == 0x20044 then (if v / 4 % 2 == 1 then s.clearDeverr false else s)
  else if off == 0x20048 then s
  else if 0x30000 ≤ off && off < 0x30800 then
    let q := (off - 0x30000) / 8
    match s.qp q with
    | some p => if p.tailmode == 0 || p.err then s else if off % 8 == 0 then s.setTail q v else s.setHead q v
    | none => s
  else if off == 0x31000 then
    if v < 16384 then s.sliceDone v else { s with host := { s.host with strayWrites := (s.host.strayWrites + 1) % 4294967296 } }
  else if off < 0x20000 then s.barWrite 0 off (leBytes 4 v)
  else s

/-- An MSI-X table entry written; an unmasked vector whose pending bit is set sends its message. -/
def State.msixWrite (s : State) (off : Nat) (b : Bytes) : State :=
  let s := s.barWrite 4 off b
  let v := off / 16
  let pend := leNat (s.barRead 4 (0x8000 + v / 8) 1) / 2 ^ (v % 8) % 2 == 1
  if !s.masked v && pend then (s.setPba v false).send (.msix v) else s

/-- R580, R581: a register write. -/
def State.regWrite (s : State) (bar off size value : Nat) : State :=
  match bar with
  | 0 =>
    if (size == 4 || size == 8) && off % size == 0 && off + size ≤ 0x100000 then
      let s := s.regWord off (value % 4294967296)
      if size == 8 then s.regWord (off + 4) (value / 4294967296 % 4294967296) else s
    else s
  | 2 => s.windowWrite off (leBytes size value)
  | 4 => if (size == 4 || size == 8) && off % size == 0 && off + size ≤ 0x8000 then s.msixWrite off (leBytes size value) else s
  | _ => s

/-- R9, R580, R582: what a 4-byte word of BAR0 reads as. ACTRL, ASTS and DEVERR_CNT read as they stand and the doorbells, which are WO, as
0; so do the offsets of no block. -/
def State.regReadWord (s : State) (off : Nat) : Nat :=
  if off < 0x20000 then leNat (s.barRead 0 off 4)
  else if off < 0x20040 then field s.host.adminCtx (off - 0x20000) 4
  else if off == 0x20040 then bit s.host.aen 0
  else if off == 0x20044 then s.asts
  else if off == 0x20048 then s.host.deverrCnt
  else 0

/-- R9, R580, R581: the bytes that a read of a base address register's window returns: no row of the table is a read, since a read
changes nothing. -/
def State.regRead (s : State) (bar off size : Nat) : Bytes :=
  match bar with
  | 0 =>
    if (size == 4 || size == 8) && off % size == 0 && off + size ≤ 0x100000 then
      leBytes 4 (s.regReadWord off) ++ (if size == 8 then leBytes 4 (s.regReadWord (off + 4)) else [])
    else List.replicate size 0xFF
  | 2 => zeros size
  | 4 => s.barRead 4 off size
  | _ => List.replicate size 0xFF

end Sys2Proof.Machine
end

