-- ==== Sys2Proof/Machine/AuditOps.lean ====
section
/-!
DEFINITION. Sessions' keys and the audit journal (R674, R682 to R687).
-/
namespace Sys2Proof.Machine

/-! ### Sessions -/

/-- The public key of a role and slot (R675, R676). -/
def State.roleKey (s : State) (role slot : Nat) : Bytes :=
  match role with
  | 1 => s.octs 0x1200 slot
  | 2 => s.octs 0x1201 slot
  | _ => Config.makerKey

/-- R674: the key hash of a session. -/
def State.sessionHash (s : State) (x : Session) : Bytes := keyHash (s.roleKey x.role x.slot)

/-- R552, R687: the open installer or maker session on the mailbox. -/
def State.mailboxSession (s : State) : Option Session :=
  s.dict.sessions.find? fun x => x.isOpen && x.t == .mailbox && 2 ≤ x.role

/-- The code of a transport (R676). -/
def transportCode : Transport → Nat
  | .mailbox => 0
  | .t1s => 1
  | .mctp => 2

/-! ### The journal -/

/-- What an audit entry says beside its number and time (R683). -/
structure Audit where
  /-- KIND. -/
  kind : Nat
  /-- ROLE. -/
  role : Nat := 0
  /-- TRANSPORT. -/
  transport : Nat := 0
  /-- KEYHASH. -/
  hash : Bytes := []
  /-- INDEX. -/
  idx : Nat := 0
  /-- SUB. -/
  sub : Nat := 0
  /-- TYPE. -/
  ty : Nat := 0
  /-- Old value. -/
  old : Bytes := []
  /-- New value. -/
  new : Bytes := []
  /-- TIME. -/
  time : Bytes := []
  deriving DecidableEq, Repr, Inhabited

/-- R683: a value as OLDV and NEWV show it. -/
def auditValue (b : Bytes) : Bytes := if b.length ≤ 16 then fitTo 16 b else (sha384 b).take 16

/-- R683: the 128 bytes of an entry. -/
def Audit.encode (a : Audit) (jseq us : Nat) : Bytes :=
  let b := [0x01, byteOf a.kind, byteOf a.role, byteOf a.transport] ++ zeros 4 ++ leBytes 8 jseq ++ leBytes 8 us ++ fitTo 16 a.hash ++
    leBytes 2 a.idx ++ [byteOf a.sub, byteOf a.ty] ++ leBytes 4 a.new.length ++ auditValue a.old ++ auditValue a.new ++
    fitTo 32 a.time ++ zeros 12
  b ++ leBytes 4 (crc32c b)

/-- R685: the slot of a journal sequence number. -/
def auditSlot (jseq : Nat) : Nat := jseq % 8192

/-- The entry that the next one would take the slot of. -/
def Dict.standing (d : Dict) : Option Bytes := (d.journal.find? fun e => e.1 == auditSlot d.jseq).map (·.2)

/-- R686: does the next entry find its slot unread: taken by an entry above AuditReadMark? -/
def State.auditUnread (s : State) : Bool :=
  match s.dict.standing with
  | some e => s.num 0x1283 0 < field e 8 8
  | none => false

/-- R686: does AuditMode 1 refuse a request that needs an entry? -/
def State.auditRefuses (s : State) : Bool := s.num 0x1282 0 == 1 && s.auditUnread

/-- R682 to R686: an entry written; it takes its slot's older entry's place, which counts when it is lost unread or under
AuditMode 0. -/
def State.audit (s : State) (a : Audit) : State :=
  let d := s.dict
  let unread := match d.standing with | some _ => s.num 0x1282 0 == 0 || s.auditUnread | none => false
  if a.kind == 2 && s.auditRefuses then { s with dict := { d with overwritten := d.overwritten + 1 } }
  else
    let slot := auditSlot d.jseq
    { s with dict := { d with journal := (slot, a.encode d.jseq s.us) :: d.journal.filter fun e => e.1 != slot,
                              jseq := d.jseq + 1, overwritten := if unread then d.overwritten + 1 else d.overwritten } }

/-- An audit entry of a session's request. -/
def State.auditOf (s : State) (x : Session) (kind transport : Nat) : Audit :=
  { kind := kind, role := x.role, transport := transport, hash := s.sessionHash x }

end Sys2Proof.Machine
end

