-- ==== Sys2Proof/Machine/AdminRows.lean ====
section
/-!
DEFINITION. Meanings of the admin commands: IDENTIFY, GET LOG, GET FEATURES, firmware download and commit, and features 0x01 to
0x03 (R530, R538, R544 to R553, R767).
-/
namespace Sys2Proof.Machine

/-- A ready command of queue pair `q` and id `i`, by its opcode and feature, answered by `f`. -/
def State.atCmd (s : State) (q i opc : Nat) (fid : Option Nat) (f : Cmd → State → State) : Host.Outcome State Fault Refusal :=
  .next (s.onCmd q i opc fid fun c => f c s).settle

/-! ### IDENTIFY -/

/-- R544: the identity structure. -/
def State.identity (s : State) : Bytes :=
  let f := s.fuses
  let u := s.startup
  let other := match u.running, u.pending with | some r, some p => r != p | _, _ => false
  let slots := (if u.running == some 1 then 1 else 0) + (if other then 2 else 0)
  fitTo 4096 ([0x01, 0x01, 0x01, byteOf s.host.negotiated, byteOf f.order, byteOf f.step, 0x01, byteOf Config.compressorRevision] ++
    leBytes 8 s.fwVersion ++ fitTo 16 f.serial ++ leBytes 2 256 ++ leBytes 2 4096 ++ leBytes 2 2048 ++
    [64, byteOf (s.features + slots * 8)] ++ leBytes 8 s.media.capacity ++ [0x01, 0x01, 0x01])

/-- R544 to R546: IDENTIFY. -/
def State.identify (s : State) (c : Cmd) : State :=
  if c.dlen < 4096 then s.complete c (.capsuleField 16)
  else
    let v := min c.fid 1
    let s := { s with host := { s.host with negotiated := v } }
    (s.toHost c s.identity).complete c (.ok v)

/-- IDENTIFY. -/
def execIdentify (qid cid : Nat) (s : State) : Host.Outcome State Fault Refusal := s.atCmd qid cid 0x01 none fun c s => s.identify c

/-! ### GET LOG -/

/-- R548: a page: header and entries. -/
def logPage (page esize newest lost : Nat) (ovf : Bool) (es : List Bytes) : Bytes :=
  [0x01, byteOf page] ++ leBytes 2 esize ++ leBytes 4 es.length ++ leBytes 4 newest ++ leBytes 4 lost ++
  [if ovf then 1 else 0] ++ zeros 47 ++ es.flatMap fun e => fitTo esize e

/-- A ring's page: entry number t stands in place t mod `cap`. -/
def Ring.page (r : Ring) (page cap : Nat) : Bytes :=
  let cut := cap - r.total % cap
  let es := if r.total ≤ cap then r.entries else r.entries.drop cut ++ r.entries.take cut
  logPage page 64 (if r.total == 0 then 0 else (r.total - 1) % cap) r.lost false es

/-- R548: a log page as it stands. -/
def State.logBytes (s : State) (page crew : Nat) : Bytes :=
  match page with
  | 0x31 => s.regLog.page page 256
  | 0x32 => logPage page 64 0 0 false (match (s.crew crew).bind (·.rejection) with | some e => [e] | none => [])
  | 0x33 => s.concealLog.page page 4096
  | 0x34 => s.timingLog.page page 4096
  | 0x35 => logPage page 16 0 0 false (match s.crew crew with | some k => k.drained | none => [])
  | 0x40 => logPage page 16 0 0 false s.topology
  | _ => logPage page 32 0 0 s.media.lostOvf s.media.lostLog

/-- R548: GET LOG writes DLEN bytes of the page from OFFSET, or as many as the page has there; RES0 is the bytes written (R542). -/
def State.getLog (s : State) (c : Cmd) : State :=
  let data := slice (s.logBytes c.fid c.crew) c.fval c.dlen
  (s.toHost c data).complete c (.ok data.length)

/-- GET_LOG. -/
def execGetLog (qid cid : Nat) (s : State) : Host.Outcome State Fault Refusal := s.atCmd qid cid 0x02 none fun c s => s.getLog c

/-! ### GET FEATURES -/

/-- R549: GET FEATURES: feature 0x01 has a value, a queue pair's context. -/
def State.getFeature (s : State) (c : Cmd) : State :=
  if c.fid != 0x01 then s.complete c (.capsuleField 20)
  else match s.qp c.fval with
    | none => s.complete c (.capsuleField 24)
    | some p => if c.dlen < 64 then s.complete c (.capsuleField 16) else (s.toHost c (fitTo 64 p.ctx)).complete c (.ok 64)

/-- GET_FEATURES. -/
def execGetFeatures (qid cid : Nat) (s : State) : Host.Outcome State Fault Refusal := s.atCmd qid cid 0x03 none fun c s => s.getFeature c

/-! ### Firmware -/

/-- The bytes of a firmware slot (R552). -/
def fwSlotBytes : Nat := 25165824

/-- R552, R687: FIRMWARE DOWNLOAD. -/
def State.fwDownload (s : State) (c : Cmd) : State :=
  if s.startup.running == some c.fwSlot then s.complete c (.capsuleField 20)
  else if fwSlotBytes < c.fval + c.dlen then s.complete c (.capsuleField 24)
  else if s.mailboxSession.isNone then s.complete c .role
  else
    let s := if c.dlen == 0 then s else s.setSlot c.fwSlot fun x => { image := overlay x.image c.fval (c.data.take c.dlen), state := 1 }
    s.complete c .ok

/-- FIRMWARE_DOWNLOAD. -/
def execFirmwareDownload (qid cid : Nat) (s : State) : Host.Outcome State Fault Refusal :=
  s.atCmd qid cid 0x05 none fun c s => s.fwDownload c

/-- R553, R682, R687, R698: FIRMWARE COMMIT. -/
def State.fwCommit (s : State) (c : Cmd) : State :=
  match s.mailboxSession with
  | none => s.complete c .role
  | some x =>
    if s.auditRefuses then s.complete c .quota
    else
      let n := c.fwSlot
      let s := s.audit (s.auditOf x 4 3)
      let v := s.judgeSlot n
      if v != 3 then (s.failSlot n v).complete c .signature
      else
        let s := s.setSlot n fun y => { y with state := if y.state == 3 then 3 else 2 }
        let s := if c.action == 0 then { s with startup := { s.startup with pending := some n } } else s
        s.complete c (.ok (imgSv (s.slot n).image))

/-- FIRMWARE_COMMIT. -/
def execFirmwareCommit (qid cid : Nat) (s : State) : Host.Outcome State Fault Refusal :=
  s.atCmd qid cid 0x06 none fun c s => s.fwCommit c

/-! ### Queue pairs -/

/-- R530 to R532: feature 0x01. -/
def State.qpCreate (s : State) (c : Cmd) : State :=
  let ctx := c.data.take 64
  let n := field ctx 1 1
  if c.short 64 then s.complete c (.capsuleField 16)
  else match ctxBad ctx (1 ≤ n && (s.qp n).isNone) with
    | some off => s.complete c (.dataField off)
    | none => (s.createQp n ctx).complete c .ok

/-- QUEUE_PAIR_CREATE. -/
def execQueuePairCreate (qid cid : Nat) (s : State) : Host.Outcome State Fault Refusal :=
  s.atCmd qid cid 0x04 (some 0x01) fun c s => s.qpCreate c

/-- R538: is the queue pair named by a delivery target? Over CXL, the one that carried OPEN EPOCH (R592). -/
def State.qpTargeted (s : State) (n : Nat) : Bool :=
  s.crews.any fun k => match k.job with
    | some j => j.qid == n && j.ranks.any fun r => tgtCxl r.target
    | none => false

/-- R538, R767: feature 0x02. -/
def State.qpDelete (s : State) (c : Cmd) : State :=
  let n := c.fval
  if n == 0 || (s.qp n).isNone || s.qpTargeted n then s.complete c (.capsuleField 24) else (s.deleteQp n).complete c .ok

/-- QUEUE_PAIR_DELETE. -/
def execQueuePairDelete (qid cid : Nat) (s : State) : Host.Outcome State Fault Refusal :=
  s.atCmd qid cid 0x04 (some 0x02) fun c s => s.qpDelete c

/-! ### Abort -/

/-- R569: batches delivered so far under a REQUEST BATCHES. -/
def State.grantDelivered (s : State) (c : Cmd) : Nat :=
  match (s.run c.crew).bind fun r => r.job.rank c.reqRank with
  | some k => min c.reqCount (k.next - c.first)
  | none => 0

/-- R551, R560: a command ended by request: its window grants are withdrawn; what it wrote stays, and so do batches granted. -/
def State.endByRequest (s : State) (c : Cmd) : State :=
  (s.endGrants c.qid c.cid).complete c (.aborted (if c.opc == 0x22 then s.grantDelivered c else 0))

/-- R550: feature 0x03; `sameCycle` says that the named command completes in the same cycle. -/
def State.abortCmd (s : State) (c : Cmd) (sameCycle : Bool) : State :=
  match s.cmd (c.fval / 65536 % 256) (c.fval % 65536) with
  | none => s.complete c (.ok 0)
  | some t =>
    if sameCycle || (isJobOpc t.opc && t.opc != 0x22) || t.is c.qid c.cid then s.complete c (.ok 0)
    else (s.endByRequest t).complete c (.ok 1)

/-- ABORT. -/
def execAbort (qid cid : Nat) (sameCycle : Bool) (s : State) : Host.Outcome State Fault Refusal :=
  s.atCmd qid cid 0x04 (some 0x03) fun c s => s.abortCmd c sameCycle

end Sys2Proof.Machine
end

