-- ==== Sys2Proof/Machine/MetaOps.lean ====
section
/-!
DEFINITION. What the media tell the rest of the device as programs end ("Flash media management"): outstanding commands that awaited
them complete (R481, R482, R493, R495), catalogue, vocabulary and grammar records take effect (R61, R64, R302, R325, R510), and
shards that sinks sealed stand (R336).
-/
namespace Sys2Proof.Machine

/-! ### The catalogue -/

/-- A dataset entered, in ascending number. -/
def State.addDataset (s : State) (d : Dataset) : State :=
  { s with catalogue := (s.catalogue.filter fun x => x.dset < d.dset) ++ d :: s.catalogue.filter fun x => d.dset < x.dset }

/-- Datasets a recipe image names. -/
def imageDatasets (img : Bytes) : List Nat :=
  rcpDset img :: (List.range (rcpScount img)).filterMap fun i =>
    let d := rcpStage img i
    if bindsDataset (stOp d) then some (stBdset d) else none

/-- R68, R83: the crew that keeps a dataset from being removed, one of R68 before one of R83 (DESIGN CHOICE, log 131). -/
def State.datasetUser (s : State) (n : Nat) : Option Nat :=
  match s.lowestCrew fun k => match k.recipe with | some rc => (imageDatasets rc.image).contains n | none => false with
  | some k => some k
  | none => (argmin id ((s.sinks.filter fun k => sinkDset k.image == n).map Sink.crew))

/-- R303: the crew that keeps a vocabulary from being removed: the lowest that binds it or owns a sink that uses it. -/
def State.vocabUser (s : State) (n : Nat) : Option Nat :=
  s.lowestCrew fun k =>
    (match k.recipe with
      | some rc => (List.range (rcpScount rc.image)).any fun i =>
          let d := rcpStage rc.image i
          stOp d == 0x04 && stBdset d == n
      | none => false) ||
    s.sinks.any fun x => x.crew == k.num && sinkVocab x.image == n

/-- R64, R772: a failed registration: its entry and its completion. -/
def State.registrationFailed (s : State) (c : Cmd) (f : RegFail) : State :=
  let s := { s with regLog := s.regLog.add 256 (regEntry f (manDset (slice c.data 64 (field c.data 48 4))) s.us) }
  s.complete c (if f.status == 0x02 then .dataField f.off else { status := f.status })

/-- The first logical block of a shard that another device holds, in a dataset's placement: blocks of device d stand from
2^62 + 2^48 d up, outside every local range (DESIGN CHOICE). -/
def farBlock (dev slba : Nat) : Nat := 2 ^ 62 + dev * 2 ^ 48 + slba % 2 ^ 48

/-- Is a placement's block held by this device? -/
def isLocal (slba : Nat) : Bool := slba < 2 ^ 62

/-- R615: a registration's data with the blocks of other devices' shards moved to their own ranges, and a local range past the
capacity moved out of every range, so that R63 can be checked device by device. -/
def State.domainData (s : State) (data : Bytes) : Bytes :=
  let base := 64 + field data 48 4
  let man := slice data 64 (field data 48 4)
  let n := manScount man
  if data.length != base + 16 * n then data
  else data.take base ++ (List.range n).flatMap fun i =>
    let e := slice data (base + 16 * i) 16
    let slba := field e 8 8
    let dev := field e 4 2
    e.take 8 ++ leBytes 8 (if dev != s.domain.deviceId then farBlock dev slba
      else if s.media.capacity < slba + shardBlocks (manSlen man i) then 2 ^ 64 - 1 else slba)

/-! ### Commands that awaited programs -/

/-- A command whose programs all count as programmed completes, and what it wrote into the metadata space takes effect (R510): a
dataset is usable (R64 step 6) or gone (R61), a vocabulary or grammar is loaded (R302, R325) or gone (R303). -/
def State.finish (s : State) (c : Cmd) : State :=
  if c.opc != 0x04 then s.complete c .ok
  else match c.fid with
    | 0x30 => (s.addDataset (registered c.data)).complete c .ok
    | 0x24 => (s.addDataset (registered (s.domainData c.data))).complete c .ok
    | 0x31 => match s.datasetUser c.fval with
      | some k => s.complete c (.sequence (some k))
      | none => ({ s with catalogue := s.catalogue.filter fun d => d.dset != c.fval } : State).complete c .ok
    | 0x40 => ({ s with vocabs := s.vocabs ++ [{ num := field c.data 0 1, image := c.data.drop 8, hash := sha384 (c.data.drop 8) }] } : State).complete c .ok
    | 0x41 => match s.vocabUser c.fval with
      | some k => s.complete c (.sequence (some k))
      | none =>
        let s := s.freeRef fun b => b == vocabRef c.fval
        ({ s with vocabs := s.vocabs.filter fun v => v.num != c.fval } : State).complete c .ok
    | 0x42 => ({ s with grammars := s.grammars ++ [{ num := field c.data 0 1, image := c.data.drop 8 }] } : State).complete c .ok
    | 0x43 =>
      let s := s.freeRef fun b => b == grammarRef c.fval
      ({ s with grammars := s.grammars.filter fun v => v.num != c.fval } : State).complete c .ok
    | _ => s.complete c .ok

/-- R481, R482: commands whose programs all count as programmed end. -/
def State.settlePrograms (s : State) : State :=
  let done := s.host.cmds.filter fun c => c.wait == .programs && !c.seqs.any s.media.under
  done.foldl State.finish s

/-- R481: a command whose data are written waits for its programs, or completes at once under the cache; FLUSH then awaits them
(R482). -/
def State.awaitPrograms (s : State) (c : Cmd) (seqs : List Nat) (cached : Bool) : State :=
  if cached then
    ({ s with media := { s.media with cached := s.media.cached ++ seqs } } : State).complete c .ok
  else (s.modCmd c.qid c.cid fun x => { x with wait := .programs, seqs := seqs }).settlePrograms

/-- R495: has a SECURE DEALLOCATE's range still a superblock to erase? -/
def Media.secureOpen (m : Media) (r : Nat × Nat) : Bool :=
  let units := (coverUnits r.1 r.2).map (·.1)
  m.sblks.any fun x => x.moving && m.pages.any fun p =>
    p.loc.g == x.g && p.loc.k == x.k && (p.kind == 1 || p.kind == 2) && p.space == 0 && units.contains p.lmu

/-- R495, R496: SECURE DEALLOCATEs whose superblocks are all erased end. -/
def State.settleSecure (s : State) : State :=
  let due := s.media.secure.filter fun r => !s.media.secureOpen r
  let s := { s with media := { s.media with secure := s.media.secure.filter s.media.secureOpen } }
  (s.host.cmds.filter fun c => c.wait == .erases && due.contains (c.slba, c.nlb)).foldl (fun s c => s.complete c .ok) s

/-- The media changed: records whose programs have ended take effect, erase intents and page 0x50 follow the map (R490, R526), and
commands and sinks that waited are looked at. -/
def State.setMedia (s : State) (m : Media) : State :=
  let m := m.settleRecords.intend.pruneLost
  ({ s with media := { m with wpN := m.busy, cached := m.cached.filter m.under } } : State).settlePrograms.settleSecure.settleSeals

/-- R64 step 6, R302, R325, R510: a record of a command written into the metadata space: the command waits for its programs; with no
group to take it, it ends with Write fault. -/
def State.writeRecord (s : State) (c : Cmd) (data : Bytes) : State :=
  match s.media.metaWrite data (max 1 ((data.length + unitBytes - 1) / unitBytes)) 0 with
  | some (qs, m) => (s.setMedia m).awaitPrograms c qs false
  | none => s.complete c .writeFault

end Sys2Proof.Machine
end

