-- ==== Sys2Proof/Machine/MediaCmds.lean ====
section
/-!
DEFINITION. What the media commands share: ranges and order (R65, R66, R561, R562), room and the state of the media, and their
meanings: READ, WRITE, DEALLOCATE, SECURE DEALLOCATE and FLUSH.
-/
namespace Sys2Proof.Machine

/-! ### Order between commands (R562) -/

/-- The blocks an outstanding media command covers, and whether it writes or deallocates them. -/
def State.mediaRange (s : State) (c : Cmd) : Option (Nat × Nat × Bool) :=
  if c.opc == 0x10 then some (c.slba, c.nlb, false)
  else if c.opc == 0x12 || c.opc == 0x13 then some (c.slba, c.nlb, true)
  else if c.opc == 0x11 then
    if c.ingest then (s.host.ingests.find? fun g => g.n == c.istream).map fun g => (g.slba, g.nblk, true) else some (c.slba, c.nlb, true)
  else none

/-- A command that has not taken effect yet. -/
def Cmd.untaken (c : Cmd) : Bool := c.wait == .data || c.wait == .ready

/-- R562: must a command wait for one fetched earlier that covers a common block, where either of them writes? -/
def State.mediaHeld (s : State) (c : Cmd) : Bool :=
  match s.mediaRange c with
  | none => false
  | some (a, n, w) => s.host.cmds.any fun d => d.order < c.order && d.untaken &&
      match s.mediaRange d with
      | some (b, k, v) => (w || v) && overlaps a n b k
      | none => false

/-- R62: the extents that a registration's data name: first block and blocks of each shard. -/
def regExtents (data : Bytes) : List (Nat × Nat) := (registered data).extents

/-- A register command: feature 0x30 (R61) or 0x24 (R615). -/
def Cmd.registers (c : Cmd) : Bool := c.opc == 0x04 && (c.fid == 0x30 || c.fid == 0x24)

/-- R63, R615: the local extents of an outstanding register command that passes its structure check. -/
def State.regRange (s : State) (c : Cmd) : List (Nat × Nat) :=
  let data := if c.fid == 0x24 then s.domainData c.data else c.data
  if (structureFail data (fun _ => false) [] (if c.fid == 0x24 then 2 ^ 64 - 1 else s.media.capacity)).isSome then []
  else (regExtents data).filter fun x => isLocal x.1

/-- R65, R66: a register command fetched before a media command has not got its data yet. -/
def State.registerUnknown (s : State) (c : Cmd) : Bool := s.host.cmds.any fun d => d.registers && d.wait == .data && d.order < c.order

/-- WRITE, DEALLOCATE and SECURE DEALLOCATE. -/
def Cmd.writesMedia (c : Cmd) : Bool := c.opc == 0x11 || c.opc == 0x12 || c.opc == 0x13

/-- R65, R312: does a range lie inside an extent of a dataset that is registered or registering, or of an open sink? A register command fetched later
than the media command does not count (R66). -/
def State.inExtent (s : State) (c : Cmd) (a n : Nat) : Bool :=
  (s.catalogue.any fun d => d.extents.any fun x => overlaps a n x.1 x.2) ||
  (s.sinks.any fun k => overlaps a n (sinkSlba k.image) (sinkNblk k.image)) ||
  s.host.cmds.any fun d => d.registers && d.wait != .data && d.order < c.order && (s.regRange d).any fun x => overlaps a n x.1 x.2

/-- R554, R561: a range that passes LogicalCapacity: the offset of the range's first field, SLBA. -/
def State.pastEnd (s : State) (c : Cmd) : Option Nat := if s.media.capacity < c.slba + c.nlb then some 20 else none

/-- R458: does a media command's own data exceed QpQuota? -/
def State.overQuota (s : State) (c : Cmd) : Bool := s.num 0x5820 0 * mib < c.dlen

/-! ### Waiting for the NAND -/

/-- R514, R515: a write that finds no room. -/
def State.noRoom (s : State) (c : Cmd) : State :=
  if s.media.anyReserve then s.complete c .mediaFull else s.enterReadonly.complete c .readOnly

/-- R466, R694: what the state of the media answers a media command, and whether it waits: a command that writes waits for the data of
a register command fetched before it, whose extents it must not enter (R65, R66). -/
def State.mediaCmd (s : State) (c : Cmd) (blank : Result) (f : State → State) : State :=
  if s.media.state == 5 || s.media.frozen || s.mediaHeld c || (c.writesMedia && s.registerUnknown c) then s
  else if s.media.state == 3 || s.media.state == 4 then s.complete c blank
  else f s

/-! ### READ -/

/-- R444, R447: a media command whose data pass through a read staging buffer, charged to its queue pair; without one it waits. -/
def State.staged (s : State) (c : Cmd) (f : State → State) : State :=
  let ref : BufRef := .window c.qid c.cid 16384
  match s.alloc .writeWindow ref (4096 * c.nlb) [ownerId 3 c.qid] with
  | (false, s) => s
  | (true, s) => (f s).freeRef fun b => b == ref

/-- R444, R458, R561, R485, R487, R496: READ. -/
def State.readMedia (s : State) (c : Cmd) : State :=
  s.mediaCmd c .readError fun s =>
    match s.pastEnd c with
    | some off => s.complete c (.capsuleField off)
    | none =>
      if s.overQuota c then s.complete c .quota
      else if s.media.lostIn (4096 * c.slba) (4096 * c.nlb) then s.complete c .readError
      else s.staged c fun s => (s.toHost c (s.media.readBytes (4096 * c.slba) (4096 * c.nlb))).complete c .ok

/-- READ. -/
def execRead (qid cid : Nat) (s : State) : Host.Outcome State Fault Refusal := s.atCmd qid cid 0x10 none fun c s => s.readMedia c

/-! ### WRITE -/

/-- R481: is a WRITE of `n` more bytes answered from the media write buffer? -/
def State.writeCached (s : State) (c : Cmd) (n : Nat) : Bool :=
  s.num 0x5005 0 == 1 && !c.fua && s.media.bufferedBytes + n ≤ 8589934592

/-- R458, R478, R481, R496, R514 to R516, R526, R771: WRITE. -/
def State.writeMedia (s : State) (c : Cmd) : State :=
  s.mediaCmd c .readOnly fun s =>
    match s.pastEnd c with
    | some off => s.complete c (.capsuleField off)
    | none =>
      if s.overQuota c then s.complete c .quota
      else if s.inExtent c c.slba c.nlb then s.complete c (.capsuleField 20)
      else if s.media.state == 2 then s.complete c .readOnly
      else if s.media.inSecure c.slba c.nlb then s
      else if s.media.partLost c.slba c.nlb then s.complete c .readError
      else if s.media.over c.slba c.nlb then s.noRoom c
      else match s.media.write c.slba c.nlb c.data with
        | none => s.noRoom c
        | some (seqs, m) =>
          let cached := s.writeCached c c.dlen
          let m := { m with hostBytes := m.hostBytes + c.dlen }
          (s.setMedia m).awaitPrograms c seqs cached

/-- WRITE. -/
def execWrite (qid cid : Nat) (s : State) : Host.Outcome State Fault Refusal :=
  s.atCmd qid cid 0x11 none fun c s => if c.ingest then s else s.writeMedia c

/-! ### DEALLOCATE, SECURE DEALLOCATE, FLUSH -/

/-- R493, R507, R526, R771: DEALLOCATE: it completes when its trim record and its rewritten units count as programmed. -/
def State.deallocateCmd (s : State) (c : Cmd) : State :=
  s.mediaCmd c .readOnly fun s =>
    match s.pastEnd c with
    | some off => s.complete c (.capsuleField off)
    | none =>
      if s.inExtent c c.slba c.nlb then s.complete c (.capsuleField 20)
      else if s.media.inSecure c.slba c.nlb then s
      else if s.media.partLost c.slba c.nlb then s.complete c .readError
      else match s.media.deallocate c.slba c.nlb with
        | none => s.noRoom c
        | some (seqs, m) => (s.setMedia m).awaitPrograms c seqs false

/-- DEALLOCATE. -/
def execDeallocate (qid cid : Nat) (s : State) : Host.Outcome State Fault Refusal := s.atCmd qid cid 0x12 none fun c s => s.deallocateCmd c

/-- R495 steps 3 and 4: every superblock that holds a copy of the range, current or stale, is closed and its other valid pages
are copied out; `from_` is the first SEQ that is newer than the trim. -/
def Media.secureMove (m : Media) (slba nlb from_ : Nat) : Media :=
  let units := (coverUnits slba nlb).map (·.1)
  let holds (x : Sblk) : Bool := x.use != .free && m.pages.any fun p =>
    p.loc.g == x.g && p.loc.k == x.k && (p.kind == 1 || p.kind == 2) && p.space == 0 && units.contains p.lmu && p.seq < from_
  let hit := (m.sblks.filter holds).map fun x => (x.g, x.k)
  let m := { m with sblks := updWhere (fun x => hit.contains (x.g, x.k)) (fun x => { x with moving := true, use := .full }) m.sblks }
  hit.foldl (fun (m : Media) (x : Nat × Nat) => m.copyOut x.1 x.2) m

/-- R495, R496, R771: SECURE DEALLOCATE. The superblocks that hold copies are closed first, so that what the trim rewrites lands
elsewhere. -/
def State.secureCmd (s : State) (c : Cmd) : State :=
  s.mediaCmd c .readOnly fun s =>
    match s.pastEnd c with
    | some off => s.complete c (.capsuleField off)
    | none =>
      if s.inExtent c c.slba c.nlb then s.complete c (.capsuleField 20)
      else if s.media.inSecure c.slba c.nlb then s
      else if s.media.partLost c.slba c.nlb then s.complete c .readError
      else
        let first := s.media.seq
        let units := (coverUnits c.slba c.nlb).map (·.1)
        let close (x : Sblk) : Bool := (match x.use with | .opened _ => true | _ => false) && s.media.pages.any fun p =>
          p.loc.g == x.g && p.loc.k == x.k && (p.kind == 1 || p.kind == 2) && p.space == 0 && units.contains p.lmu
        let m := { s.media with sblks := updWhere close (fun x => { x with use := .full }) s.media.sblks }
        match m.deallocate c.slba c.nlb with
        | none => s.noRoom c
        | some (_, m) =>
          let m := m.secureMove c.slba c.nlb first
          let m := { m with secure := m.secure ++ [(c.slba, c.nlb)] }
          (s.modCmd c.qid c.cid fun x => { x with wait := .erases }).setMedia m

/-- SECURE_DEALLOCATE. -/
def execSecureDeallocate (qid cid : Nat) (s : State) : Host.Outcome State Fault Refusal := s.atCmd qid cid 0x13 none fun c s => s.secureCmd c

/-- R482: FLUSH waits for the WRITEs that had completed from the media write buffer as it was fetched. -/
def State.flushCmd (s : State) (c : Cmd) : State :=
  s.mediaCmd c .readOnly fun s => s.awaitPrograms c c.seqs false

/-- FLUSH. -/
def execFlush (qid cid : Nat) (s : State) : Host.Outcome State Fault Refusal := s.atCmd qid cid 0x14 none fun c s => s.flushCmd c

end Sys2Proof.Machine
end

