-- ==== Sys2Proof/Machine/DomainOps.lean ====
section
/-!
DEFINITION. The job domain's operations ("Crews, managers and workers"): packets taken (R617 to R621), routes (R610), shard copies
(R616, R619), and the loss, expulsion and probation of workers (R623 to R628).
-/
namespace Sys2Proof.Machine

/-! ### Packets -/

/-- The oldest packet of a type in the inbox: its port of arrival, the packet, and the state without it. -/
def State.takeInbox (s : State) (ptype : Nat) : Option (Nat × Bytes × State) :=
  match s.domain.inbox.find? fun p => pktType (p.drop 1) == ptype with
  | none => none
  | some p => some (field p 0 1, p.drop 1, s.modDomain fun d => { d with inbox := d.inbox.erase p })

/-- A packet sent along an explicit route. -/
def State.sendRoute (s : State) (ptype vc dst : Nat) (route : List Nat) (tag : Nat) (body : Bytes) : State :=
  match route with
  | [] => s
  | port :: _ => s.sendOn port (packet ptype vc s.selfId dst route tag body) none false

/-! ### Routes (R609, R610) -/

/-- R609: the tag of a probe along a route, which its answer echoes (DESIGN CHOICE). -/
def probeTag (route : List Nat) : Nat := 2 ^ 31 + route.length * 2 ^ 24 + (route.zipIdx.map fun (p, i) => p * 64 ^ i).sum

/-- The route of a probe's tag. -/
def tagRoute (t : Nat) : List Nat := (List.range (t / 2 ^ 24 % 8)).map fun i => t / 64 ^ i % 64

/-- The links that the probe answers show: from a device's port to a device. Links of the manager's own ports that are down are left
out. -/
def State.links (s : State) : List (Bytes × Nat × Bytes) :=
  let node (r : List Nat) : Option Bytes :=
    if r.isEmpty then some s.fuses.serial else (s.domain.answers.find? fun a => a.2.1 == r).map (·.1)
  (s.domain.answers.filter fun a => 1 < a.2.1.length || s.portUp (a.2.1.headD 0) 1).filterMap fun a => (node a.2.1.dropLast).map fun n => (n, a.2.1.getLastD 0, a.1)

/-- R610: the width of a link, by device and port. -/
def State.linkLanes (s : State) (serial : Bytes) (port : Nat) : Nat :=
  if serial == s.fuses.serial then (match s.port port with | some p => p.width | none => 0) else Config.linkWidth serial port

/-- The routes of at most `n` links from one device to another, with the width of the narrowest link. -/
def State.paths (s : State) (links : List (Bytes × Nat × Bytes)) (goal : Bytes) : Nat → Bytes → List (List Nat × Nat)
  | 0, a => if a == goal then [([], 16)] else []
  | n + 1, a =>
    if a == goal then [([], 16)]
    else (links.filter fun l => l.1 == a).flatMap fun l =>
      (State.paths s links goal n l.2.2).map fun p => (l.2.1 :: p.1, min (s.linkLanes a l.2.1) p.2)

/-- Lexicographic order of port lists. -/
def portsBefore : List Nat → List Nat → Bool
  | [], ys => !ys.isEmpty
  | _ :: _, [] => false
  | x :: xs, y :: ys => x < y || (x == y && portsBefore xs ys)

/-- R610: is one route chosen before another? -/
def routeBefore (a b : List Nat × Nat) : Bool :=
  a.1.length < b.1.length || (a.1.length == b.1.length && (b.2 < a.2 || (a.2 == b.2 && portsBefore a.1 b.1)))

/-- R610: the route chosen between two devices; none when there is none of at most 4 links. -/
def State.bestRoute (s : State) (a b : Bytes) : Option (List Nat) :=
  let links := s.links
  ((s.paths links b 4 a).foldl (fun (best : Option (List Nat × Nat)) p => match best with
    | none => some p
    | some q => if routeBefore p q then some p else some q) none).map (·.1)

/-- Every device of the domain: id and serial. -/
def State.domainNodes (s : State) : List (Nat × Bytes) := (0, s.fuses.serial) :: s.workers.map fun m => (m.id, m.serial)

/-- R610: the routes of a device to all others. -/
def State.routesFrom (s : State) (serial : Bytes) : List (Nat × List Nat) :=
  (s.domainNodes.filter fun n => n.2 != serial).filterMap fun n => (s.bestRoute serial n.2).map fun r => (n.1, r)

/-- The operands of control 0x01: id, then the routes. -/
def routeOperands (id : Nat) (routes : List (Nat × List Nat)) : Bytes :=
  leBytes 2 id ++ leBytes 2 routes.length ++ routes.flatMap fun r =>
    leBytes 2 r.1 ++ [byteOf r.2.length] ++ leBytes 3 (r.2.zipIdx.map fun (p, i) => p * 64 ^ i).sum

/-- The routes that control 0x01 carries. -/
def routesOf (b : Bytes) : List (Nat × List Nat) :=
  (List.range (field b 2 2)).map fun i =>
    let e := slice b (4 + 6 * i) 6
    (field e 0 2, (List.range (field e 2 1)).map fun k => field e 3 3 / 64 ^ k % 64)

/-- R610: the manager computes every route and distributes them; `called` tells the id by which each member still goes. -/
def State.distributeTo (s : State) (called : Member → Nat) : State :=
  let s := s.modDomain fun d => { d with routes := s.routesFrom s.fuses.serial }
  s.workers.foldl (fun s m => match s.domain.routes.find? fun r => r.1 == m.id with
    | some r => s.sendRoute 0x05 0 (called m) r.2 0 (controlBody 0x01 0 (routeOperands m.id (s.routesFrom m.serial)))
    | none => s) s

/-- R610: the routes computed again and distributed. -/
def State.distribute (s : State) : State := s.distributeTo Member.id

/-! ### Shard copies (R616, R619, R624) -/

/-- A dataset that is in the catalogue. -/
def State.datasetOf (s : State) (n : Nat) : Option Dataset := s.catalogue.find? fun d => d.dset == n

/-- R619: bytes sent to a member as exchange data. -/
def State.sendExchange (s : State) (dset shard dst : Nat) (b : Bytes) : State :=
  let crew := if s.num 0x4020 0 == 1 then (s.crews.head?).map (·.num) else none
  (List.range (ceilDiv b.length 4080)).foldl (fun s k =>
    let head := leBytes 2 dset ++ leBytes 3 shard ++ zeros 3 ++ leBytes 8 (4080 * k)
    let plain := slice b (4080 * k) 4080
    match crew with
    | none => s.sendPacket 0x03 1 dst none 0 (head ++ plain)
    | some n =>
      let (x, bad) := compressBlock 1 plain
      let s := if bad then s.compressFault n 0 else s
      if x.length ≤ plain.length then s.sendPacket 0x03 (codedVc 1) dst none 0 (head ++ x) else s.sendPacket 0x03 1 dst none 0 (head ++ plain)) s

/-- R619: a shard of a dataset, held here, sent to a member. -/
def State.sendShardOf (s : State) (d : Dataset) (shard dst : Nat) : State :=
  match d.place.findIdx? fun p => p.1 == shard with
  | none => s
  | some i => match s.media.shard (d.place.getD i (0, 0)).2 0 (manSlen d.manifest i) with
    | none => s
    | some b => s.sendExchange d.dset shard dst b

/-- R619: a shard held here sent to a member as exchange data. -/
def State.sendShard (s : State) (dset shard dst : Nat) : State :=
  match s.datasetOf dset with
  | none => s
  | some d => s.sendShardOf d shard dst

/-- The operands of control 0x07: dataset, shard and holder to be. -/
def copyOperands (c : Copy) : Bytes := leBytes 2 c.dset ++ leBytes 3 c.shard ++ [0] ++ leBytes 2 c.dst

/-- R616, R621: a shard copy ordered, of its source. -/
def State.orderCopy (s : State) (c : Copy) : State :=
  let s := s.modDomain fun d => { d with copies := d.copies ++ [c] }
  if c.src == s.domain.deviceId then s.sendShard c.dset c.shard c.dst else s.control c.src 0x07 0 (copyOperands c)

/-- R616: free logical capacity of a member, blocks. -/
def State.freeOf (s : State) (id : Nat) : Nat :=
  if id == s.domain.deviceId then s.media.capacity - (s.media.map.length * 4) else Config.memberFree id

/-- The member of a list with the greatest value, the lower id on a tie. -/
def bestMember (value : Nat → Nat) (ids : List Nat) : Option Nat :=
  ids.foldl (fun (a : Option Nat) x => match a with
    | none => some x
    | some y => if value y < value x || (value y == value x && x < y) then some x else some y) none

/-- R616: a mirror for a shard set, away from the devices named. -/
def State.pickMirror (s : State) (away : List Nat) : Option Nat :=
  bestMember s.freeOf ((s.workers.map (·.id)).filter fun i => !away.contains i)

/-! ### Loss (R623 to R625) -/

/-- R630: RestoreProgress from the copies of a restoration. -/
def Domain.progress (d : Domain) : Domain :=
  let left := (d.copies.filter (·.restore)).length
  if left == 0 then { d with restore := 0xFFFF, restored := 0 } else { d with restore := d.restored * 1000 / (d.restored + left) }

/-- R625: shards lost: their datasets are entered and kind 0x41 is raised. -/
def State.loseShards (s : State) (l : List (Nat × Nat)) : State :=
  let fresh := l.filter fun x => !s.domain.lostShards.contains x
  let s := s.modDomain fun d => { d with lostShards := d.lostShards ++ fresh }
  ((fresh.map (·.1)).eraseDups).foldl (fun s d => s.raise { unit := 0x2C3, kind := 0x41, addr := d }) s

/-- The shards of a shard set. -/
def State.setShards (s : State) (dset set : Nat) : List Nat :=
  match s.datasetOf dset with
  | some d => ((d.place.map (·.1)).drop (64 * set)).take 64
  | none => []

/-- R624, R625: a shard set that loses a holder: its shards are copied again, or lost with the last copy. -/
def State.rehome (s : State) (lost : Nat) (p : Placement) : State :=
  let keep := if p.primary == lost then p.mirror else some p.primary
  let shards := (s.setShards p.dset p.set).filter fun n => !s.domain.lostShards.contains (p.dset, n)
  let put (f : Placement → Placement) (s : State) : State :=
    s.modDomain fun d => { d with placements := updWhere (fun x => x.dset == p.dset && x.set == p.set) f d.placements }
  match keep with
  | none => s.loseShards (shards.map fun n => (p.dset, n))
  | some k => match s.pickMirror [k] with
    | none => put (fun x => { x with primary := k, mirror := none }) s
    | some n =>
      let s := put (fun x => { x with primary := k, mirror := some n }) s
      shards.foldl (fun s x => s.orderCopy { dset := p.dset, shard := x, src := k, dst := n, restore := true }) s

/-- R623: every open domain job fails. -/
def State.failDomainJobs (s : State) (lost : Nat) : State :=
  let jobs := (s.crews.filterMap fun c => if c.job.isSome then c.domainJob else none).eraseDups
  let s := jobs.foldl (fun s j => s.controlAll 0x04 j (leBytes 2 lost)) s
  let crews := (s.crews.filter fun c => c.job.isSome && c.domainJob.isSome).map (·.num)
  let s := crews.foldl (fun s n => s.raise { unit := 0x2C3, kind := 0x40, crew := some n, addr := lost }) s
  s.modDomain fun d => { d with opened := [], claims := [] }

/-- R616: the table of a dataset's shard-set holders as the manager sends it: primary and mirror of each set (DESIGN CHOICE). -/
def placementTable (sets : Nat) (l : List Placement) : Bytes :=
  (List.range sets).flatMap fun n => match l.find? fun p => p.set == n with
    | some p => leBytes 2 p.primary ++ leBytes 2 (p.mirror.getD 0xFFFF) ++ zeros 4
    | none => leBytes 2 0xFFFF ++ leBytes 2 0xFFFF ++ zeros 4

/-- R62: the data that would register a dataset, with the member that holds each local shard in bytes 4 and 5 of its entry (R615). -/
def registrationData (d : Dataset) (dev : Nat) : Bytes :=
  d.mhash ++ leBytes 4 d.manifest.length ++ zeros 12 ++ d.manifest ++
    d.place.flatMap fun p => leBytes 3 p.1 ++ [0] ++ leBytes 2 dev ++ zeros 2 ++ leBytes 8 p.2

/-- The shard number that marks registration data and tables among exchange data (DESIGN CHOICE). -/
def tableShard : Nat := 0xFFFFFF

/-- R615, R616: a dataset's registration data and its table sent to every worker. -/
def State.sendTables (s : State) (dset sets : Nat) (data : Bytes) : State :=
  let t := placementTable sets (s.domain.placements.filter fun p => p.dset == dset)
  s.workers.foldl (fun s m => s.sendExchange dset tableShard m.id (data ++ t)) s

/-- R616: the tables of the datasets named, sent again after their holders changed. -/
def State.resendTables (s : State) (dsets : List Nat) : State :=
  dsets.foldl (fun s n => match s.datasetOf n with
    | some d => s.sendTables n (ceilDiv d.place.length 64) (registrationData d 0xFFF)
    | none => s) s

/-- R616: a domain registration whose copies are all whole ends: the dataset enters the catalogue. -/
def State.endDomainRegister (s : State) (c : Cmd) : State :=
  let d := registered (s.domainData c.data)
  if s.domain.copies.any fun x => x.dset == d.dset then s else s.writeRecord c (c.data.drop 64)

/-- R616: the domain registrations that wait for copies, looked at again. -/
def State.settleCopies (s : State) : State :=
  (s.host.cmds.filter fun c => c.opc == 0x04 && c.fid == 0x24 && c.wait == .copies).foldl State.endDomainRegister s

/-- R607, R623, R624: a worker is lost: it leaves the domain, jobs fail, routes avoid it and its shard sets find new holders. -/
def State.loseWorker (s : State) (id : Nat) : State :=
  match s.workers.find? fun m => m.id == id with
  | none => s
  | some m =>
    let s := s.failDomainJobs id
    let broken := s.domain.copies.filter fun c => c.src == id
    let s := s.modDomain fun d => { d with
      members := d.members.filter fun x => x.serial != m.serial,
      answers := d.answers.filter fun a => a.1 != m.serial,
      copies := d.copies.filter fun c => c.src != id && c.dst != id }
    let s := s.distribute
    let s := s.loseShards (broken.map fun c => (c.dset, c.shard))
    let mine := s.domain.placements.filter fun p => p.primary == id || p.mirror == some id
    (((mine.foldl (fun s p => s.rehome id p) s).resendTables (mine.map (·.dset)).eraseDups).modDomain Domain.progress).settleCopies

/-- R623, R629: the manager computes the routes again; a worker that none reaches is lost. -/
def State.reroute (s : State) : State :=
  if s.domain.role != 1 then s
  else
    let s := s.distribute
    (s.workers.filter fun m => (s.bestRoute s.fuses.serial m.serial).isNone).foldl (fun s m => s.loseWorker m.id) s

/-- R352, R353, R623: a running port retrains; one that is fenced by it takes its routes along. -/
def State.recoverPort (s : State) (n : Nat) (proto : Bool) : State :=
  let s := s.retrain n proto
  match s.port n with
  | some p => if p.state == 1 then s else s.recheckTimed.reroute
  | none => s

/-- R629: what the manager knows of the links behind one of its ports once another peer is on it: routes through the port are known
by another way to the device that stood there, if one is known. -/
def State.peerChanged (s : State) (n peer : Nat) : State :=
  if s.domain.role != 1 then s
  else
    let old := (s.domain.answers.find? fun a => a.2.1 == [n]).map (·.1)
    let other := s.domain.answers.find? fun a => some a.1 == old && a.2.1.headD n != n
    let keep := s.domain.answers.filterMap fun a =>
      if a.2.1.headD 64 != n then some a
      else if a.2.1.length == 1 then none
      else other.map fun o => (a.1, o.2.1 ++ a.2.1.drop 1, a.2.2)
    let here := (s.workers.filter fun m => m.id == peer).map fun m => (m.serial, [n], 256 * peer)
    (s.modDomain fun d => { d with answers := keep ++ here }).reroute

/-! ### Expulsion and probation (R626 to R628) -/

/-- Events within the last 600 s of local uptime. -/
def State.last600 (s : State) (l : List Nat) : List Nat := l.filter fun t => s.since t < 600000000

/-- R626: a worker is expelled, and is then lost. -/
def State.expel (s : State) (id : Nat) : State :=
  let s := s.control id 0x05 0 (leBytes 2 id)
  let s := s.modDomain fun d => { d with expulsions := (d.expulsions + 1) % 4294967296, expelTimes := s.last600 d.expelTimes ++ [s.uptime] }
  s.loseWorker id

/-- R626 to R628: worker id becomes suspect: it is expelled when the budget allows, else put on probation, and more than 4 suspects within
600 s raise kind 0x06. -/
def State.suspect (s : State) (id : Nat) : State :=
  let s := s.modDomain fun d => { d with suspects := (d.suspects.filter fun x => x.1 != id && s.since x.2 < 600000000) ++ [(id, s.uptime)] }
  let n := s.domain.suspects.length
  let s := if 4 < n then s.raise { unit := 0x2C6, kind := 0x06, addr := n } else s
  let budget := s.num 0x2015 0 * ceilDiv s.workers.length 64
  if (s.last600 s.domain.expelTimes).length < budget then s.expel id
  else
    let s := s.modDomain fun d => { d with members := updWhere (fun m => m.id == id) (fun m => { m with probation := true, seen := s.uptime }) d.members }
    s.controlAll 0x06 0 (leBytes 2 id ++ [1])

end Sys2Proof.Machine
end

