-- ==== Sys2Proof/Machine/JobOps.lean ====
section
/-!
DEFINITION. Opening and ending a crew's job ("The storage and job command set", "The epoch permutation"): the open block's ranges
(R100, R422, R566, R567), delivery targets (R381, R382), resume tokens (R112 to R116), quotas (R458) and the claims of a domain
job (R612 to R614).
-/
namespace Sys2Proof.Machine

/-! ### The turn of a job command (R565) -/

/-- R565: is it the command's turn: has every job command of the crew fetched earlier, outstanding REQUEST BATCHES apart, completed? -/
def State.jobTurn (s : State) (c : Cmd) : Bool :=
  !s.host.cmds.any fun x => isJobOpc x.opc && x.crew == c.crew && x.order < c.order && !(x.opc == 0x22 && x.wait == .batches)

/-- A ready job command in its turn, with its crew; one whose crew is gone completes with Invalid field at CREW. -/
def State.jobCmd (s : State) (c : Cmd) (states : List Nat) (f : Crew → State) : State :=
  if !s.jobTurn c then s
  else match s.crew c.crew with
    | none => s.complete c (.capsuleField 4)
    | some k => if states.contains k.state then f k else s.complete c (.sequence (some k.num))

/-! ### Quotas (R458) -/

/-- R445, R446: bytes of the buffers that hold a request. -/
def requestSize (bytes : Nat) : Nat :=
  if bytes ≤ chainSize then poolSize (fitPool bytes)
  else bytes / chainSize * chainSize + if bytes % chainSize == 0 then 0 else poolSize (fitPool (bytes % chainSize))

/-- R458: buffers of given sizes placed in turn against a crew's quotas, beside what the crew is charged now. -/
def placeSizes (hbmLeft lpLeft : Nat) : List Nat → Bool
  | [] => true
  | n :: ns =>
    if n ≤ hbmLeft then placeSizes (hbmLeft - n) lpLeft ns
    else if n ≤ lpLeft then placeSizes hbmLeft (lpLeft - n) ns
    else false

/-- R458: do the crew's quotas hold the reserve of R261 and the working buffers of one position? -/
def State.quotaHolds (s : State) (crew : Nat) (rc : Recipe) (b nrank : Nat) : Bool :=
  let left (t : Nat) : Nat := (s.quota (.crew crew) t).getD 0 - s.charge (.crew crew) (some t)
  placeSizes (left 0) (left 1) (List.replicate (2 * nrank) (requestSize (regionBytes rc b)) ++ [requestSize rc.rowBytes])

/-! ### Delivery targets (R381, R382) -/

/-- Target i of an open block's data. -/
def openTarget (b : Bytes) (i : Nat) : Bytes := slice b (128 + 32 * i) 32

/-- R381, R382: the byte offset of the first offending field of a target. Over CXL, LQPN and RKEY must be 0 (15_cxl.md). -/
def State.targetBad (s : State) (t : Bytes) (region : Nat) : Option Nat :=
  if field t 0 1 != 1 then some 0
  else if tgtCxl t && tgtLqpn t != 0 then some 4
  else if !tgtCxl t && !(match s.rp (tgtLqpn t) with | some p => !p.responder | none => false) then some 4
  else if tgtStride t < region then some 16
  else if tgtNreg t == 0 then some 24
  else if tgtCxl t && field t 28 4 != 0 then some 28
  else none

/-! ### The open block (R100, R422, R566, R567) -/

/-- The first failing check of a list, by its byte offset. -/
def firstOff (l : List (Bool × Nat)) : Option Nat := (l.find? fun x => !x.1).map (·.2)

/-- R568 step 1, the block's own fields: the byte offset of the first out of range. -/
def openBlockBad (b : Bytes) (n : Nat) (seq domain : Bool) : Option Nat :=
  let m := jobM b
  let rows := jobB b
  firstOff [
    (field b 0 1 == 1, 0),
    (jobMode b ≤ 2 && !(jobMode b == 2 && seq), 1),
    (within 1 (if domain then 65536 else 4096) m && m ≤ n, 4),
    (m != 0 && m ≤ rows && rows ≤ 16777216 && rows % m == 0 && rows / m ≤ 65536, 8),
    (domain || jobFirst b == 0, 12),
    (within 1 4096 (jobNrank b) && jobFirst b + jobNrank b ≤ m && (domain || jobNrank b == m), 16),
    (jobE0 b ≤ jobElast b, 20),
    (if jobMode b == 2 then within 1 65535 (jobRating b) else jobRating b == 0, 28),
    (if jobMode b == 2 then within 100 10000000 (jobLb b) else jobLb b == 0, 32)]

/-- Bytes that the open block's own fields call for (R566). -/
def openLen (b : Bytes) : Nat := 128 + 32 * jobNrank b + if jobResume b then 64 * jobNrank b else 0

/-- R568 step 1: the first offending field: the block's own fields, the bytes they call for (R566), the targets. -/
def State.openBad (s : State) (b : Bytes) (rc : Recipe) (domain : Bool) : Option Result :=
  if b.length < 128 then some (.capsuleField 16)
  else match openBlockBad b (manNrec rc.man) rc.seq domain with
    | some off => some (.dataField off)
    | none =>
      if b.length < openLen b then some (.capsuleField 16)
      else
        let region := regionBytes rc (jobB b / jobM b)
        (List.range (jobNrank b)).findSome? fun i =>
          (s.targetBad (openTarget b i) region).map fun off => .dataField (128 + 32 * i + off)

/-! ### Resume tokens (R112, R114) -/

/-- Token i of an open block's data. -/
def openToken (b : Bytes) (i : Nat) : Bytes := slice b (128 + 32 * jobNrank b + 64 * i) 64
/-- EPOCH. -/
def tokEpoch (t : Bytes) : Nat := field t 4 4
/-- FPRINT. -/
def tokFprint (t : Bytes) : Bytes := slice t 8 16
/-- RANK. -/
def tokRank (t : Bytes) : Nat := field t 24 2
/-- HEAT. -/
def tokHeat (t : Bytes) : Nat := field t 32 8
/-- ROWOFF. -/
def tokRow (t : Bytes) : Nat := field t 40 4
/-- BATCH. -/
def tokBatch (t : Bytes) : Nat := field t 48 8

/-- The stages of a sample run to their end, units included, without a trace of what they find. -/
def State.runWhole (s : State) (r : Run) : Nat → Context → Context ⊕ Drop
  | 0, c => .inl c
  | fuel + 1, c => match runStages r 33 c with
    | .inr d => .inr d
    | .inl c =>
      if c.capStage.isSome then .inr .capped
      else if c.st == .waitUnit then match (stageUnit s r c (rcpStage r.rc.image c.stage)).2 with
        | .inl c => State.runWhole s r fuel c
        | .inr d => .inr d
      else .inl c

/-- R114 step 7: tokens that a position contributes, from attempt `tries` on; `fuel` is at least the attempts left. -/
def State.tokensAt (s : State) (r : Run) (rank epoch pos : Nat) : Nat → Nat → Nat
  | 0, _ => 0
  | fuel + 1, tries =>
    let sid := r.job.sidAt epoch pos tries
    if !(s.preparers r.job sid).isEmpty then Config.remoteTokens sid epoch pos
    else
      let c : Context := { num := 0, st := .run, crew := r.crew.num, rank := rank, epoch := epoch, pos := pos, tries := tries, sid := sid,
                           origSid := r.job.sidAt epoch pos 0 }
      match stageFetch r c (readRecord s.media (r.job.slbaOf sid) (sid % 2 ^ 24)) with
      | .inr _ => State.tokensAt s r rank epoch pos fuel (tries + 1)
      | .inl c => match s.runWhole r 33 c with
        | .inr _ => State.tokensAt s r rank epoch pos fuel (tries + 1)
        | .inl c => match c.out with | some (.toks l) => l.length | _ => 0

/-- R114 step 7: the row count of a heat. -/
def State.heatRows (s : State) (r : Run) (rank epoch heat : Nat) : Nat :=
  let j := r.job
  if r.rc.seq then
    let d := rcpPack r.rc.image
    (packCounts (stRowlen d) (stSplit d) ((List.range (j.heatLen heat)).map fun i =>
      (i, s.tokensAt r rank epoch ((heat * j.h + i) * j.m + rank) 33 0))).length
  else j.heatLen heat

/-- R114: does every token pass? Each step is judged over every token before the next. -/
def State.tokensGood (s : State) (r : Run) (toks : List Bytes) : Bool :=
  let j := r.job
  let fp := fingerprint j.settings
  toks.all (fun t => field t 0 1 == 1) &&
  toks.all (fun t => field t 60 4 == crc32c (t.take 60)) &&
  toks.all (fun t => tokFprint t == fp) &&
  (toks.all (fun t => tokRank t < j.m) && (j.ranks.all fun k => (toks.filter fun t => tokRank t == k.rank).length == 1)) &&
  toks.all (fun t => within (jobE0 j.block) (jobElast j.block) (tokEpoch t)) &&
  toks.all (fun t => tokHeat t < j.heatCount) &&
  toks.all (fun t => tokRow t < s.heatRows r (tokRank t) (tokEpoch t) (tokHeat t)) &&
  (r.rc.seq || toks.all fun t => j.b * tokBatch t == j.row (tokEpoch t) (tokHeat t * j.h + tokRow t))

/-- R115, R116: a rank's record as its token starts it. -/
def RankJob.resumeAt (k : RankJob) (j : Job) (seq : Bool) (t : Bytes) : RankJob :=
  let whole := seq || j.mode != 0
  let q := tokHeat t * j.h + if whole then 0 else tokRow t
  { k with epoch := tokEpoch t, q := q, next := tokBatch t, granted := tokBatch t, dealt := j.row (tokEpoch t) q,
           base := tokBatch t * j.b, skip := if seq then tokRow t else 0,
           resumed := if j.mode == 0 then none else some (tokEpoch t, tokHeat t) }

/-! ### Domain jobs (R612 to R614) -/

/-- R611: does the crew lead its domain job, as the manager's crew of the job's number? -/
def State.leads (s : State) (k : Crew) : Bool := s.domain.role == 1 && k.domainJob == some k.num

/-- What the manager announces of an opened job (R612, R621 0x02): kind, seed, fingerprint, settings block, E0 and ELAST. The layout is
the model's (DESIGN CHOICE). -/
def announce (j : Job) : Bytes :=
  zeros 8 ++ leBytes 16 j.seed ++ fingerprint j.settings ++ fitTo 256 j.settings ++ leBytes 4 (jobE0 j.block) ++ leBytes 4 (jobElast j.block)

/-- The announced settings block. -/
def annSettings (a : Bytes) : Bytes := slice a 16 256
/-- The announced E0. -/
def annE0 (a : Bytes) : Nat := field a 272 4
/-- The announced ELAST. -/
def annElast (a : Bytes) : Nat := field a 276 4

/-- The announcement of a domain job that the device holds: seed, and what follows it. -/
def State.announced (s : State) (job : Nat) : Option (Nat × Bytes) :=
  (s.domain.opened.find? fun o => o.1 == job).map (·.2)

/-- R614: RES0 of a refusal: the device id of the first failing member and the reason. -/
def refusal (id reason : Nat) : Result := .admission (id + reason * 4096)

/-- R612, R614: the reason that a member's open fails its domain checks. -/
def State.memberFail (s : State) (b : Bytes) (rc : Recipe) (a : Bytes) : Option Nat :=
  let st := annSettings a
  if field st 16 8 != s.fwVersion || field st 2 1 != 1 then some 1
  else if jobSeed b != 0 || jobM b != field st 4 4 || jobB b != field st 8 4 || jobMode b != field st 1 1 || jobE0 b != annE0 a ||
    jobElast b != annElast a then some 2
  else if slice st 40 48 != rc.hash then some 5
  else if s.domain.lostShards.any fun x => x.1 == rcpDset rc.image then some 6
  else none

/-! ### Opening (R568) -/

/-- The job of an open block, before its tokens. -/
def State.jobOf (s : State) (c : Cmd) (k : Crew) (rc : Recipe) (ann : Option (Nat × Bytes)) : Job :=
  let b := c.data
  let own := settingsBlock (jobMode b) 1 (jobM b) (jobB b) s.fwVersion (jobSeed b) rc.hash (slice rc.image 32 48) (s.emap k.eights)
  let settings := match ann with | some (_, a) => annSettings a | none => own
  { block := b.take 128, qid := c.qid, settings := settings, seed := match ann with | some (x, _) => x | none => jobSeed b,
    h := 32 * field settings 12 4, manifest := rc.man, place := rc.place, lookahead := s.num 0x2420 0, crabFactor := s.num 0x2421 0,
    credits := s.num 0x2428 0, queue := s.num 0x4014 (k.num + 1), domainJob := k.domainJob, dealing := k.domainJob.isNone,
    admitted := jobMode b == 2, boundary := jobE0 b, exchange := s.num 0x4020 0,
    ranks := (List.range (jobNrank b)).map fun i =>
      { rank := jobFirst b + i, target := openTarget b i, epoch := jobE0 b, q := 0, dealt := 0, next := 0, granted := 0 } }

/-- R568: what an OPEN EPOCH comes to: a result other than Success, or the job with its ranks at their tokens; `ann` is the
announcement that a member of a domain job goes by. -/
def State.judgeOpen (s : State) (c : Cmd) (k : Crew) (rc : Recipe) (ann : Option (Nat × Bytes)) : (Result × Bool) ⊕ Job :=
  let b := c.data
  let domain := k.domainJob.isSome
  match s.openBad b rc domain with
    | some r => .inl (r, false)
    | none =>
      match (match ann with | some (_, a) => s.memberFail b rc a | none => none) with
      | some why => .inl (refusal s.domain.deviceId why, false)
      | none =>
        if domain && s.domain.lostShards.any (fun x => x.1 == rcpDset rc.image) then .inl (refusal s.domain.deviceId 6, false)
        else
          let j := s.jobOf c k rc ann
          let toks := if jobResume b then (List.range (jobNrank b)).map (openToken b) else []
          if jobResume b && !s.tokensGood ⟨k, rc, j⟩ toks then .inl (.token, false)
          else
            let j := { j with ranks := j.ranks.map fun x => match toks.find? fun t => tokRank t == x.rank with
              | some t => x.resumeAt j rc.seq t
              | none => x }
            if !s.quotaHolds k.num rc j.b j.ranks.length then .inl (.quota, false)
            else if j.mode == 2 && (s.timedFail k.num k.eights rc j).isSome then .inl (.admission, true)
            else .inr j

/-- R261: the reserve of two batch buffers of each rank is drawn. -/
def State.drawReserve (s : State) (r : Run) : State :=
  r.job.ranks.foldl (fun s k => [0, 1].foldl (fun (s : State) i =>
    (s.alloc .batch (.reserve r.crew.num k.rank i) r.batchBytes [ownerId 1 r.crew.num]).2) s) s

/-- R568: the crew enters OPEN with a job. -/
def State.openWith (s : State) (c : Cmd) (k : Crew) (rc : Recipe) (j : Job) : State :=
  let s := s.modCrew k.num fun x =>
    { x with state := 2, job := some j, drained := [], fprint := none, crabCount := 0, capAborts := 0, concealed := 0, damageDrops := 0,
             padTokens := 0, truncated := 0, closed := 0, graphDrops := 0, tokTrunc := 0, choices := 0, timedMisses := 0 }
  let s := s.drawReserve ⟨k, rc, j⟩
  s.complete c (.ok (if rc.seq then 0xFFFFFFFF else j.usedRows / j.b))

/-- R613: is every rank of a domain job claimed? -/
def State.allClaimed (s : State) (job m : Nat) : Bool := ((s.domain.claims.filter fun x => x.job == job).map (·.count)).sum == m

/-- R613: dealing begins on every member once every rank is claimed. -/
def State.beginDealing (s : State) (job : Nat) : State :=
  match s.announced job with
  | none => s
  | some (seed, a) =>
    if s.domain.role == 1 && s.allClaimed job (field (annSettings a) 4 4) then
      let s := s.controlAll 0x03 job (leBytes 16 seed ++ leBytes 4 (annE0 a))
      { s with crews := s.crews.map fun k => if k.domainJob == some job then { k with job := k.job.map fun j => { j with dealing := true } } else k }
    else s

/-- R613: a claim entered by the manager, unless it takes a rank claimed already or one the job lacks. -/
def State.claim (s : State) (x : Claim) : Option State :=
  let m := match s.announced x.job with | some (_, a) => field (annSettings a) 4 4 | none => 0
  let taken := s.domain.claims.any fun y => y.job == x.job && overlaps x.first x.count y.first y.count
  if taken || m < x.first + x.count then none
  else some (s.modDomain fun d => { d with claims := d.claims ++ [x] })

/-- R424, R568: an OPEN EPOCH refused; a failing condition of R423 is logged. -/
def State.refuseOpen (s : State) (c : Cmd) (k : Crew) (rc : Recipe) (r : Result × Bool) : State :=
  let s := if r.2 then match s.timedFail k.num k.eights rc (s.jobOf c k rc none) with
    | some f => s.logAdmission k.num f
    | none => s else s
  s.complete c r.1

/-- R568, R612 to R614: OPEN EPOCH. A member of a domain job waits for the manager's announcement, then for its answer to the claim. -/
def State.openEpoch (s : State) (c : Cmd) (k : Crew) : State :=
  match k.recipe with
  | none => s.complete c (.sequence (some k.num))
  | some rc =>
    match k.domainJob with
    | none => match s.judgeOpen c k rc none with
      | .inl r => s.refuseOpen c k rc r
      | .inr j => s.openWith c k rc j
    | some job =>
      if s.leads k then match s.judgeOpen c k rc none with
        | .inl r => s.refuseOpen c k rc r
        | .inr j =>
          let s := s.openWith c k rc j
          let s := s.modDomain fun d =>
            { d with opened := (d.opened.filter fun o => o.1 != job) ++ [(job, j.seed, (announce j).drop 24)],
                     claims := d.claims.filter fun x => x.job != job }
          let s := s.controlAll 0x02 job (announce j)
          (s.claim { job := job, member := s.domain.deviceId, first := jobFirst j.block, count := jobNrank j.block }).getD s |>.beginDealing job
      else match s.announced job with
        | none =>
          if c.wait == .manager then s else
            match s.openBad c.data rc true with
            | some r => s.complete c r
            | none => s.modCmd c.qid c.cid fun x => { x with wait := .manager, since := s.uptime }
        | some ann => match s.judgeOpen c k rc (some ann) with
          | .inl r => s.refuseOpen c k rc r
          | .inr j =>
            let mine : Claim := { job := job, member := s.domain.deviceId, first := jobFirst j.block, count := jobNrank j.block }
            if s.domain.role == 1 then
              let s' := s.openWith c k rc j
              (s'.claim mine).elim (s.complete c (refusal s.domain.deviceId 3)) fun s => s.beginDealing job
            else
              let s := s.modCmd c.qid c.cid fun x => { x with wait := .manager, since := s.uptime }
              s.control 0 0x02 job ([1] ++ zeros 7 ++ leBytes 4 mine.first ++ leBytes 4 mine.count)

/-- R612: the crews of a domain job whose OPEN EPOCH waits for the manager. -/
def State.waitingOpens (s : State) (job : Nat) : List (Cmd × Crew) :=
  s.host.cmds.filterMap fun c =>
    if c.opc == 0x21 && c.wait == .manager then
      match s.crew c.crew with | some k => if k.domainJob == some job then some (c, k) else none | none => none
    else none

/-- R613, R614: the manager's answer to a member's claim. An announcement serves one opening of the device's crews. -/
def State.claimAnswered (s : State) (job reason id : Nat) : State :=
  match s.waitingOpens job, s.announced job with
  | (c, k) :: _, some ann => match k.recipe with
    | none => s
    | some rc =>
      if reason != 0 then s.complete c (refusal id reason)
      else match s.judgeOpen c k rc (some ann) with
        | .inl r => s.refuseOpen c k rc r
        | .inr j =>
          let s := if (s.waitingOpens job).length == 1 then s.modDomain fun d => { d with opened := d.opened.filter fun o => o.1 != job } else s
          s.openWith c k rc j
  | _, _ => s

/-! ### Ending (R571, R572) -/

/-- Has a transmission of the crew started and not finished? -/
def Job.sending (j : Job) : Bool := j.batches.any fun b => b.tx != .idle

/-- R112, R571: a crew's resume tokens written to the host: RES0 tells how many. -/
def State.writeTokens (s : State) (c : Cmd) (r : Run) : State := (s.toHost c r.tokens).complete c (.ok r.job.ranks.length)

/-- R572 steps 3 to 5: what a job leaves when it is closed. -/
def State.endJob (s : State) (r : Run) : State :=
  let n := r.crew.num
  let mine := (s.contexts.filter fun x => x.crew == n).map (·.num)
  let s := (s.host.cmds.filter fun x => x.opc == 0x22 && x.crew == n && x.wait == .batches).foldl
    (fun s x => s.complete x (.aborted (s.grantDelivered x))) s
  let s := (s.holdRetries n r.job).dropWrites n
  let s := { s with contexts := s.contexts.filter fun x => x.crew != n }
  let s := s.freeRef fun b => match b with | .setTable _ _ => false | b => BufRef.ofCrew n mine b
  let s := s.modCrew n fun k => { k with state := 1, job := none, fprint := none }
  let s := match r.crew.domainJob with
    | some j => if s.leads r.crew then s.modDomain fun d =>
        { d with opened := d.opened.filter (fun o => o.1 != j), claims := d.claims.filter fun x => x.job != j } else s
    | none => s
  s

end Sys2Proof.Machine
end

