-- ==== Sys2Proof/Machine/CatalogueRows.lean ====
section
/-!
DEFINITION. Meanings of the commands that change the catalogue and the text tables: Catalogue register and remove (R61 to R68, R158, R772),
vocabularies (R299 to R303) and grammars (R325).
-/
namespace Sys2Proof.Machine

/-- A feature that waits while the media are mounting (R694). -/
def State.whenMounted (s : State) (f : State → State) : State := if s.media.stateCode == 5 then s else f s

/-! ### The catalogue -/

/-- A catalogue command: feature 0x30 or 0x31. -/
def Cmd.isCatalogue (c : Cmd) : Bool := c.opc == 0x04 && (c.fid == 0x30 || c.fid == 0x31)

/-- R67: is it the command's turn among catalogue commands? -/
def State.catalogueTurn (s : State) (c : Cmd) : Bool := !s.host.cmds.any fun x => x.isCatalogue && x.order < c.order

/-- Blocks that the shards of registered datasets take. -/
def State.takenExtents (s : State) : List (Nat × Nat) := s.catalogue.flatMap Dataset.extents

/-- R66: media commands fetched before a registration that cover a block of its extents and have not completed. -/
def State.registrationHeld (s : State) (c : Cmd) : Bool :=
  s.host.cmds.any fun x => x.order < c.order && match s.mediaRange x with
    | some (a, n, _) => (regExtents c.data).any fun e => overlaps a n e.1 e.2
    | none => false

/-- R63, R65: the extents of datasets that other register commands are registering. -/
def State.registering (s : State) (c : Cmd) : List (Nat × Nat) :=
  (s.host.cmds.filter fun x => x.registers && (x.wait == .copies || x.wait == .programs) && !x.is c.qid c.cid).flatMap s.regRange

/-- R67: a dataset number registered or registering. -/
def State.numberTaken (s : State) (n : Nat) : Bool :=
  (s.dataset n).isSome || s.host.cmds.any fun x => x.registers && (x.wait == .copies || x.wait == .programs) &&
    manDset (slice x.data 64 (field x.data 48 4)) == n

/-- R62 to R67: feature 0x30, in its turn: with every check passed the catalogue entry, the placement and the manifest's copy are
written to the metadata space, and the dataset is usable when they are (`State.finish`). -/
def State.registerCmd (s : State) (c : Cmd) : State :=
  if !s.catalogueTurn c then s
  else s.whenMounted fun s =>
    match structureFail c.data s.numberTaken (s.takenExtents ++ s.registering c) s.media.capacity with
    | some f => s.registrationFailed c f
    | none =>
      if s.registrationHeld c then s
      else match registerFail s.media c.data with
        | some f => s.registrationFailed c f
        | none => s.writeRecord c (c.data.drop 64)

/-- CATALOGUE_REGISTER. -/
def execCatalogueRegister (qid cid : Nat) (s : State) : Host.Outcome State Fault Refusal :=
  s.atCmd qid cid 0x04 (some 0x30) fun c s => s.registerCmd c

/-- R61, R67, R68, R83, R158, R767: feature 0x31, in its turn: the removal is recorded in the metadata space and takes effect with its
record. -/
def State.removeDataset (s : State) (c : Cmd) : State :=
  if !s.catalogueTurn c then s
  else s.whenMounted fun s =>
    if (s.dataset c.fval).isNone then s.complete c (.capsuleField 24)
    else if s.host.cmds.any fun x => x.opc == 0x20 && x.wait == .tables && (imageDatasets x.data).contains c.fval then s
    else match s.datasetUser c.fval with
      | some k => s.complete c (.sequence (some k))
      | none => s.writeRecord c (leBytes 2 c.fval)

/-- CATALOGUE_REMOVE. -/
def execCatalogueRemove (qid cid : Nat) (s : State) : Host.Outcome State Fault Refusal :=
  s.atCmd qid cid 0x04 (some 0x31) fun c s => s.removeDataset c

/-! ### Vocabularies -/

/-- R299, R325: a vocabulary or grammar of this number is being written by an earlier load. -/
def State.loading (s : State) (fid n : Nat) : Bool :=
  s.host.cmds.any fun x => x.opc == 0x04 && x.fid == fid && x.wait == .programs && field x.data 0 1 == n

/-- R299, R302: feature 0x40: the vocabulary's buffer is drawn, its image is written to the metadata space, and it is loaded when that is
durable. -/
def State.loadVocab (s : State) (c : Cmd) : State :=
  s.whenMounted fun s =>
    let n := field c.data 0 1
    let img := c.data.drop 8
    if c.short 72 then s.complete c (.capsuleField 16)
    else if !within 1 16 n || s.vocabs.any (fun v => v.num == n) || s.loading 0x40 n then s.complete c (.dataField 0)
    else match vocBad img with
      | some off => s.complete c (.dataField (8 + off))
      | none => match s.drawVocab n img.length with
        | (false, s) => s
        | (true, s) => s.writeRecord c img

/-- VOCABULARY_LOAD. -/
def execVocabularyLoad (qid cid : Nat) (s : State) : Host.Outcome State Fault Refusal :=
  s.atCmd qid cid 0x04 (some 0x40) fun c s => s.loadVocab c

/-- R303, R767: feature 0x41. -/
def State.removeVocab (s : State) (c : Cmd) : State :=
  if !s.vocabs.any (fun v => v.num == c.fval) then s.complete c (.capsuleField 24)
  else match s.vocabUser c.fval with
    | some k => s.complete c (.sequence (some k))
    | none => s.writeRecord c (leBytes 1 c.fval)

/-- VOCABULARY_REMOVE. -/
def execVocabularyRemove (qid cid : Nat) (s : State) : Host.Outcome State Fault Refusal :=
  s.atCmd qid cid 0x04 (some 0x41) fun c s => s.removeVocab c

/-! ### Grammars -/

/-- R302, R325: feature 0x42. -/
def State.loadGrammar (s : State) (c : Cmd) : State :=
  s.whenMounted fun s =>
    let n := field c.data 0 1
    let img := c.data.drop 8
    if c.short 72 then s.complete c (.capsuleField 16)
    else if !within 1 64 n || s.grammars.any (fun v => v.num == n) || s.loading 0x42 n then s.complete c (.dataField 0)
    else match gramBad img with
      | some off => s.complete c (.dataField (8 + off))
      | none => match s.drawGrammar n img.length with
        | (false, s) => s
        | (true, s) => s.writeRecord c img

/-- GRAMMAR_LOAD. -/
def execGrammarLoad (qid cid : Nat) (s : State) : Host.Outcome State Fault Refusal :=
  s.atCmd qid cid 0x04 (some 0x42) fun c s => s.loadGrammar c

/-- R303, R325, R767: feature 0x43. Open sinks keep the grammar they opened with. -/
def State.removeGrammar (s : State) (c : Cmd) : State :=
  if !s.grammars.any (fun v => v.num == c.fval) then s.complete c (.capsuleField 24)
  else s.writeRecord c (leBytes 1 c.fval)

/-- GRAMMAR_REMOVE. -/
def execGrammarRemove (qid cid : Nat) (s : State) : Host.Outcome State Fault Refusal :=
  s.atCmd qid cid 0x04 (some 0x43) fun c s => s.removeGrammar c

end Sys2Proof.Machine
end

