-- ==== Sys2Proof/Machine/CrewRows.lean ====
section
/-!
DEFINITION. Meanings of the commands that form, dissolve and join crews (R599 to R602, R611, R767).
-/
namespace Sys2Proof.Machine

/-- R599: the eights of a mask. -/
def maskEights (mask : Nat) : List Nat := (List.range 64).filter fun e => mask / 2 ^ e % 2 == 1

/-- A crew added, in ascending number. -/
def State.addCrew (s : State) (k : Crew) : State :=
  { s with crews := (s.crews.filter fun x => x.num < k.num) ++ k :: s.crews.filter fun x => k.num < x.num }

/-- R599 to R601: feature 0x20. -/
def State.formCrew (s : State) (c : Cmd) : State :=
  let b := c.data
  let n := field b 0 1
  let count := field b 1 1
  let explicit := field b 2 1 % 2 == 1
  let mask := maskEights (field b 8 8)
  let free := s.freeEights
  if c.short 16 then s.complete c (.capsuleField 16)
  else if 63 < n || (s.crew n).isSome then s.complete c (.dataField 0)
  else if !within 1 64 count then s.complete c (.dataField 1)
  else if explicit && !(mask.length == count && mask.all free.contains) then s.complete c (.dataField 8)
  else if !explicit && field b 8 8 != 0 then s.complete c (.dataField 8)
  else if free.length < count then s.complete c .quota
  else
    let eights := if explicit then mask else ascending 64 (s.pickEights count [])
    (s.addCrew { num := n, state := 0, eights := eights }).complete c .ok

/-- CREW_FORM. -/
def execCrewForm (qid cid : Nat) (s : State) : Host.Outcome State Fault Refusal :=
  s.atCmd qid cid 0x04 (some 0x20) fun c s => s.formCrew c

/-- R602, R767: feature 0x21. -/
def State.dissolveCrew (s : State) (c : Cmd) : State :=
  let n := c.fval
  match s.crew n with
  | none => s.complete c (.capsuleField 24)
  | some k =>
    if k.state != 0 || s.sinks.any fun x => x.crew == n then s.complete c (.sequence (some n))
    else ({ s with crews := s.crews.filter fun x => x.num != n }).complete c .ok

/-- CREW_DISSOLVE. -/
def execCrewDissolve (qid cid : Nat) (s : State) : Host.Outcome State Fault Refusal :=
  s.atCmd qid cid 0x04 (some 0x21) fun c s => s.dissolveCrew c

/-- R611: feature 0x22. -/
def State.joinCrew (s : State) (c : Cmd) : State :=
  let n := c.fval % 256
  let j := c.fval / 256 % 256
  match s.crew n with
  | none => s.complete c (.capsuleField 24)
  | some k =>
    if k.state != 0 then s.complete c (.sequence (some n))
    else if 63 < j then s.complete c (.capsuleField 25)
    else if s.domain.role == 0 then s.complete c (.capsuleField 24)
    else (s.modCrew n fun x => { x with domainJob := some j }).complete c .ok

/-- CREW_JOIN. -/
def execCrewJoin (qid cid : Nat) (s : State) : Host.Outcome State Fault Refusal :=
  s.atCmd qid cid 0x04 (some 0x22) fun c s => s.joinCrew c

end Sys2Proof.Machine
end

