-- ==== Sys2Proof/Machine/PortTx.lean ====
section
/-!
DEFINITION. What leaves a port: flits (R355, R360 to R366), RoCEv2 frames and the sequence numbers they take (R384), and the scheduler's
choice (R394 to R400).
-/
namespace Sys2Proof.Machine

/-! ### Flits (R355) -/

/-- A flit: header, payload and CRC. -/
def flit (ver type vc seq ack cvc cred pbytes : Nat) (sop eop : Bool) (payload : Bytes) : Bytes :=
  let b := [byteOf ver, byteOf (type + 16 * vc)] ++ leBytes 2 seq ++ leBytes 2 ack ++ [byteOf cvc, byteOf cred, byteOf pbytes,
    byteOf (bit sop 0 + bit eop 1), 0, 0] ++ fitTo 240 payload
  b ++ leBytes 4 (crc32c b)

/-- VER. -/
def flitVer (f : Bytes) : Nat := field f 0 1
/-- TYPE. -/
def flitType (f : Bytes) : Nat := bits f 11 8
/-- VC. -/
def flitVc (f : Bytes) : Nat := bits f 13 12
/-- SEQ. -/
def flitSeq (f : Bytes) : Nat := field f 2 2
/-- ACK. -/
def flitAck (f : Bytes) : Nat := field f 4 2
/-- CVC. -/
def flitCvc (f : Bytes) : Nat := bits f 49 48
/-- CRED. -/
def flitCred (f : Bytes) : Nat := field f 7 1
/-- PBYTES. -/
def flitPbytes (f : Bytes) : Nat := field f 8 1
/-- SOP. -/
def flitSop (f : Bytes) : Bool := bits f 72 72 == 1
/-- EOP. -/
def flitEop (f : Bytes) : Bool := bits f 73 73 == 1
/-- The payload in use. -/
def flitData (f : Bytes) : Bytes := slice f 12 (flitPbytes f)
/-- R355: is a flit whole, its CRC good? -/
def flitCrcOk (f : Bytes) : Bool := f.length == 256 && field f 252 4 == crc32c (f.take 252)

/-- A stored flit with the acknowledgement of the moment. -/
def flitWithAck (f : Bytes) (ack : Nat) : Bytes :=
  let b := f.take 4 ++ leBytes 2 ack ++ slice f 6 246
  b ++ leBytes 4 (crc32c b)

/-- A stored flit sent again after a retrain: the acknowledgement of the moment, and no credit, since credits do not survive (R368). -/
def flitAfresh (f : Bytes) (ack : Nat) : Bytes :=
  let b := f.take 4 ++ leBytes 2 ack ++ [0, 0] ++ slice f 8 244
  b ++ leBytes 4 (crc32c b)

/-- R366: the receive buffers announced, in flits. -/
def rxSizes : List Nat := [64, 1024, 1536, 64]

/-- R366: the channel whose credits a flit returns, and how many. -/
def Link.credit (l : Link) : Nat × Nat :=
  match (List.range 4).find? fun v => 0 < l.owed.getD v 0 with
  | some v => (v, min 255 (l.owed.getD v 0))
  | none => (0, 0)

/-- The acknowledgements and credits that a flit carries have departed. -/
def Link.departed (l : Link) (c : Nat × Nat) : Link :=
  { l with ackOwed := 0, owed := l.owed.set c.1 (l.owed.getD c.1 0 - c.2) }

/-- A link changed. -/
def State.modLink (s : State) (port : Nat) (f : Link → Link) : State := s.modPort port fun p => { p with link := f p.link }

/-- R360, R365: one data flit of a packet sent on a port. -/
def State.sendFlit (s : State) (port vc : Nat) (sop eop : Bool) (payload : Bytes) : State :=
  match s.port port with
  | none => s
  | some p =>
    let l := p.link
    let c := l.credit
    let f := flit l.ver 1 vc l.txSeq l.expect c.1 c.2 payload.length sop eop payload
    let s := s.modLink port fun l =>
      { l.departed c with txSeq := (l.txSeq + 1) % 65536, unacked := l.unacked ++ [f], replays := l.replays ++ [0],
                          credits := l.credits.set vc (l.credits.getD vc 0 - 1) }
    s.send (.flit port f)

/-- R369: a packet sent as consecutive flits of its channel. -/
def State.sendFlits (s : State) (port : Nat) (b : Bytes) : State :=
  let n := pktFlits b
  (List.range n).foldl (fun s i => s.sendFlit port (pktVc b) (i == 0) (i + 1 == n) (slice b (240 * i) 240)) s

/-- R355: an idle or NAK flit, with the acknowledgement and credits of the moment. -/
def State.sendControlFlit (s : State) (port type : Nat) : State :=
  match s.port port with
  | none => s
  | some p =>
    let c := if type == 2 then p.link.credit else (0, 0)
    let f := flit p.link.ver type 0 0 p.link.expect c.1 c.2 0 false false []
    (s.modLink port fun l => if type == 2 then l.departed c else { l with ackOwed := 0 }).send (.flit port f)

/-- R362 to R364: the unacknowledged flits sent again in sequence, one replay more for each; a flit replayed 16 times retrains the port
(R363). Flits that a retrain left to be replayed wait for their credits (R368). -/
def State.replay (s : State) (port : Nat) : State :=
  match s.port port with
  | none => s
  | some p =>
    let k := p.link.unacked.length - p.link.resend
    if k == 0 then s
    else if (p.link.replays.take k).any (16 ≤ ·) then s.recoverPort port false
    else
      let s := s.modPort port fun p =>
        { p with linkReplays := (p.linkReplays + 1) % 4294967296,
                 link := { p.link with replays := ((p.link.replays.take k).map (· + 1)) ++ p.link.replays.drop k } }
      s.sendAll ((p.link.unacked.take k).map fun f => .flit port (flitWithAck f p.link.expect))

/-- R365, R368: of the flits that a retrain left to be replayed, the first that the credits allow, in sequence. -/
def replayRun : List Bytes → Link → List Bytes × Link
  | [], l => ([], l)
  | f :: fs, l =>
    let vc := flitVc f
    if l.credits.getD vc 0 == 0 then ([], l)
    else
      let x := replayRun fs { l with credits := l.credits.set vc (l.credits.getD vc 0 - 1), resend := l.resend - 1 }
      (f :: x.1, x.2)

/-- R368: the replay that a retrain calls for goes on as far as the credits allow. -/
def State.replayOn (s : State) (port : Nat) : State :=
  match s.port port with
  | none => s
  | some p =>
    let x := replayRun (p.link.unacked.drop (p.link.unacked.length - p.link.resend)) p.link
    (s.modLink port fun _ => x.2).sendAll (x.1.map fun f => .flit port (flitAfresh f p.link.expect))

/-- R361: an acknowledgement taken: flits below it leave the replay buffer. -/
def Link.takeAck (l : Link) (ack : Nat) : Link :=
  match l.unacked with
  | [] => l
  | f :: _ =>
    let n := (ack + 65536 - flitSeq f) % 65536
    if 0 < n && n ≤ l.unacked.length then
      { l with unacked := l.unacked.drop n, replays := l.replays.drop n, resend := min l.resend (l.unacked.length - n) }
    else l

/-! ### RoCEv2 frames -/

/-- R399: frame bytes of a RoCEv2 packet with `ext` bytes of headers after the BTH and `n` of payload. -/
def roceLen (p : RocePair) (ext n : Nat) : Nat :=
  14 + 4 + (if bits p.ctx 15 15 == 1 then 40 else 20) + 8 + 12 + ext + ceilDiv n 4 * 4 + 4 + 4

/-- R377 PMTU in bytes. -/
def RocePair.pmtu (p : RocePair) : Nat := 1024 * 2 ^ bits p.ctx 17 16
/-- R377 PRIO. -/
def RocePair.prio (p : RocePair) : Nat := bits p.ctx 167 165
/-- R375, R377: the headers of a frame that a queue pair sends. -/
def State.roceFrame (s : State) (p : RocePair) : RoceFrame :=
  { port := p.port, dmac := slice p.ctx 24 6, vid := bits p.ctx 187 176, prio := p.prio, v6 := bits p.ctx 15 15 == 1,
    src := s.octs (0x41C0 + p.port) (bits p.ctx 189 188 + 1), dst := slice p.ctx 32 16, dscp := bits p.ctx 173 168,
    rqpn := field p.ctx 8 3 }

/-- R377 RETRY. -/
def RocePair.retryMax (p : RocePair) : Nat := bits p.ctx 154 152
/-- R377 RNRRETRY. -/
def RocePair.rnrMax (p : RocePair) : Nat := bits p.ctx 157 155

/-- R393: a queue pair's acknowledgement, NAK or CNP put into queue 0. -/
def State.queueReply (s : State) (p : RocePair) (o : Output) (ext : Nat) : State :=
  s.queueFrame p.port 0 { len := roceLen p ext 0, crew := none, prio := p.prio, body := .out o }

/-- Does a frame carry a packet that a queue pair sent before? -/
def Frame.resends (f : Frame) (lqpn : Nat) : Bool := match f.body with | .out (.rdma n _ _ _ _ _ _ _) => n == lqpn | _ => false

/-- Does a frame carry a WRITE packet of a queue pair that has not left yet? -/
def Frame.writes (f : Frame) (lqpn : Nat) : Bool := match f.body with | .write n _ _ _ _ _ _ _ _ _ => n == lqpn | _ => false

/-- The frames of a port's queues filtered. -/
def State.keepFrames (s : State) (port : Nat) (keep : Frame → Bool) : State :=
  s.modPort port fun p => { p with queues := p.queues.map fun q => q.keep keep }

/-- R375: the opcode of packet i of n of a message without immediate data. -/
def writeOp (i n : Nat) : RdmaOp :=
  if n == 1 then .writeOnly else if i == 0 then .writeFirst else if i + 1 == n then .writeLast else .writeMiddle

/-- The WRITE packets of a stretch of a batch image: messages of at most 1 MiB in packets of the path MTU. -/
def writeFrames (p : RocePair) (crew rank k addr rkey : Nat) (data : Bytes) (lastStretch : Bool) : List Frame :=
  let n := ceilDiv data.length 1048576
  (List.range n).flatMap fun m =>
    let msg := slice data (1048576 * m) 1048576
    let c := ceilDiv msg.length p.pmtu
    (List.range c).map fun i =>
      let b := slice msg (p.pmtu * i) p.pmtu
      { len := roceLen p (if i == 0 then 16 else 0) b.length, crew := some crew, prio := p.prio, batch := some (rank, k),
        body := .write p.lqpn rank k (writeOp i c) false (lastStretch && m + 1 == n && i + 1 == c)
          (addr + 1048576 * m + p.pmtu * i) rkey b none }

/-- R389: the line rate of a port in Ethernet mode, 25,000 MB/s a lane. -/
def State.lineRate (s : State) (port : Nat) : Nat := match s.port port with | some p => 25000 * p.width | none => 0

/-- R389: what Rq lets leave in a number of local uptime periods, in 1/32,768 byte. -/
def State.paceOf (s : State) (p : RocePair) (periods : Nat) : Nat :=
  (p.rate * ((s.lineRate p.port * 1000000 * periods : Nat) : Rat)).floor.toNat

/-- R389: a queue pair with its pacing counted up to now. What it did not use of earlier periods is lost (DESIGN CHOICE). -/
def State.pacedPair (s : State) (p : RocePair) : RocePair :=
  { p with pace := min (s.paceOf p 1) (p.pace + s.paceOf p (s.uptime - p.paced)), paced := s.uptime }

/-- R389: does Rq let a frame of so many bytes of a queue pair leave? At line rate the port itself paces. -/
def State.paceOk (s : State) (lqpn len : Nat) : Bool :=
  match s.rp lqpn with
  | some p => p.rate == 1 || len * 32768 ≤ (s.pacedPair p).pace
  | none => true

/-- R389: a frame of a queue pair has left. -/
def State.paceTake (s : State) (lqpn len : Nat) : State :=
  match s.rp lqpn with
  | some p => if p.rate == 1 then s else s.modRp lqpn fun p => { s.pacedPair p with pace := (s.pacedPair p).pace - len * 32768 }
  | none => s

/-- The queue pair whose rate paces a frame: that of a WRITE packet. -/
def Frame.pacedBy (f : Frame) : Option Nat :=
  match f.body with
  | .write n _ _ _ _ _ _ _ _ _ => some n
  | .out (.rdma n _ _ _ _ _ _ _) => some n
  | _ => none

/-- Frames put at the end of a crew's delivery queue. -/
def State.queueAll (s : State) (port crew : Nat) (l : List Frame) : State :=
  l.foldl (fun s f => s.queueFrame port (s.crewQueue crew) f) s

/-- R384: a WRITE packet leaves: it takes the next PSN, and its batch follows. -/
def State.sendWrite (s : State) (f : Frame) : State :=
  match f.body with
  | .write lqpn rank k op desc last addr rkey data imm => match s.rp lqpn with
    | none => s
    | some p =>
      let o : Output := .rdma lqpn p.psn op addr rkey data imm (s.roceFrame p)
      let s := s.modRp lqpn fun p => { p with psn := (p.psn + 1) % 16777216, flight := p.flight ++ [{ f with body := .out o }] }
      let s := match f.crew with
        | some c => s.modJob c fun j => j.modBatch rank k fun b =>
            { b with tx := if desc then .desc p.psn else if last then .rows p.psn else b.tx }
        | none => s
      s.send o
  | _ => s

/-! ### The scheduler (R394 to R399) -/

/-- A queue's ShaperRate, MB/s. -/
def State.shaperRate (s : State) (port q : Nat) : Nat := s.num (0x4140 + port) (q + 1)
/-- A queue's ShaperBurst, bytes. -/
def State.shaperBurst (s : State) (port q : Nat) : Nat := s.num (0x4180 + port) (q + 1)

/-- R397: a queue's bucket filled up to now, in 1/32,768 byte. -/
def State.fillBucket (s : State) (port q : Nat) (t : TxQueue) : TxQueue :=
  { t with bucket := min (s.shaperBurst port q * 32768) (t.bucket + s.shaperRate port q * 1000000 * (s.uptime - t.filled)), filled := s.uptime }

/-- R399: a frame's length now. -/
def State.frameLen (s : State) (port : Nat) (f : Frame) : Nat := f.len + s.overhead port

/-- R360, R365, R368, R387, R389, R397: may a head frame leave? -/
def State.eligible (s : State) (p : Port) (q : Nat) (t : TxQueue) (f : Frame) : Bool :=
  (s.shaperRate p.n q == 0 || s.frameLen p.n f * 32768 ≤ t.bucket) && match f.body with
    | .packet b => pktFlits b ≤ p.link.credits.getD (pktVc b) 0 && p.link.unacked.length + pktFlits b ≤ 512 && p.link.resend == 0
    | _ => !p.paused.contains f.prio && match f.pacedBy with | some n => s.paceOk n (s.frameLen p.n f) | none => true

/-- The head frame of a queue, when it is eligible. -/
def State.headOf (s : State) (p : Port) (q : Nat) : Option Frame :=
  let t := p.queues.getD q {}
  match t.frames with
  | f :: _ => if s.eligible p q t f then some f else none
  | [] => none

/-- R395: a port's round goes on to the next queue. -/
def Port.nextQueue (p : Port) : Port := { p with drr := if 63 ≤ p.drr then 4 else p.drr + 1, gained := false }

/-- R395, R396: the round of queues 4 to 63 followed until a frame may leave; `fuel` bounds the visits. -/
def State.drrPick (s : State) : Nat → Port → Port × Option (Nat × Frame)
  | 0, p => (p, none)
  | fuel + 1, p =>
    let q := p.drr
    match s.headOf p q with
    | none => State.drrPick s fuel p.nextQueue
    | some f =>
      let quantum := 256 * s.num (0x4100 + p.n) (q + 1)
      let t := p.queues.getD q {}
      let d := if p.gained then t.deficit else min (quantum + 16384) (t.deficit + quantum)
      let p := { p with gained := true, queues := p.queues.set q { t with deficit := d } }
      if s.frameLen p.n f ≤ d then (p, some (q, f)) else State.drrPick s fuel p.nextQueue

/-- R394 to R397: the frame that leaves next: its queue, and the port with the round advanced. -/
def State.pickFrame (s : State) (p : Port) : Port × Option (Nat × Frame) :=
  let p := { p with queues := p.queues.zipIdx.map fun (t, q) => s.fillBucket p.n q t }
  match (List.range 4).findSome? fun q => (s.headOf p q).map fun f => (q, f) with
  | some x => (p, some x)
  | none =>
    if (List.range 60).any fun i => (s.headOf p (4 + i)).isSome then s.drrPick 2400 p else (p, none)

/-- R395, R397: a frame taken from its queue. -/
def State.popFrame (s : State) (port q : Nat) (f : Frame) : State :=
  let n := s.frameLen port f
  let limited := s.shaperRate port q != 0
  s.modPort port fun p =>
    let t := p.queues.getD q {}
    let rest := t.frames.drop 1
    let t := { t with frames := rest, bucket := if limited then t.bucket - n * 32768 else t.bucket,
                      deficit := if q < 4 || rest.isEmpty then 0 else t.deficit - n }
    let p := { p with queues := p.queues.set q t }
    if 4 ≤ q && rest.isEmpty then p.nextQueue else p

/-- R393 to R400: the port sends its next eligible frame. -/
def State.transmit (s : State) (port : Nat) : State :=
  match s.port port with
  | none => s
  | some p =>
    if !(s.portUp port 1 || s.portUp port 2) then s
    else
      let (p, x) := s.pickFrame p
      let s := s.modPort port fun _ => p
      match x with
      | none => s
      | some (q, f) =>
        let n := s.frameLen port f
        let s := s.popFrame port q f
        let s := match f.pacedBy with | some l => s.paceTake l n | none => s
        match f.body with
        | .out o => s.send o
        | .packet b => s.sendFlits port b
        | .write _ _ _ _ _ _ _ _ _ _ => s.sendWrite f

end Sys2Proof.Machine
end

