-- ==== Sys2Proof/Machine/RoceRows.lean ====
section
/-!
DEFINITION. Meanings of the Ethernet side: RoCEv2 queue pairs set and removed (R377 to R380), delivery of batches (R234, R383 to R386,
R591, R592), congestion (R387 to R389), rollout SENDs (R390 to R392) and neighbour frames (R375).
-/
namespace Sys2Proof.Machine

/-! ### Queue pairs -/

/-- R377, R378, R554: the byte offset of the first field of a context out of range. -/
def State.rocePairBad (s : State) (b : Bytes) : Option Nat :=
  let port := bits b 13 8
  let responder := bits b 14 14 == 1
  let rate := field b 48 4
  firstOff [
    (field b 0 1 == 1, 0),
    (port ≤ 35 && s.portMode port == 2, 1),
    (bits b 17 16 ≤ 2, 2),
    (2 ≤ field b 4 3, 4),
    (1 ≤ bits b 164 160, 20),
    (bits b 187 176 ≤ 4094, 22),
    (s.octs (0x41C0 + port) (bits b 189 188 + 1) != zeros 16, 23),
    (!responder || rate == 0 || within 16 16384 (field b 52 3), 52)]

/-- The batches of every crew whose target names a queue pair changed. -/
def State.modBatchesOn (s : State) (lqpn : Nat) (f : Batch → Batch) : State :=
  { s with crews := s.crews.map fun k => { k with job := k.job.map fun j =>
      let mine := (j.ranks.filter fun r => !tgtCxl r.target && tgtLqpn r.target == lqpn).map (·.rank)
      { j with batches := updWhere (fun b => mine.contains b.rank) f j.batches } } }

/-- R378, R380: what a queue pair leaves when its context is replaced or it errs: its frames go, its batches are to be sent again whole,
and buffers that only retries held are freed. -/
def State.unsend (s : State) (p : RocePair) : State :=
  let s := s.keepFrames p.port fun f => !(f.writes p.lqpn || f.resends p.lqpn)
  let s := s.modBatchesOn p.lqpn fun b => { b with tx := .idle }
  let s := s.modRp p.lqpn fun p => { p with flight := [] }
  s.freeRef fun b => match b with | .retry q _ => q == p.lqpn | _ => false

/-- R377, R378: feature 0x50. -/
def State.setRocePair (s : State) (c : Cmd) : State :=
  let b := c.data.take 64
  let lqpn := field b 4 3
  if c.short 64 then s.complete c (.capsuleField 16)
  else match s.rocePairBad b with
    | some off => s.complete c (.dataField off)
    | none =>
      if (s.rp lqpn).isNone && 4096 ≤ s.roce.length then s.complete c .quota
      else
        let s := match s.rp lqpn with | some p => s.unsend p | none => s
        let spsn := field b 12 3
        let p : RocePair := { lqpn := lqpn, ctx := b, psn := spsn, expect := field b 16 3, acked := spsn,
                              bucket := field b 52 3 * 1024 * 32768, filled := s.uptime }
        ({ s with roce := (s.roce.filter fun x => x.lqpn != lqpn) ++ [p] } : State).complete c .ok

/-- QUEUE_PAIR_SET. -/
def execQueuePairSet (qid cid : Nat) (s : State) : Host.Outcome State Fault Refusal :=
  s.atCmd qid cid 0x04 (some 0x50) fun c s => s.setRocePair c

/-- R379: the crew that keeps a queue pair from being removed: the lowest with a job whose target names it, or the lowest that owns an
open sink, which any responder queue pair serves. -/
def State.rocePairUser (s : State) (p : RocePair) : Option Nat :=
  match s.lowestCrew fun k => match k.job with
    | some j => j.ranks.any fun r => !tgtCxl r.target && tgtLqpn r.target == p.lqpn
    | none => false with
  | some n => some n
  | none => if p.responder then argmin id (s.sinks.map Sink.crew) else none

/-- R377, R379, R767: feature 0x51. -/
def State.removeRocePair (s : State) (c : Cmd) : State :=
  if c.short 3 then s.complete c (.capsuleField 16)
  else match s.rp (field c.data 0 3) with
    | none => s.complete c (.dataField 0)
    | some p => match s.rocePairUser p with
      | some n => s.complete c (.sequence (some n))
      | none =>
        let s := s.unsend p
        ({ s with roce := s.roce.filter fun x => x.lqpn != p.lqpn } : State).complete c .ok

/-- QUEUE_PAIR_REMOVE. -/
def execQueuePairRemove (qid cid : Nat) (s : State) : Host.Outcome State Fault Refusal :=
  s.atCmd qid cid 0x04 (some 0x51) fun c s => s.removeRocePair c

/-! ### Delivery -/

/-- R234: the batch of a rank whose transmission may start: the earliest not sent, with every earlier one gone, closed and granted. -/
def Run.nextSend (r : Run) (k : RankJob) : Option Batch :=
  if r.crew.state != 3 || r.job.stopped then none
  else
    let mine := r.job.batches.filter fun b => b.rank == k.rank && k.next ≤ b.k
    let gone := (mine.filter fun b => match b.tx with | .desc _ => true | _ => false).length
    match r.job.batch k.rank (k.next + gone) with
    | some b => if b.tx == .idle && b.desc.isSome && b.k < k.granted && !b.rewrites.any (·.awaited) then some b else none
    | none => none

/-- R383: the address of batch k's region. -/
def regionAddr (t : Bytes) (k : Nat) : Nat := tgtBase t + k % max 1 (tgtNreg t) * tgtStride t

/-- R234, R383, R384: a batch starts transmission: over RDMA its rows and headers join the crew's transmit queue. -/
def State.startBatch (s : State) (crew rank : Nat) : State :=
  match s.run crew with
  | none => s
  | some r => match r.job.rank rank with
    | none => s
    | some k => match r.nextSend k with
      | none => s
      | some b =>
        let sending (s : State) : State := s.modJob crew fun j => j.modBatch rank b.k fun b => { b with tx := .sending }
        if tgtCxl k.target then sending s
        else match s.rp (tgtLqpn k.target) with
          | none => s
          | some p =>
            if p.err || p.responder then s
            else
              let img := batchImage b
              let rows := r.job.b * r.rc.rowBytes
              let at_ := regionAddr k.target b.k
              let heads := img.drop (rows + 128)
              (sending s).queueAll p.port crew
                (writeFrames p crew rank b.k at_ (tgtRkey k.target) (img.take rows) heads.isEmpty ++
                 writeFrames p crew rank b.k (at_ + rows + 128) (tgtRkey k.target) heads true)

/-- BATCH_TRANSMIT_START. -/
def execBatchTransmitStart (crew rank : Nat) (s : State) : Host.Outcome State Fault Refusal := .next (s.startBatch crew rank).settle

/-- R384: the descriptor of a batch joins the crew's transmit queue; immediate data is the batch index in network byte order. -/
def State.queueDesc (s : State) (p : RocePair) (crew : Nat) (k : RankJob) (rowBytes : Nat) (b : Batch) : State :=
  let desc := b.desc.getD []
  let imm := if tgtImm k.target then some (leBytes 4 (b.k % 4294967296)).reverse else none
  let op : RdmaOp := if imm.isSome then .writeOnlyImm else .writeOnly
  let f : Frame := { len := roceLen p (if imm.isSome then 20 else 16) 128, crew := some crew, prio := p.prio, batch := some (k.rank, b.k),
                     body := .write p.lqpn k.rank b.k op true true (regionAddr k.target b.k + rowBytes) (tgtRkey k.target) desc imm }
  (s.queueFrame p.port (s.crewQueue crew) f).modJob crew fun j => j.modBatch k.rank b.k fun b => { b with tx := .sendingDesc }

/-- Is a PSN acknowledged, when the next unacknowledged one is `acked`? -/
def psnAcked (acked psn : Nat) : Bool := (acked + 16777216 - psn - 1) % 16777216 < 8388608

/-- R384, R380: what an acknowledgement means for a batch: its descriptor follows its rows, or it counts as delivered. -/
def State.ackBatch (s : State) (lqpn crew rank bk : Nat) : State :=
  match s.rp lqpn, s.run crew with
  | some p, some r => match r.job.batch rank bk, r.job.rank rank with
    | some b, some k => match b.tx with
      | .rows psn => if psnAcked p.acked psn then s.queueDesc p crew k (r.job.b * r.rc.rowBytes) b else s
      | .desc psn => if psnAcked p.acked psn then s.delivered crew rank bk else s
      | _ => s
    | _, _ => s
  | _, _ => s

/-- R384, R385: packets up to a PSN are acknowledged. -/
def State.rdmaAck (s : State) (lqpn psn : Nat) : State :=
  match s.rp lqpn with
  | none => s
  | some p =>
    match p.flight.findIdx? fun f => match f.body with | .out (.rdma _ n _ _ _ _ _ _) => n == psn | _ => false with
    | none => s
    | some i =>
      let gone := p.flight.take (i + 1)
      let s := s.keepFrames p.port fun f => !gone.contains f
      let s := s.modRp lqpn fun p => { p with flight := p.flight.drop (i + 1), acked := (psn + 1) % 16777216, retries := 0, rnrRetries := 0 }
      let s := s.freeRef fun b => match b with | .retry q n => q == lqpn && psnAcked ((psn + 1) % 16777216) n | _ => false
      let sent := s.crews.flatMap fun c => match c.job with
        | some j => (j.batches.filter fun b => match j.rank b.rank with
            | some k => !tgtCxl k.target && tgtLqpn k.target == lqpn
            | none => false).map fun b => (c.num, b.rank, b.k)
        | none => []
      sent.foldl (fun s x => s.ackBatch lqpn x.1 x.2.1 x.2.2) s

/-- RDMA_ACK_RECEIVE. -/
def execRdmaAckReceive (lqpn psn : Nat) (s : State) : Host.Outcome State Fault Refusal := .next (s.rdmaAck lqpn psn).settle

/-- R380: a requester queue pair enters its error state. -/
def State.rocePairError (s : State) (p : RocePair) : State :=
  let s := (s.unsend p).modRp p.lqpn fun p => { p with err := true }
  s.raise { unit := portUnit p.port, kind := 0x25, addr := p.lqpn }

/-- R380: every unacknowledged packet is sent again before what waits behind it. -/
def State.resend (s : State) (p : RocePair) : State :=
  let s := s.keepFrames p.port fun f => !f.resends p.lqpn
  let crews := (p.flight.map fun f => f.crew.getD 0).eraseDups
  crews.foldl (fun (s : State) (c : Nat) =>
    let mine := p.flight.filter fun f => f.crew.getD 0 == c
    let q := s.crewQueue c
    s.modPort p.port fun x => { x with queues := x.queues.zipIdx.map fun (t, i) => if i == q then { t with frames := mine ++ t.frames } else t }) s

/-- R380: an acknowledgement timeout. -/
def State.transportTimeout (s : State) (lqpn : Nat) : State :=
  match s.rp lqpn with
  | none => s
  | some p =>
    if p.err || p.flight.isEmpty then s
    else if p.retryMax ≤ p.retries then s.rocePairError p
    else (s.modRp lqpn fun p => { p with retries := p.retries + 1 }).resend p

/-- TRANSPORT_TIMEOUT. -/
def execTransportTimeout (lqpn : Nat) (s : State) : Host.Outcome State Fault Refusal := .next (s.transportTimeout lqpn).settle

/-- R380: an RNR NAK. -/
def State.rnrNak (s : State) (lqpn : Nat) : State :=
  match s.rp lqpn with
  | none => s
  | some p =>
    if p.err || p.flight.isEmpty then s
    else if p.rnrMax != 7 && p.rnrMax ≤ p.rnrRetries then s.rocePairError p
    else (s.modRp lqpn fun p => { p with rnrRetries := p.rnrRetries + 1 }).resend p

/-- RNR_NAK_RECEIVE. -/
def execRnrNakReceive (lqpn : Nat) (s : State) : Host.Outcome State Fault Refusal := .next (s.rnrNak lqpn).settle

/-- R577, R591: bytes cut into writes of at most Max_Payload_Size. -/
def State.dmaWrites (s : State) (addr : Nat) (b : Bytes) (relaxed : Bool) : State :=
  let n := max 1 s.host.maxPayload
  (List.range (ceilDiv b.length n)).foldl (fun s i => s.send (.dmaWrite (addr + n * i) (slice b (n * i) n) relaxed)) s

/-- R591, R592: a batch written to host memory: rows and headers, the descriptor last, then the interrupt. -/
def State.cxlWrite (s : State) (crew rank : Nat) : State :=
  match s.run crew with
  | none => s
  | some r => match r.job.rank rank with
    | none => s
    | some k => match r.job.batches.find? fun b => b.rank == rank && b.tx == .sending with
      | none => s
      | some b =>
        if !tgtCxl k.target || s.host.flit == 0 then s
        else
          let img := batchImage b
          let rows := r.job.b * r.rc.rowBytes
          let at_ := regionAddr k.target b.k
          let s := s.dmaWrites at_ (img.take rows) s.host.relaxedOrdering
          let s := s.dmaWrites (at_ + rows + 128) (img.drop (rows + 128)) s.host.relaxedOrdering
          let s := s.dmaWrites (at_ + rows) (b.desc.getD []) false
          let s := if tgtImm k.target then match s.qp r.job.qid with | some q => s.signal q.vector | none => s else s
          s.delivered crew rank b.k

/-- CXL_BATCH_WRITE. -/
def execCxlBatchWrite (crew rank : Nat) (s : State) : Host.Outcome State Fault Refusal := .next (s.cxlWrite crew rank).settle

/-- HEAT_PACK_DONE. -/
def execHeatPackDone (crew rank epoch heat : Nat) (s : State) : Host.Outcome State Fault Refusal :=
  .next (s.packHeat crew rank epoch heat).settle

/-- DEADLINE_DECISION. -/
def execDeadlineDecision (crew rank batch : Nat) (s : State) : Host.Outcome State Fault Refusal :=
  .next (s.deadline crew rank batch).settle

/-! ### Congestion -/

/-- R388: has CnpInterval passed since the last CNP of a queue pair, at `us` of its port's counter? -/
def State.cnpDue (s : State) (p : RocePair) (us : Nat) : Bool :=
  match p.cnpSent with
  | none => true
  | some t => s.num 0x4012 0 ≤ us - t

/-- R388: a CE-marked packet at a responder queue pair. -/
def State.cePacket (s : State) (lqpn us : Nat) : State :=
  match s.rp lqpn with
  | none => s
  | some p =>
    if p.responder && s.cnpDue p us then
      (s.modRp lqpn fun p => { p with cnpSent := some us }).queueReply p (.cnp lqpn (s.roceFrame p)) 16
    else s

/-- CE_PACKET_RECEIVE. -/
def execCePacketReceive (lqpn : PairAt) (s : State) : Host.Outcome State Fault Refusal := .next (s.cePacket lqpn.lqpn lqpn.us).settle

/-- R389: 20 µs after a CNP that cut Rq have not passed. -/
def RocePair.cnpIgnored (p : RocePair) (us : Nat) : Bool := match p.cnpAt with | some t => us - t < 20 | none => false

/-- R389: a CNP at a requester queue pair, at `us` of its port's counter. -/
def State.cnp (s : State) (lqpn us : Nat) : State :=
  match s.rp lqpn with
  | none => s
  | some p =>
    if p.responder then s
    else
      let s := s.modPort p.port fun x => { x with cnpReceived := (x.cnpReceived + 1) % 4294967296 }
      if p.cnpIgnored us then s
      else s.modRp lqpn fun p => { s.pacedPair p with rate := max (p.rate * 7 / 8) (1 / 256), cnpAt := some us }

/-- CNP_RECEIVE. -/
def execCnpReceive (lqpn : PairAt) (s : State) : Host.Outcome State Fault Refusal := .next (s.cnp lqpn.lqpn lqpn.us).settle

/-- R389: 100 µs without a CNP. -/
def State.recoverRate (s : State) (lqpn : Nat) : State :=
  s.modRp lqpn fun p => if p.responder then p else { s.pacedPair p with rate := min 1 (p.rate + 1 / 32) }

/-- RATE_RECOVERY_TICK. -/
def execRateRecoveryTick (lqpn : Nat) (s : State) : Host.Outcome State Fault Refusal := .next (s.recoverRate lqpn).settle

/-- R387: a PFC frame. -/
def State.pfcFrame (s : State) (port : Nat) (pause release : List Nat) : State :=
  if !s.portUp port 2 then s
  else s.modPort port fun p =>
    { p with paused := (p.paused ++ (pause.filter fun x => x < 8 && !p.paused.contains x)).filter fun x => !release.contains x }

/-- PFC_PAUSE_RECEIVE. -/
def execPfcPauseReceive (port : Nat) (pause release : List Nat) (s : State) : Host.Outcome State Fault Refusal :=
  .next (s.pfcFrame port pause release).settle

/-- R387: the pause time of a priority has run out. -/
def State.pfcExpired (s : State) (port prio : Nat) : State := s.modPort port fun p => { p with paused := p.paused.filter fun x => x != prio }

/-- PFC_PAUSE_EXPIRY. -/
def execPfcPauseExpiry (port prio : Nat) (s : State) : Host.Outcome State Fault Refusal := .next (s.pfcExpired port prio).settle

/-! ### Rollout SENDs (R376, R390 to R392) -/

/-- R387: bytes in a port's ingress buffer. -/
def State.ingressBytes (s : State) (port : Nat) : Nat := ((s.ingress.filter fun x => x.1 == port).map fun x => x.2.length).sum

/-- R387: PFC pause sent above 75 % of the ingress buffer, and released below 50 %, on the priority that was paused. -/
def State.judgeIngress (s : State) (port : Nat) : State :=
  let n := s.ingressBytes port
  match s.ingressPaused.find? fun x => x.1 == port with
  | some (_, prio) =>
    if n < ingressSize / 2 then
      ({ s with ingressPaused := s.ingressPaused.filter fun x => x.1 != port }).send (.pfc port prio false)
    else s
  | none =>
    let prio := s.num 0x4013 0
    if ingressSize / 4 * 3 < n then ({ s with ingressPaused := s.ingressPaused ++ [(port, prio)] }).send (.pfc port prio true) else s

/-- R377 POLRATE, MB/s. -/
def RocePair.polRate (p : RocePair) : Nat := field p.ctx 48 4
/-- R377 POLBURST, KiB. -/
def RocePair.polBurst (p : RocePair) : Nat := field p.ctx 52 3

/-- R390: a responder's policing bucket filled up to now. -/
def State.filledPol (s : State) (p : RocePair) : RocePair :=
  { p with bucket := min ((p.polBurst * 1024 * 32768 : Nat) : Int) (p.bucket + ((p.polRate * 1000000 * (s.uptime - p.filled) : Nat) : Int)),
           filled := s.uptime }

/-- R390, R391: a frame's length taken from the bucket, down to −POLBURST KiB. -/
def RocePair.drain (p : RocePair) (len : Nat) : RocePair :=
  if p.polRate == 0 then p
  else { p with bucket := max (-((p.polBurst * 1024 * 32768 : Nat) : Int)) (p.bucket - ((len * 32768 : Nat) : Int)) }

/-- R375: a frame outside the supported items is discarded and counted. -/
def State.discardFrame (s : State) (port : Nat) : State := s.modPort port fun p => { p with discarded := p.discarded + 1 }

/-- R375: is a RoCEv2 frame within the supported items? -/
def roceGood (k : RocePacket) : Bool := k.frameLen ≤ 9216 && k.tags ≤ 1 && k.icrcOk

/-- R376, R390 to R392: a request packet at the responder queue pair it names. -/
def State.responderRequest (s : State) (k : RocePacket) (p : RocePair) : State :=
  let next := (p.expect + 1) % 16777216
  let p := s.filledPol p
  let s := s.modRp k.lqpn fun _ => p
  let fr := s.roceFrame p
  if 3 < k.opcode then (s.modRp k.lqpn fun p => { p with expect := next }).queueReply p (.roceNak k.lqpn k.psn false fr) 4
  else
    let starts := k.opcode == 0 || k.opcode == 3
    let policed := starts && p.polRate != 0 && p.bucket < ((k.frameLen * 32768 : Nat) : Int)
    if policed then
      (s.modPort p.port fun x => { x with policedSends := (x.policedSends + 1) % 4294967296 }).queueReply p (.roceNak k.lqpn k.psn true fr) 4
    else
      let s := s.modRp k.lqpn fun p => p.drain k.frameLen
      if starts && ingressSize ≤ s.ingressBytes p.port then s.queueReply p (.roceNak k.lqpn k.psn true fr) 4
      else
        let msg := (if starts then [] else p.message) ++ k.payload
        let ends := k.opcode == 2 || k.opcode == 3
        let s := s.modRp k.lqpn fun p => { p with expect := next, message := if ends then [] else msg }
        if ends then
          let s := s.queueReply p (.roceAck k.lqpn k.psn fr) 4
          ({ s.leavePs1 with ingress := s.ingress ++ [(p.port, msg)] } : State).judgeIngress p.port
        else s

/-- R375, R376, R390 to R392: a RoCEv2 request packet. Only a responder queue pair takes requests; a packet that is not the one expected
is dropped. -/
def State.roceRequest (s : State) (k : RocePacket) : State :=
  if !s.portUp k.port 2 then s
  else if !roceGood k then s.discardFrame k.port
  else match s.rp k.lqpn with
    | none => s.discardFrame k.port
    | some p =>
      if !p.responder || p.port != k.port then s.discardFrame k.port
      else if k.psn != p.expect then s
      else s.responderRequest k p

/-- ROCE_SEND_RECEIVE. -/
def execRoceSendReceive (p : RocePacket) (s : State) : Host.Outcome State Fault Refusal := .next (s.roceRequest p).settle

/-! ### Neighbours (R375) -/

/-- R375: is an address one of a port's own? -/
def State.ownAddress (s : State) (port : Nat) (a : Bytes) : Bool :=
  (List.range 4).any fun i => s.octs (0x41C0 + port) (i + 1) == a && a != zeros 16

/-- R375: a neighbour or echo frame answered; a frame outside the supported items is discarded and counted. -/
def State.neighbour (s : State) (port : Nat) (f : NeighbourFrame) : State :=
  if !s.portUp port 2 then s
  else match f with
    | .arp t => if s.ownAddress port t then s.send (.neighbourReply port t []) else s
    | .solicitation t => if s.ownAddress port t then s.send (.neighbourReply port t []) else s
    | .echo t _ data => if s.ownAddress port t then s.send (.neighbourReply port t data) else s
    | .unsupported => s.discardFrame port

/-- NEIGHBOUR_REQUEST_RECEIVE. -/
def execNeighbourRequestReceive (port : Nat) (frame : NeighbourFrame) (s : State) : Host.Outcome State Fault Refusal :=
  .next (s.neighbour port frame).settle

end Sys2Proof.Machine
end

