-- ==== Sys2Proof/Machine/RolloutRows.lean ====
section
/-!
DEFINITION. Meanings of the rollout return path: sinks opened, flushed and closed (R310 to R312, R332, R333), messages (R313 to R324), the
filter and write-back of finished streams (R327 to R331, R335), and the sinks' interrupts (R337).
-/
namespace Sys2Proof.Machine

/-! ### Opening a sink -/

/-- A power of two from 64 to 65,536. -/
def ringSizeOk (n : Nat) : Bool := (List.range 11).any fun i => n == 64 * 2 ^ i

/-- R311, R147: the index of the first instruction of a sink's program that a sink open refuses. -/
def sinkProgramBad (b : Bytes) : Option Nat :=
  let code := filterCode (sinkProg b) 0 (sinkPcount b)
  if code.isEmpty then none
  else match code.findIdx? fun i => i.op == 0x01 || i.op == 0x0F with
    | some i => some i
    | none => filterCheck none (within 64 74) code

/-- R311: the byte offset of the first field of a sink header out of range. -/
def State.sinkBad (s : State) (b : Bytes) : Option Nat :=
  let slba := sinkSlba b
  let nblk := sinkNblk b
  let free (a n : Nat) : Bool :=
    !(s.takenExtents.any fun x => overlaps a n x.1 x.2) &&
    !(s.sinks.any fun k => overlaps a n (sinkSlba k.image) (sinkNblk k.image))
  match firstOff [
    (field b 0 1 == 1, 0),
    (sinkNum b < 64 && (s.sink (sinkNum b)).isNone, 1),
    ((s.crew (sinkCrew b)).isSome, 2),
    (sinkDset b != 0 && (match s.dataset (sinkDset b) with | some d => d.kind == 4 | none => true) &&
      !(s.sinks.any fun k => sinkDset k.image == sinkDset b), 4),
    (s.vocabs.any fun v => v.num == sinkVocab b, 6),
    (sinkGrammar b == 0 || s.grammars.any fun v => v.num == sinkGrammar b, 7),
    (sinkNstop b ≤ 16, 8),
    (sinkNend b ≤ 4, 9),
    (sinkPcount b ≤ 256, 10),
    (sinkMsix b < 2048, 12),
    (slba < s.media.capacity && free slba nblk, 32),
    (322 ≤ nblk && slba + nblk ≤ s.media.capacity, 40),
    (sinkRing b % 64 == 0, 48),
    (ringSizeOk (sinkRent b), 56)] with
  | some off => some off
  | none => match (List.range (sinkNstop b)).find? fun i => !within 1 64 (field b (64 + i) 1) with
    | some i => some (64 + i)
    | none => (sinkProgramBad b).map fun i => if i < sinkPcount b then 1152 + 8 * i else 10

/-- R310 to R312: feature 0x44. -/
def State.openSink (s : State) (c : Cmd) : State :=
  let b := c.data
  if s.features / 2 % 2 == 0 then s.complete c .licence
  else if field b 0 1 != 1 && !c.short 1 then s.complete c (.dataField 0)
  else if c.short 1152 || c.short (1152 + 8 * sinkPcount b) then s.complete c (.capsuleField 16)
  else if (match s.crew (sinkCrew b) with | some k => k.state == 0 | none => false) then s.complete c (.sequence (some (sinkCrew b)))
  else match s.sinkBad b with
    | some off => s.complete c (.dataField off)
    | none =>
      let dset := sinkDset b
      let s := if (s.dataset dset).isSome then s else
        s.addDataset { dset := dset, kind := 4, manifest := rolloutManifest dset, mhash := [], gen := 0, place := [] }
      let top := match s.dataset dset with | some d => (d.place.map fun p => p.1 + 1).foldl max 0 | none => 0
      let gram := match s.grammars.find? fun v => v.num == sinkGrammar b with | some v => v.image | none => []
      let k : Sink := { num := sinkNum b, image := b, shard := top, base := sinkSlba b, mode := s.num 0x7020 0, grammar := gram }
      ({ s with sinks := s.sinks ++ [k], host := { s.host with watched := s.host.watched ++ [256 + k.num] } } : State).complete c .ok

/-- ROLLOUT_SINK_OPEN. -/
def execRolloutSinkOpen (qid cid : Nat) (s : State) : Host.Outcome State Fault Refusal :=
  s.atCmd qid cid 0x04 (some 0x44) fun c s => s.openSink c

/-- R332, R767: feature 0x45: the shard that was open as the flush was fetched is sealed, and the flush completes when it is. -/
def State.flushSink (s : State) (c : Cmd) : State :=
  match s.sink c.fval with
  | none => s.complete c (.capsuleField 24)
  | some k =>
    if s.media.frozen then s
    else
      let s := if k.shard == c.first then s.seal c.fval else s
      (s.modCmd c.qid c.cid fun x => { x with wait := .sealing }).settleSeals

/-- ROLLOUT_SINK_FLUSH. -/
def execRolloutSinkFlush (qid cid : Nat) (s : State) : Host.Outcome State Fault Refusal :=
  s.atCmd qid cid 0x04 (some 0x45) fun c s => s.flushSink c

/-- R333, R767: feature 0x46. -/
def State.closeSinkCmd (s : State) (c : Cmd) : State :=
  if (s.sink c.fval).isNone then s.complete c (.capsuleField 24)
  else if s.media.frozen then s
  else (s.modCmd c.qid c.cid fun x => { x with wait := .sealing }).closeSink c.fval

/-- ROLLOUT_SINK_CLOSE. -/
def execRolloutSinkClose (qid cid : Nat) (s : State) : Host.Outcome State Fault Refusal :=
  s.atCmd qid cid 0x04 (some 0x46) fun c s => s.closeSinkCmd c

/-! ### Messages (R313 to R324) -/

/-- R313 SINK. -/
def msgSink (b : Bytes) : Nat := field b 1 1
/-- R313 FIRST. -/
def msgFirst (b : Bytes) : Bool := bits b 16 16 == 1
/-- R313 LAST. -/
def msgLast (b : Bytes) : Bool := bits b 17 17 == 1
/-- R313 STREAM. -/
def msgStream (b : Bytes) : Nat := field b 4 4
/-- R313 PROMPT. -/
def msgPrompt (b : Bytes) : Nat := field b 8 8
/-- R313 SEQ. -/
def msgSeq (b : Bytes) : Nat := field b 16 4
/-- R313 NTOK. -/
def msgNtok (b : Bytes) : Nat := field b 20 2
/-- The token ids of a message. -/
def msgTokens (b : Bytes) : List Nat := (List.range (msgNtok b)).map fun i => field b (32 + 4 * i) 4

/-- The open stream of a message. -/
def State.stream (s : State) (sink num : Nat) : Option Stream :=
  s.streams.find? fun t => t.sink == sink && t.num == num && t.ended.isNone

/-- R314: the case by which a message is discarded, numbered from 0; one longer than R313 allows falls under the length's. -/
def State.messageBad (s : State) (b : Bytes) : Option Nat :=
  let here := (s.stream (msgSink b) (msgStream b)).isSome
  if field b 0 1 != 1 then some 0
  else if b.length != 32 + 4 * msgNtok b || 1016 < msgNtok b then some 1
  else if (match s.sink (msgSink b) with | some k => k.full || k.closing | none => true) then some 2
  else if msgFirst b && here then some 3
  else if !msgFirst b && !here then some 4
  else if msgFirst b && 16384 ≤ (s.streams.filter fun t => t.ended.isNone).length then some 5
  else none

/-- R316 to R324, R327: a message's tokens at its stream; a stream that ends has its verdict. -/
def Stream.message (t : Stream) (k : Sink) (voc b : Bytes) : Stream :=
  let t := { t with seq := msgSeq b }
  let t := Stream.takeTokens voc (sinkStops k.image) (sinkEnds k.image) t (msgTokens b)
  let t := if t.ended.isNone && msgLast b then { t.flush with ended := some 2 } else t
  if t.ended.isSome then { t with verdict := if k.grammar.isEmpty then 0 else gramVerdict k.grammar t.text } else t

/-- R313 to R315: a rollout message at the text unit. -/
def State.takeMessage (s : State) (b : Bytes) : State :=
  match s.messageBad b with
  | some why => s.sinkEvent (msgSink b) { kind := 0x05, stream := msgStream b, prompt := msgPrompt b, endr := why }
  | none => match s.sink (msgSink b) with
    | none => s
    | some k =>
      let voc := match s.vocabs.find? fun v => v.num == sinkVocab k.image with | some v => v.image | none => []
      match s.stream k.num (msgStream b) with
      | none =>
        let t : Stream := { sink := k.num, num := msgStream b, prompt := msgPrompt b, seq := 0 }
        { s with streams := s.streams ++ [t.message k voc b] }
      | some t =>
        if msgSeq b != (t.seq + 1) % 4294967296 then s.abortStream t
        else s.modStream k.num t.num fun t => t.message k voc b

/-- R339, R392: a message of the ingress buffers is passed to the text unit: the oldest of the stream whose turn it is, round-robin over
the streams that have messages waiting. -/
def State.nextMessage (s : State) : State :=
  let key (b : Bytes) : Nat := msgSink b * 4294967296 + msgStream b
  let keys := s.ingress.map fun x => key x.2
  let after := keys.filter fun n => s.textTurn ≤ n
  let turn := argmin id (if after.isEmpty then keys else after)
  match s.ingress.find? fun x => turn == some (key x.2) with
  | none => s
  | some (port, b) =>
    (({ s with ingress := s.ingress.erase (port, b), textTurn := key b + 1 } : State).takeMessage b).judgeIngress port

/-- ROLLOUT_MESSAGE. -/
def execRolloutMessage (s : State) : Host.Outcome State Fault Refusal := .next s.nextMessage.settle

/-! ### Filtering, write-back and interrupts -/

/-- R328: a context of the owning crew runs the filter on a stream that has ended. -/
def State.runRolloutFilter (s : State) (sink stream : Nat) : State :=
  match s.streams.find? fun t => t.sink == sink && t.num == stream && t.ended.isSome && !t.kept with
  | some t => State.filterStream false s t
  | none => s

/-- ROLLOUT_FILTER. -/
def execRolloutFilter (sink stream : Nat) (s : State) : Host.Outcome State Fault Refusal := .next (s.runRolloutFilter sink stream).settle

/-- R329 to R331, R335: the record of a sink's kept stream is appended, in the order in which streams finished filtering. -/
def State.recordWritten (s : State) (sink stream : Nat) : State :=
  match s.streams.find? fun t => t.sink == sink && t.kept with
  | some t => if t.num == stream && s.media.mounted && !s.media.frozen then s.takeKept t else s
  | none => s

/-- ROLLOUT_RECORD_WRITTEN. -/
def execRolloutRecordWritten (sink stream : Nat) (s : State) : Host.Outcome State Fault Refusal :=
  .next (s.recordWritten sink stream).settle

/-- R337: a sink, also one that has closed meanwhile, signals its vector for the events written since. -/
def State.interruptSink (s : State) (n : Nat) : State :=
  let due := s.host.sinkSignals.filter fun x => x.1 == n
  let s := { s with host := { s.host with sinkSignals := s.host.sinkSignals.filter fun x => x.1 != n } }
  let s := due.foldl (fun s x => s.signal x.2) s
  match s.sink n with
  | some k => if k.unsignalled then (s.modSink n fun k => { k with unsignalled := false }).signal (sinkMsix k.image) else s
  | none => s

/-- SINK_INTERRUPT. -/
def execSinkInterrupt (sink : Nat) (s : State) : Host.Outcome State Fault Refusal := .next (s.interruptSink sink).settle

end Sys2Proof.Machine
end

