-- ==== Sys2Proof/Machine/Startup.lean ====
section
/-!
DEFINITION. Meanings of the commands of start-up, recovery and mount (R465, R498, R691 to R708).
-/
namespace Sys2Proof.Machine

/-- The phase entered. -/
def State.toPhase (s : State) (p : Phase) : State := { s with startup := { s.startup with phase := p } }

/-- R706: the fuses' disabled-unit map loaded at step 3. -/
def State.loadFuses (s : State) : State :=
  { s with faults := { s.faults with disabledEngines := s.fuses.engines, disabledEights := s.fuses.eights } }

/-- R651, R691 step 5: what the NOR device keeps of health is restored, the map is formed, and the faults that the always-on
domain held are sent (R761). -/
def State.restore (s : State) : State :=
  let f := s.faults
  let s := { s with faults := { f with scores := f.savedScores, probation := f.savedProbation, fences := f.savedFences } }
  let s := s.formMap
  let pick := s.num 0x2010 0 == 1 || (s.num 0x2010 0 == 0 && s.pins.mgrSel)
  let s := if s.power.ps3Wake then s else { s with domain := { s.domain with selected := pick } }
  let s := s.startup.heldFaults.foldl (fun s u => s.raise { unit := u, kind := 0x63, addr := u }) s
  { s with startup := { s.startup with heldFaults := [] } }

/-- R691 step 6: every rail is on, and the CXL link, unless recovery left it up, and the ports begin to train; on a wake from PS3 a fenced
port stays so (R353). -/
def State.railsGood (s : State) : State :=
  let s := { s with pins := { s.pins with rails := { s.pins.rails with pd := [true, true, true, true], ed := [true, true], hbm := true,
                                                                       lpddr := true, nandIo := true } } }
  let up := s.host.width != 0
  let s := { s with host := { s.host with training := !up }, startup := { s.startup with cxlDone := up } }
  ((s.ports.filter fun p => p.state != 4 && s.portMode p.n != 0).map (·.n)).foldl State.trainPort s

/-- R498, R732, R734: mount begins; a hold taken at entry to a power state keeps it waiting, any other is released. The targets
start in SDR (R464). -/
def State.startMount (s : State) : State :=
  let hold := if s.pins.padHold == some .entry then s.pins.padHold else none
  { s with pins := { s.pins with padHold := hold },
           media := { s.media with state := 5, mountStep := 1, mountBegan := s.uptime, iface := .sdr } }

/-- R439, R702, R703: does the LPDDR5X in use hold a system region of so many GB? -/
def State.regionFits (s : State) (region : Nat) : Bool := region * gb ≤ (18 - s.mem.lpOut.length) * 64 * gb * 8 / 9

/-- R439 to R441, R691 step 8, R703: the pools are carved for the flash attached and mount begins, unless the system region finds no
room. -/
def State.poolsReady (s : State) (rawFlash : Nat) : State :=
  let region := systemRegionGb rawFlash
  let s := s.carve region s.power.ps3Wake
  if s.regionFits region then s.startMount else { s with media := { s.media with state := 4, mountStep := 0 } }

/-- R344: ports without the licence they need stay down with cause 4. -/
def State.downUnlicensed (s : State) : State :=
  ((s.ports.map (·.n)).filter s.unlicensed).foldl State.downUnlicensedPort s

/-- R691: the ready signal of a step; steps 7, 9 and 11 have commands of their own. -/
def State.stepReady (s : State) (n rawFlash : Nat) : State :=
  if s.startup.phase != .step n then s else
    match n with
    | 1 =>
      if s.pins.slowclk then
        ({ s with pins := { s.pins with rails := { s.pins.rails with converters := [true, true, true, true], hd := true } } }).toPhase (.step 2)
      else s
    | 2 => s.toPhase (.step 3)
    | 3 => s.loadFuses.toPhase (.step 4)
    | 4 => s.chooseSlot
    | 5 => s.restore.toPhase (.step 6)
    | 6 => s.railsGood.toPhase (.step 7)
    | 8 => (s.poolsReady rawFlash).toPhase (.step 9)
    | 10 => s.checkLicences.downUnlicensed.toPhase .finishing
    | _ => s

/-- STARTUP_STEP_READY. -/
def execStartupStepReady (step : StepReady) (s : State) : Host.Outcome State Fault Refusal :=
  .next (s.stepReady step.step step.rawFlash).settle

/-- R700, R701: interface `bit_` trained by its local state machine: TrainingFallbacks notes it when saved settings were asked
for. -/
def State.trainedBy (s : State) (bit_ : Nat) (fellBack : Bool) : State :=
  let u := s.startup
  let own := s.num 0x8003 0 == 1
  let fell := !own && (fellBack || u.savedSettings / 2 ^ bit_ % 2 == 0)
  { s with startup := { u with fallbacks := if fell then u.fallbacks ||| 2 ^ bit_ else u.fallbacks,
                               trainedLocal := if own || fell then u.trainedLocal ||| 2 ^ bit_ else u.trainedLocal } }

/-- R702, R708: a unit that fails training or self-test: its score goes to 1,023 and the threshold raises kind 0x04. -/
def State.failUnit (s : State) (u : UnitRef) (r : Raise) : State :=
  let old := s.faults.score u
  let s := { s with faults := (s.faults.setScore u 1023).save }
  if old < 512 then s.crossing.raise { r with kind := 0x04, addr := 1023 } else s

/-- R702, R703: DRAM training ends (step 7a). -/
def State.memoryTrained (s : State) (hbm lp : List Nat) (hbmBack lpBack : Bool) : State :=
  if s.startup.phase != .step 7 then s else
    let hbm := ascending 8 hbm
    let lp := ascending 18 lp
    let s := { s with mem := { s.mem with hbmOut := hbm, lpOut := lp } }
    let s := (s.trainedBy 0 hbmBack).trainedBy 1 lpBack
    let s := hbm.foldl (fun s n => s.failUnit (.other (0x240 + n)) { unit := 0x240 + n, kind := 0x04 }) s
    let s := lp.foldl (fun s n => s.failUnit (.other (0x250 + n)) { unit := 0x250 + n, kind := 0x04 }) s
    s.toPhase (.step 8)

/-- MEMORY_TRAINING_DONE. -/
def execMemoryTrainingDone (hbmFailed lpFailed : List Nat) (hbmFellBack lpFellBack : Bool) (s : State) :
    Host.Outcome State Fault Refusal := .next (s.memoryTrained hbmFailed lpFailed hbmFellBack lpFellBack).settle

/-- R578, R705: CXL training ends. -/
def State.cxlTrained (s : State) (speed width flit : Nat) (fellBack : Bool) : State :=
  if !s.host.training then s else
    let h := s.host
    let s := s.trainedBy 2 fellBack
    if width == 16 || width == 8 || width == 4 then
      let s := { s with host := { h with speed := speed, width := width, flit := flit, training := false },
                        startup := { s.startup with cxlDone := true } }
      s.recheckTimed
    else
      let h := { h with speed := 0, width := 0, flit := 0 }
      if width == 0 then { s with host := { h with training := false }, startup := { s.startup with cxlDone := true } }
      else if !h.narrowTried then { s with host := { h with narrowTried := true } }
      else
        let s := { s with host := { h with leftDown := true, training := false }, startup := { s.startup with cxlDone := true } }
        s.raise { unit := 0x2C0, kind := 0x26, addr := width }

/-- CXL_LINK_TRAINED. -/
def execCxlLinkTrained (speed width flit : Nat) (fellBack : Bool) (s : State) : Host.Outcome State Fault Refusal :=
  .next (s.cxlTrained speed width flit fellBack).settle

/-- R632: the logical eight that locates a report of a physical eight: the one it carries, else its die's first. -/
def State.reportEight (s : State) (phys : Nat) : Nat := (s.logicalEight phys).getD (16 * (phys / 17))

/-- R632: the report of a physical engine found by self-test. -/
def State.engineReport (s : State) (p : Nat) : Raise :=
  let e := s.reportEight (p / 9)
  let lane := if s.physEight e == p / 9 then ((s.lanes e).findIdx? fun l => l == p % 9).getD 0 else 0
  { unit := 8 * e + lane, kind := 0x04, phys := some p }

/-- R632: the report of an eight-shared unit found by self-test. -/
def State.unitReport (s : State) (p sub : Nat) : Raise :=
  { unit := 0x200 + s.reportEight p, sub := sub, kind := 0x04, phys := some p }

/-- R708, R709: self-test ends (step 9): failing units are fenced, and the map is formed from what is left. -/
def State.selfTested (s : State) (engines : List Nat) (units : List (Nat × Nat)) : State :=
  if s.startup.phase != .step 9 then s else
    let engines := ascending 612 engines
    let units := (units.filter fun u => u.1 < 68 && u.2 < 6).eraseDups
    let s := engines.foldl (fun s p => (s.failUnit (.engine p) (s.engineReport p)).fence (.engine p)) s
    let s := units.foldl (fun s u => (s.failUnit (.eightUnit u.1 u.2) (s.unitReport u.1 u.2)).fence (.eightUnit u.1 u.2)) s
    s.formMap.toPhase (.step 10)

/-- SELF_TEST_DONE. -/
def execSelfTestDone (engines : List Nat) (units : List (Nat × Nat)) (s : State) : Host.Outcome State Fault Refusal :=
  .next (s.selfTested engines units).settle

/-- R732 to R734: the NAND pads are released. -/
def State.releasePads (s : State) : State :=
  { s with pins := { s.pins with padHold := none, alertHeld := none },
           media := { s.media with state := s.media.heldState.getD s.media.state, heldState := none } }

/-- R733, R736: a wake from PS3 reaches PS0 with start-up complete. -/
def State.endPs3Wake (s : State) : State :=
  if !s.power.ps3Wake then s else
    let p := s.power
    let release := p.releasePending && s.pins.padHold == some .entry
    let s := { s with power := { p with state := if p.entry.isSome then 4 else 0, wakeCause := if p.entry.isSome then 0 else p.wakeCause,
                                        ps3Wake := false, lastWakeTime := s.since p.wokeAt, releasePending := false } }
    if release then s.releasePads else s

/-- R691 step 11, R697, R701: what start-up complete records: its time, the slot that came up and the settings trained here. -/
def State.noteStart (s : State) : State :=
  let u := s.startup
  { s with startup := { u with lastTime := s.since u.began, lastGood := u.running.getD u.lastGood, fromCommit := false,
                               savedSettings := u.savedSettings ||| u.trainedLocal } }

/-- R583: an AEN write held until start-up complete takes effect. -/
def State.heldAen (s : State) : State :=
  if s.startup.aenHeld then ({ s with startup := { s.startup with aenHeld := false } }).enableAdmin else s

/-- R350, R583, R691 step 11, R696, R698, R701: start-up completes. -/
def State.completeStart (s : State) : State :=
  if s.startup.phase != .finishing || !s.startup.cxlDone then s
  else (s.toPhase .complete).raiseCounter.noteStart.writeTopology.heldAen.endPs3Wake

/-- STARTUP_COMPLETE. -/
def execStartupComplete (s : State) : Host.Outcome State Fault Refusal := .next s.completeStart.settle

/-- R697: the watchdog runs from step 5 to start-up complete. -/
def State.watched (s : State) : Bool :=
  match s.startup.phase with
  | .step n => 5 ≤ n
  | .finishing => true
  | _ => false

/-- R697: the slot the next start takes when a start does not complete: after a commit the other slot, counted, else the same. -/
def Startup.fallBack (u : Startup) : Startup :=
  let slot := u.running.getD u.lastGood
  if u.fromCommit then { u with takeNext := some (1 - slot), fwFallbacks := (u.fwFallbacks + 1) % 4294967296 }
  else { u with takeNext := some slot }

/-- R697: start-up complete was not reached within 60 s. -/
def State.watchdog (s : State) : State :=
  if !s.watched then s
  else (({ s with startup := s.startup.fallBack } : State).deviceReset (if s.startup.fromCommit then 4 else 5)).tryStart

/-- STARTUP_WATCHDOG. -/
def execStartupWatchdog (s : State) : Host.Outcome State Fault Refusal := .next s.watchdog.settle

/-- R695: bytes of a firmware slot. -/
def slotBytes : Nat := 25165824

/-- R699: image bytes written to slot A in recovery. -/
def State.recoverWrite (s : State) (b : Bytes) : State :=
  let off := field b 0 4
  let data := b.drop 4
  if s.startup.phase == .recovery && 4 < b.length && off % 4096 == 0 && off + data.length ≤ slotBytes then
    s.setSlot 0 fun x => { image := overlay x.image off data, state := 1 }
  else s

/-- RECOVERY_DOWNLOAD. -/
def execRecoveryDownload (payload : Bytes) (s : State) : Host.Outcome State Fault Refusal := .next (s.recoverWrite payload).settle

/-- R699: the download ends: slot A starts when it verifies. -/
def State.recoverEnd (s : State) (b : Bytes) : State :=
  if s.startup.phase == .recovery && b.length == 4 then
    let v := s.judgeSlot 0
    if v == 3 then s.runSlot 0 false else s.failSlot 0 v
  else s

/-- RECOVERY_DOWNLOAD_END. -/
def execRecoveryDownloadEnd (payload : Bytes) (s : State) : Host.Outcome State Fault Refusal := .next (s.recoverEnd payload).settle

/-- R464, R498 step 1: the commands that identify and configure the targets of an accepted NAND, newest first. -/
def identifyOps (g : NandGeometry) : List (Nat × Nat × NandOp) :=
  g.channels.flatMap fun ch => (List.range g.ces).flatMap fun c =>
    [.zqCalibrationLong, .setFeatures, .readParameterPage, .readId, .reset].map fun o => (ch, c * g.lunsPerCe, o)

/-- R465, R466, R498: the first mount step ends: the NAND is identified, and its targets run NV-LPDDR4 (R464). -/
def State.mountIdentified (s : State) (g : NandGeometry) : State :=
  let m := s.media
  if !geomSupported g then { s with media := { m with state := 4, mountStep := 0 } }
  else if m.formatted && g != m.geom then s
  else
    let m := { m with geom := g, iface := .nvLpddr4, bus := identifyOps g ++ m.bus }
    let m := if m.formatted then { m with mountStep := 2 }
             else { m with state := 3, mountStep := 0, lastMount := s.since m.mountBegan }
    { s with media := m }

/-- R498 step 5, R506: mount ends: open stripes are completed, and superblocks whose erase was recorded but not done are erased. -/
def State.mountEnd (s : State) : State :=
  let m := s.media.mountLast
  let due := (m.sblks.filter (·.intent)).map fun x => (x.g, x.k)
  let m := (due.foldl (fun (m : Media) (x : Nat × Nat) => m.erased x.1 x.2) m).drain.settleRecords
  let m := { m with state := if m.formatting then 3 else if m.readonly then 2 else 0, mountStep := 0, lastMount := s.since m.mountBegan,
                    wpN := false }
  ({ s with media := m } : State).drawTexts

/-- R498, R732: a mount step ends: the maps are built from the segments' summaries, then from the tags of every other page, and
then trims are applied and unsealed shards discarded (R336). -/
def State.mountReady (s : State) (step : Nat) (g : NandGeometry) : State :=
  if s.media.mountStep != step || s.pins.padHold.isSome then s else
    match step with
    | 1 => s.mountIdentified g
    | 2 => { s with media := { s.media.buildMap s.media.summarized false with mountStep := 3 } }
    | 3 => { s with media := { s.media.buildMap (fun _ => true) false with mountStep := 4 } }
    | 4 => { s with media := { (s.media.buildMap (fun _ => true) true).dropUnsealed with mountStep := 5 } }
    | 5 => s.mountEnd
    | _ => s

/-- MOUNT_STEP_READY. -/
def execMountStepReady (step : Nat) (geom : NandGeometry) (s : State) : Host.Outcome State Fault Refusal :=
  .next (s.mountReady step geom).settle

end Sys2Proof.Machine
end

