-- ==== Sys2Proof/Machine/ObjReads.lean ====
section
/-!
DEFINITION. What each object of the dictionary reads as (R658 to R661, R664): read-only objects report the device as it stands, the
rest their written or default value.
-/
namespace Sys2Proof.Machine

/-! ### Records as the objects show them -/

/-- R631: the 16 bytes of a fault message. -/
def FaultMsg.encode (m : FaultMsg) : Bytes :=
  let lo := 1 + m.unit % 4096 * 2 ^ 8 + m.sub % 16 * 2 ^ 20 + m.kind % 256 * 2 ^ 24 + m.sev % 8 * 2 ^ 32 +
    (if m.ctx.isSome then 2 ^ 35 else 0) + m.phys % 4096 * 2 ^ 36 +
    (match m.crew with | some c => c % 64 * 2 ^ 48 + 2 ^ 54 | none => 0)
  leBytes 8 lo ++ leBytes 4 m.addr ++ leBytes 2 m.count ++ zeros 2

/-- R634: the 64 bytes of a queue entry. -/
def FaultEntry.encode (e : FaultEntry) : Bytes :=
  let (a, b) := e.msg.ctx.getD (0, 0)
  let head := e.msg.encode ++ leBytes 8 a ++ leBytes 8 b ++ leBytes 8 e.first ++ leBytes 8 e.last ++ leBytes 4 e.total ++ zeros 8
  head ++ leBytes 4 (crc32c head)

/-- R637: FaultQueue: the oldest entries, up to 16. -/
def State.faultQueueBytes (s : State) : Bytes := (s.faults.queue.take 16).flatMap FaultEntry.encode

/-- Bits as bytes, bit 0 of byte 0 first. -/
def packBits (n : Nat) (p : Nat → Bool) : Bytes :=
  (List.range n).map fun i => byteOf (((List.range 8).map fun b => if p (8 * i + b) then 2 ^ b else 0).sum)

/-- R630: is a physical eight disabled: fused off, replaced as a whole (R769), or with a disabled shared unit or router? -/
def State.eightOff (s : State) (p : Nat) : Bool :=
  s.faults.disabledEights.contains p || s.faults.eightFences.contains p || s.faults.fences.contains (.router p) ||
  (List.range 6).any fun u => s.faults.fences.contains (.eightUnit p u)

/-- R630: DisabledUnitMap, 96 bytes. -/
def State.disabledMap (s : State) : Bytes :=
  packBits 96 fun b => (b < 612 && s.engineOff b) || (640 ≤ b && b < 708 && s.eightOff (b - 640))

/-- R630: LogicalUnitMap, 64 entries of 16 bytes. -/
def State.logicalMap (s : State) : Bytes :=
  (List.range 64).flatMap fun e => match s.faults.lmap.getD e none with
    | some (p, l) => [byteOf p] ++ (List.range 8).map (fun i => byteOf (l.getD i 0xFF)) ++ zeros 7
    | none => List.replicate 9 0xFF ++ zeros 7

/-- R26: unused spare engines of a die: the further usable lanes of its usable eights. -/
def State.spareEngines (s : State) (die : Nat) : Nat :=
  (((List.range 17).map fun t => 17 * die + t).filter fun p =>
    s.eightUsable p && match s.logicalEight p with
      | some e => (s.spareLane e).isSome
      | none => 8 < (s.usableLanes p).length).length

/-- R26: unused spare eights of a die. -/
def State.spareEights (s : State) (die : Nat) : Nat :=
  (((List.range 17).map fun t => 17 * die + t).filter fun p => s.eightUsable p && (s.logicalEight p).isNone).length

/-- R657: scores as U16 values. -/
def State.scoresOf (s : State) (l : List UnitRef) : Bytes := l.flatMap fun u => leBytes 2 (s.faults.score u)

/-- R657 HealthOther: unit ids 0x240 to 0x6FF; an on-package network id shows the unit's own score. -/
def State.healthOther (s : State) : Bytes := s.scoresOf ((List.range 1216).map fun i => .other (0x240 + i))

/-- R630 DomainMembers: id, a hash of the serial, cause: 8 bytes a device. -/
def State.membersBytes (s : State) : Bytes :=
  s.domain.members.flatMap fun m => leBytes 2 m.id ++ leBytes 5 (Config.serialHash m.serial) ++ [byteOf m.cause]

/-- R630 DomainLostShards: 8 bytes a shard. -/
def State.lostShardBytes (s : State) : Bytes := s.domain.lostShards.flatMap fun x => leBytes 2 x.1 ++ leBytes 3 x.2 ++ zeros 3

/-- R685: AuditJournal sub-index n + 1: 128 slots of 128 bytes. -/
def State.journalBytes (s : State) (n : Nat) : Bytes :=
  (List.range 128).flatMap fun i => match s.dict.journal.find? fun e => e.1 == 128 * n + i with
    | some e => fitTo 128 e.2
    | none => zeros 128

/-- R409 JobFingerprint of a crew: zeros with no open job. -/
def State.jobFingerprint (s : State) (crew : Nat) : Bytes :=
  match (s.crew crew).bind (·.job) with | some j => fingerprint j.settings | none => zeros 16

/-- R412 CrewFingerprint of a crew: zeros with no open job. -/
def State.crewFingerprint (s : State) (crew : Nat) : Bytes :=
  match s.crew crew with
  | some k => match k.job with | some j => k.fprint.getD (fingerprint j.settings) | none => zeros 16
  | none => zeros 16

/-! ### Values by index -/

/-- A count of a formed crew. -/
def State.ofCrewNum (s : State) (crew : Nat) (f : Crew → Nat) : Nat := match s.crew crew with | some k => f k | none => 0

/-- A value of a crew's open job. -/
def State.ofJobNum (s : State) (crew : Nat) (f : Crew → Job → Nat) : Nat :=
  match s.crew crew with
  | some k => match k.job with | some j => f k j | none => 0
  | none => 0

/-- R340: a count of a sink, open or closed. -/
def State.ofSink (s : State) (n i : Nat) (f : Sink → Nat) : Nat :=
  match s.sink n with
  | some k => f k
  | none => match s.sinkTotals.find? fun t => t.1 == n with
    | some t => t.2.getD i 0
    | none => 0

/-- R297 ResidentBytes: bytes of the resident copies that a crew owns, the granules that are resident. -/
def State.residentBytes (s : State) (crew : Nat) : Nat :=
  let mine (x : Resident) : Bool := s.mem.bufs.any fun b => b.ref == .resident x.dset x.shard && b.owners.contains (ownerId 0 crew)
  ((s.residents.filter mine).map fun x => x.granules.length * 4096).sum

/-- Objects of the crews and their jobs (sub-index 0x01 + crew). -/
def State.crewNum (s : State) (idx c : Nat) : Option Nat :=
  match idx with
  | 0x2422 => some (s.ofCrewNum c (·.crabCount))
  | 0x2423 => some (s.ofCrewNum c (·.capAborts))
  | 0x2424 => some (s.contexts.filter fun x => x.crew == c).length
  | 0x2426 => some (s.ofCrewNum c (·.concealed))
  | 0x2427 => some (s.ofCrewNum c (·.damageDrops))
  | 0x2429 => some (s.ofCrewNum c (·.padTokens))
  | 0x242A => some (s.ofCrewNum c (·.truncated))
  | 0x242B => some (s.ofCrewNum c (·.closed))
  | 0x2431 => some (s.ofCrewNum c (·.graphDrops))
  | 0x2432 => some (s.residentBytes c)
  | 0x7001 => some (s.ofSink c 0 (·.written))
  | 0x7002 => some (s.ofSink c 1 (·.filtered))
  | 0x7003 => some (s.ofSink c 2 (·.aborted))
  | 0x7004 => some (s.ofSink c 3 (·.eventsLost))
  | 0x7006 => some (s.ofCrewNum c (·.tokTrunc))
  | 0x2402 => some (s.ofJobNum c fun _ j => field j.settings 1 1)
  | 0x2403 => some (s.ofJobNum c fun k _ => k.choices)
  | 0x2404 => some (s.ofJobNum c fun _ j => if j.admitted then 1 else 0)
  | 0x2405 => some (s.ofJobNum c fun k _ => k.timedMisses)
  | 0x2000 => some (s.ofCrewNum c fun k => (k.eights.map (2 ^ ·)).sum)
  | 0x2001 => some (s.jstate c)
  | 0x5812 => some (s.charge (.crew c) (some 0))
  | 0x5813 => some (s.charge (.crew c) (some 1))
  | 0x6012 => some (min 255 (s.fencesIn c))
  | _ => none

/-- Objects of the ports (sub-index 0x01 + port). -/
def State.portNum (s : State) (idx n : Nat) : Option Nat :=
  let of (f : Port → Nat) : Nat := match s.port n with | some p => f p | none => 0
  match idx with
  | 0x4002 => some (of (·.state))
  | 0x4003 => some (of (·.width))
  | 0x4004 => some 0
  | 0x4030 => some (of (·.linkReplays))
  | 0x4031 => some (of (·.fecCorrected))
  | 0x4032 => some (of (·.retrains))
  | 0x4033 => some (of (·.policedSends))
  | 0x4034 => some (of (·.cnpReceived))
  | 0x5831 => some (s.charge (.port n) none)
  | _ => none

/-- Objects of the buffer pools (sub-index 0x01 + 6 × tier + pool, or 0x01 + tier). -/
def State.poolNum (s : State) (idx n : Nat) : Option Nat :=
  let of (f : Pool → Nat) : Nat := match s.mem.pool (n / 6) (n % 6) with | some p => f p | none => 0
  match idx with
  | 0x5801 => some (of fun p => p.total - p.gone.length)
  | 0x5802 => some (of Pool.free)
  | 0x5803 => some (of (·.fallbacks))
  | 0x5804 => some (of (·.gone.length))
  | 0x5805 => some s.mem.systemRegion
  | 0x5806 => some (s.mem.tierFallbacks.getD n 0)
  | _ => none

/-- R529 MediaWear, the mean erase count × 100 / NandRatedPE, at most 255; with NandRatedPE 0 a free value. -/
def State.mediaWear (s : State) : Nat :=
  let n := s.media.sblks.length
  let rated := s.num 0x5009 0
  if n == 0 then 0 else if rated == 0 then s.freeVal % 256 else min 255 ((s.media.sblks.map (·.erases)).sum * 100 / (n * rated))

/-- R521 RebuildProgress in 1/1,000 over the groups under rebuild, 0xFFFF when none is. -/
def State.rebuildProgress (s : State) : Nat :=
  let gs := s.media.groups.filter fun g => g.rebuilding.isSome
  let all := (gs.map fun g => (s.media.stripes g.g).length).sum
  if gs.isEmpty then 0xFFFF else if all == 0 then 1000 else (gs.map (·.rebuilt)).sum * 1000 / all

/-- Objects of the media. -/
def State.mediaNum (s : State) (idx : Nat) : Option Nat :=
  let m := s.media
  match idx with
  | 0x5000 => some m.stateCode
  | 0x5001 => some (if m.formatting then 1 else 0)
  | 0x5004 => some m.capacity
  | 0x5007 => some m.patrolPos
  | 0x500A => some s.mediaWear
  | 0x500B => some (min 255 (m.luns.filter fun l => l.spare && !l.failed).length)
  | 0x500C => some (m.luns.map (·.reserve.length)).sum
  | 0x500D => some m.hostBytes
  | 0x500E => some m.mediaBytes
  | 0x500F => some m.readRetries
  | 0x5010 => some m.reconstructions
  | 0x5011 => some m.lostUnits
  | 0x5012 => some m.lastMount
  | 0x5013 => some s.rebuildProgress
  | 0x5014 => some (if m.secure.isEmpty then 0 else 1)
  | _ => none

/-- A signed value as 16 bits of two's complement. -/
def word16 (i : Int) : Nat := (i % 65536).toNat

/-- R739: ThrottleStep, the greater of the thermal step and the power step. -/
def Power.throttle (p : Power) : Nat := max p.thermalStep p.powerStep

/-- Objects of power, wake, throttling and supplies. -/
def State.powerNum (s : State) (idx n : Nat) : Option Nat :=
  let p := s.power
  match idx with
  | 0x3001 => some p.state
  | 0x3008 => some p.wakeCause
  | 0x3009 => some p.lastWakeTime
  | 0x300A => some (if s.pins.padHold.isSome then 1 else 0)
  | 0x300B => some p.entryAborts
  | 0x300D => some p.packagePower
  | 0x300E => some p.brownOuts
  | 0x300F => some s.pins.inputVoltage
  | 0x3010 => some s.pins.inputFaults
  | 0x3801 => some (word16 (p.temps.getD n 0))
  | 0x3802 => some p.throttle
  | 0x3803 => some p.throttleEvents
  | 0x3804 => some s.pins.hwTrips
  | _ => none

/-- Objects of start-up, firmware and licences. -/
def State.startNum (s : State) (idx n : Nat) : Option Nat :=
  let u := s.startup
  let img (f : Bytes → Nat) : Nat := if (s.slot n).image.isEmpty then 0 else f (s.slot n).image
  match idx with
  | 0x8000 => some (if s.started then 1 else 0)
  | 0x8001 => some u.cause
  | 0x8002 => some u.lastTime
  | 0x8004 => some u.fallbacks
  | 0x8005 => some 0
  | 0x8010 => some s.securityCounter
  | 0x8011 => some (s.slot n).state
  | 0x8012 => some (img imgVer)
  | 0x8013 => some (img imgSv)
  | 0x8014 => some u.fwFallbacks
  | 0x8022 => some 0
  | 0x8023 => some s.features
  | 0x8024 => some u.licenceValid
  | _ => none

/-- The rest of the read-only numbers. -/
def State.otherNum (s : State) (idx n : Nat) : Option Nat :=
  match idx with
  | 0x1001 => some s.fuses.order
  | 0x1002 => some s.fuses.step
  | 0x1003 => some s.fwVersion
  | 0x1005 => some 1
  | 0x1103 => some s.dict.mctpEid
  | 0x1203 => some (s.dict.sessions.filter (·.isOpen)).length
  | 0x1204 => some s.dict.authFailures
  | 0x1208 => some 0
  | 0x1281 => some s.dict.jseq
  | 0x1284 => some s.dict.overwritten
  | 0x9010 => some (s.dict.calOrigin.getD n 0)
  | 0x2004 => some (s.spareEngines n)
  | 0x2005 => some (s.spareEights n)
  | 0x2011 => some s.domain.role
  | 0x2017 => some s.domain.restore
  | 0x2018 => some s.domain.expulsions
  | 0x2408 => some s.us
  | 0x2425 => some 1
  | 0x4005 => some s.domain.deviceId
  | 0x4800 => some s.host.speed
  | 0x4801 => some s.host.width
  | 0x4802 => some s.host.flit
  | 0x4803 => some s.host.ide
  | 0x4804 => some s.host.dmaErrors
  | 0x4805 => some s.host.linkResets
  | 0x4810 => some s.host.strayWrites
  | 0x6002 => some s.faults.queue.length
  | 0x6003 => some s.faults.lost
  | 0x6015 => some (if s.faults.commonCause then 1 else 0)
  | 0x6016 => some s.faults.probation.length
  | 0x7000 => some (s.streams.filter fun t => t.ended.isNone).length
  | _ => none

/-- A number as it reads: live where the device reports it, else as written (R661). -/
def State.objNum (s : State) (idx sub : Nat) : Nat :=
  let n := sub - 1
  ((s.crewNum idx n).or ((s.portNum idx n).or ((s.poolNum idx n).or ((s.mediaNum idx).or ((s.powerNum idx n).or
    ((s.startNum idx n).or (s.otherNum idx n))))))).getD (s.num idx sub)

/-- A string or byte string as it reads. -/
def State.objOcts (s : State) (idx sub : Nat) : Bytes :=
  let n := sub - 1
  match idx with
  | 0x1000 => trimZeros s.fuses.serial
  | 0x1004 => s.fuses.identityKey
  | 0x1280 => s.journalBytes n
  | 0x2002 => s.disabledMap
  | 0x2003 => s.logicalMap
  | 0x2012 => s.membersBytes
  | 0x2016 => s.lostShardBytes
  | 0x2400 => s.crewFingerprint n
  | 0x2401 => s.jobFingerprint n
  | 0x2409 => match (s.crew n).bind (·.job) with | some j => fitTo 256 j.settings | none => zeros 256
  | 0x6000 => s.faultQueueBytes
  | 0x6200 => s.scoresOf ((List.range 612).map UnitRef.engine)
  | 0x6201 => s.scoresOf ((List.range 408).map fun i => .eightUnit (i / 6) (i % 6))
  | 0x6202 => s.healthOther
  | 0x8020 => []
  | 0x8021 => s.startup.licences.getD n []
  | _ => s.octs idx sub

/-- R664: the whole value of an object; sub-index 0 of a ranged one is its highest sub-index (R658). -/
def State.objValue (s : State) (idx sub : Nat) (r : ObjRow) : Bytes :=
  if r.ty == .octs || r.ty == .vstr then s.objOcts idx sub else leBytes r.ty.size (s.objNum idx sub)

end Sys2Proof.Machine
end

