-- ==== Sys2Proof/Machine/Operands.lean ====
section
/-!
DEFINITION. The fields of a dictionary message as it arrives (R662), the operand of every row that is a dictionary request. The fields of
a capsule (R539, R543) stand in Ops.lean and HostOps.lean, those of packets and flits in NetOps.lean and PortTx.lean.
-/
namespace Sys2Proof.Machine

/-- MAGIC. -/
def dmMagic (m : DictMsg) : Nat := field m.msg 0 4
/-- VER. -/
def dmVer (m : DictMsg) : Nat := field m.msg 4 1
/-- OP: 1 READ, 2 WRITE, 3 OPEN, 4 PROVE, 5 CLOSE. -/
def dmOp (m : DictMsg) : Nat := field m.msg 5 1
/-- RID. -/
def dmRid (m : DictMsg) : Nat := field m.msg 6 2
/-- SID. -/
def dmSid (m : DictMsg) : Nat := field m.msg 8 4
/-- SEQ. -/
def dmSeq (m : DictMsg) : Nat := field m.msg 12 4
/-- INDEX. -/
def dmIdx (m : DictMsg) : Nat := field m.msg 16 2
/-- SUB. -/
def dmSub (m : DictMsg) : Nat := field m.msg 18 1
/-- TYPE. -/
def dmType (m : DictMsg) : Nat := field m.msg 19 1
/-- OFFSET. -/
def dmOff (m : DictMsg) : Nat := field m.msg 20 4
/-- LEN. -/
def dmLen (m : DictMsg) : Nat := bits m.msg 207 192
/-- LASTSEG. -/
def dmLast (m : DictMsg) : Bool := bits m.msg 208 208 == 1
/-- TLEN. -/
def dmTlen (m : DictMsg) : Nat := bits m.msg 223 216
/-- Value bytes that the message carries: a READ's LEN is what it asks for (R664), and it carries none. -/
def dmCarried (m : DictMsg) : Nat := if dmOp m == 1 then 0 else dmLen m
/-- The value bytes. -/
def dmValue (m : DictMsg) : Bytes := slice m.msg 32 (dmCarried m)
/-- The time string. -/
def dmTime (m : DictMsg) : Bytes := slice m.msg (32 + dmCarried m) (dmTlen m)
/-- Length up to the padding. -/
def dmBody (m : DictMsg) : Nat := 32 + dmCarried m + dmTlen m
/-- The signature of a WRITE in a session, after the padding. -/
def dmSig (m : DictMsg) : Bytes := slice m.msg ((dmBody m + 3) / 4 * 4) 96
/-- R677: what the signature covers: header, value and time string. -/
def dmSigned (m : DictMsg) : Bytes := m.msg.take (dmBody m)

/-- R317, R684: is a byte string well-formed UTF-8, after a carry? -/
def utf8Ok : Bytes → Bytes → Bool
  | carry, [] => carry.isEmpty
  | carry, b :: bs => match utfNext carry b with
    | none => false
    | some true => utf8Ok [] bs
    | some false => utf8Ok (carry ++ [b]) bs

/-- R667 check 2, R684: OP and the header's ranges. -/
def dmRangesOk (m : DictMsg) : Bool :=
  within 1 5 (dmOp m) && dmLen m ≤ 1024 && dmTlen m ≤ 32 && dmBody m ≤ m.msg.length && utf8Ok [] (dmTime m) &&
  (dmOp m != 2 || dmType m == 0x0B || dmOff m == 0)

end Sys2Proof.Machine
end

