-- ==== Sys2Proof/Machine/DictOps.lean ====
section
/-!
DEFINITION. Dictionary messages ("The object dictionary, roles and audit"): responses (R663), the checks in their order (R667), sessions and signatures (R673 to R678), and the one way every WRITE takes (R665, R667, R677, R682).
-/
namespace Sys2Proof.Machine

/-! ### Responses (R663, R670 to R672) -/

/-- What a response says beside the request's OP and RID. -/
structure DictResp where
  /-- STATUS. -/
  status : Nat
  /-- TYPE of the object, or 0. -/
  ty : Nat := 0
  /-- The value. -/
  value : Bytes := []
  /-- R663 CREW and JSTATE, for Sequence error. -/
  crew : Option Nat := none
  /-- JSEQ of the audit entry written, or 0. -/
  jseq : Nat := 0
  /-- FULLLEN. -/
  full : Nat := 0
  deriving DecidableEq, Repr, Inhabited

/-- R663: the bytes of a response. -/
def State.respBytes (s : State) (m : DictMsg) (r : DictResp) : Bytes :=
  let js := match r.crew with | some c => s.jstate c | none => 7
  leBytes 4 0xC4A5D33B ++ [0x01, byteOf (dmOp m + 128)] ++ leBytes 2 (dmRid m) ++ [byteOf r.status, byteOf r.ty] ++
  leBytes 2 r.value.length ++ [byteOf js, byteOf (r.crew.getD 0)] ++ zeros 2 ++ leBytes 8 r.jseq ++ leBytes 4 r.full ++ zeros 4 ++ r.value

/-- R671: a response leaves to the requester; on 10BASE-T1S no frame is sent while T1sNodeId is 0xFF. -/
def State.respond (s : State) (m : DictMsg) (r : DictResp) : State :=
  if m.transport == .t1s && s.num 0x1100 0 == 0xFF then s else s.send (.response m.transport m.addr (s.respBytes m r))

/-- R693, R729: does the dictionary answer on a transport now? -/
def State.dictUp (s : State) (t : Transport) : Bool := s.coxUp && s.power.state != 3 && (t != .mailbox || s.host.speed != 0)

/-- R671: is a message one to answer? A 10BASE-T1S frame to the broadcast address is answered only for a READ of the Identity
range. -/
def State.hears (s : State) (m : DictMsg) : Bool :=
  s.dictUp m.transport && (m.transport != .t1s || !m.broadcast || (dmOp m == 1 && within 0x1000 0x10FF (dmIdx m)))

/-- R667 checks 1 and 2, R8: a request that the dictionary takes up; `f` answers one that is `mine`. A message of another MAGIC gets
no response. -/
def State.onRequest (s : State) (m : DictMsg) (mine : Bool) (f : State → State) : Host.Outcome State Fault Refusal :=
  .next (if !s.hears m || m.msg.length < 32 || dmMagic m != 0xC4A5D33B then s
    else if dmVer m != 1 || !dmRangesOk m then s.leavePs1.respond m { status := 0x02 }
    else if mine then f s.leavePs1 else s).settle

/-! ### Sessions (R673, R678) -/

/-- A session of a requester by its id. -/
def State.sessionOf (s : State) (m : DictMsg) : Option Session :=
  s.dict.sessions.find? fun x => x.sid == dmSid m && x.t == m.transport && x.addr == m.addr

/-- R678: the open session of a requester. -/
def State.openSession (s : State) (m : DictMsg) : Option Session := (s.sessionOf m).filter (·.isOpen)

/-- The sessions changed. -/
def State.modSessions (s : State) (f : List Session → List Session) : State := { s with dict := { s.dict with sessions := f s.dict.sessions } }

/-- A session changed. -/
def State.modSession (s : State) (sid : Nat) (f : Session → Session) : State := s.modSessions (updWhere (fun x => x.sid == sid) f)

/-- A session or offered id goes. -/
def State.dropSession (s : State) (sid : Nat) : State := s.modSessions fun l => l.filter fun x => x.sid != sid

/-! ### Objects and rights (R658, R667 checks 4 and 5, R690) -/

/-- The right of a role to an object. -/
def ObjRow.right (r : ObjRow) (role : Nat) : ObjAcc :=
  match role with
  | 1 => r.op
  | 2 => r.ins
  | 3 => r.maker
  | _ => .r

/-- R658: the row of an object; sub-index 0 of a ranged object is a U8 that every role may read and none write. -/
def dictRow (idx sub : Nat) : Option ObjRow :=
  match objRow idx sub with
  | some r => some r
  | none => if sub == 0 then (subCount idx).map fun _ => ⟨idx, idx, 0, 0, .u8, .r, .r, .r⟩ else none

/-- R658: the value of an object; sub-index 0 of a ranged one is its highest sub-index. -/
def State.dictValue (s : State) (idx sub : Nat) (r : ObjRow) : Bytes :=
  match objRow idx sub, subCount idx with
  | none, some n => leBytes 1 n
  | _, _ => s.objValue idx sub r

/-- R690: an index of the Maker range, which is for the maker alone. -/
def isMakerIdx (idx : Nat) : Bool := 0xF000 ≤ idx

/-- R673: the right of a role (0 none, which reads the Identity range and nothing else). -/
def rightOf (idx role : Nat) (r : ObjRow) : ObjAcc :=
  if role == 0 then (if 0x1000 ≤ idx && idx ≤ 0x10FF then .r else .no) else r.right role

/-- R667 checks 4 and 5 for a role (0 none): the object's row, or the failing status. -/
def findObject (m : DictMsg) (role : Nat) (write : Bool) : Nat ⊕ ObjRow :=
  if isMakerIdx (dmIdx m) && role != 3 then .inl 0x31
  else match dictRow (dmIdx m) (dmSub m) with
    | none => .inl 0x02
    | some r =>
      if dmType m != r.ty.code && (write || dmType m != 0) then .inl 0x02
      else match rightOf (dmIdx m) role r with
        | .no => .inl 0x31
        | .r => if write then .inl 0x31 else .inr r
        | .rw => .inr r

/-! ### READ (R664, R673) -/

/-- R673, R678: the role of a READ's requester, or the failing status. -/
def State.readRole (s : State) (m : DictMsg) : Nat ⊕ Nat :=
  if dmSid m == 0 then .inr 0
  else match s.openSession m with
    | some x => .inr x.role
    | none => .inl 0x32

/-- R664: READ. -/
def State.dictRead (s : State) (m : DictMsg) : State :=
  match s.readRole m with
  | .inl st => s.respond m { status := st }
  | .inr role => match findObject m role false with
    | .inl st => s.respond m { status := st }
    | .inr r =>
      let v := s.dictValue (dmIdx m) (dmSub m) r
      if r.ty == .octs then s.respond m { status := 0x00, ty := r.ty.code, value := slice v (dmOff m) (dmLen m), full := v.length }
      else s.respond m { status := 0x00, ty := r.ty.code, value := v }

/-! ### WRITE (R665, R667, R677, R682, R686) -/

/-- What a WRITE is refused with: a status, and the crew that Sequence error reports. -/
abbrev DictFail := Nat × Option Nat

/-- A WRITE as its owning rule sees it: role, object and whole value. -/
structure DictWrite where
  /-- 0 none, 1 operator, 2 installer, 3 maker. -/
  role : Nat
  /-- Index. -/
  idx : Nat
  /-- Sub-index. -/
  sub : Nat
  /-- The value. -/
  value : Bytes
  deriving DecidableEq, Repr, Inhabited

/-- The value as a number. -/
def DictWrite.num (w : DictWrite) : Nat := leNat w.value

/-- What the owning rule of an object adds to a WRITE: checks past the range, the effect, what follows the response, the audit kind. -/
structure WriteRule where
  /-- Licence required, Sequence error and the remaining checks, in the order of R667. -/
  fail : State → DictWrite → Option DictFail := fun _ _ => none
  /-- The effect. -/
  act : State → DictWrite → State
  /-- What happens once the response has left. -/
  after : State → DictWrite → State := fun s _ => s
  /-- R683 KIND. -/
  kind : Nat := 0

/-- R659: is a byte string a value of a type? -/
def ObjType.holds (t : ObjType) (b : Bytes) : Bool :=
  match t with
  | .bool => b == [0] || b == [1]
  | .f32 => b.length == 4 && !(0xFF ≤ leNat b / 2 ^ 23 % 2 ^ 8 && leNat b % 2 ^ 23 != 0)
  | .vstr => b.length ≤ 255 && utf8Ok [] b && !b.contains 0
  | .octs => b.length ≤ 65536
  | _ => b.length == t.size

/-- R667 check 6: is the value of the object's type and in its range? -/
def State.writeInRange (s : State) (w : DictWrite) (r : ObjRow) : Bool :=
  r.ty.holds w.value && if r.ty == .octs then bytesRangeOk w.idx w.value else numRangeOk s.fuses (w.role == 3) w.idx w.sub w.num

/-- R667 check 6, R686: the failing status of a WRITE's whole value. AuditReadMark and AuditMode are written whatever the journal
holds. -/
def State.writeFail (s : State) (w : DictWrite) (r : ObjRow) (rule : WriteRule) : Option DictFail :=
  if !s.writeInRange w r then some (0x02, none)
  else match rule.fail s w with
    | some f => some f
    | none => if s.auditRefuses && w.idx != 0x1282 && w.idx != 0x1283 then some (0x04, none) else none

/-- A WRITE of a whole value judged, carried out, audited and answered. -/
def State.commitWrite (s : State) (m : DictMsg) (x : Option Session) (w : DictWrite) (r : ObjRow) (rule : WriteRule) : State :=
  match s.writeFail w r rule with
  | some (st, crew) => s.respond m { status := st, ty := r.ty.code, crew := crew }
  | none =>
    let who : Audit := match x with
      | some x => s.auditOf x rule.kind (transportCode m.transport)
      | none => { kind := rule.kind, transport := transportCode m.transport }
    let old := s.dictValue w.idx w.sub r
    let entry := { who with idx := w.idx, sub := w.sub, ty := r.ty.code, old := old, new := w.value, time := dmTime m }
    let s := rule.act s w
    let n := s.dict.jseq
    rule.after ((s.audit entry).respond m { status := 0x00, ty := r.ty.code, jseq := n }) w

/-- R665: the segments of an OCTS held with this one added; none when it is out of order. -/
def joinSegment (m : DictMsg) (held : Option (Nat × Nat × Bytes)) : Option Bytes :=
  if dmOff m == 0 then some (dmValue m)
  else match held with
    | some (i, k, b) => if i == dmIdx m && k == dmSub m && b.length == dmOff m then some (b ++ dmValue m) else none
    | none => none

/-- R665: a WRITE's value as far as it has come: whole, held for more segments, or out of order. -/
def State.takeValue (s : State) (m : DictMsg) (x : Option Session) (w : Bytes → DictWrite) (r : ObjRow) (rule : WriteRule) : State :=
  if r.ty != .octs then s.commitWrite m x (w (dmValue m)) r rule
  else
    let held := x.bind (·.octs)
    let keep (s : State) (h : Option (Nat × Nat × Bytes)) : State :=
      match x with | some x => s.modSession x.sid fun y => { y with octs := h } | none => s
    match joinSegment m held with
    | none => (keep s none).respond m { status := 0x02, ty := r.ty.code }
    | some b =>
      if dmLast m then (keep s none).commitWrite m x (w b) r rule
      else if x.isSome && b.length ≤ 65536 then (keep s (some (dmIdx m, dmSub m, b))).respond m { status := 0x00, ty := r.ty.code }
      else (keep s none).respond m { status := 0x02, ty := r.ty.code }

/-- R677: is a WRITE's SEQ greater than the session's last, and its signature good? -/
def State.signatureOk (s : State) (m : DictMsg) (x : Session) : Bool :=
  (!x.wrote || x.seq < dmSeq m) && ecdsaVerify (s.roleKey x.role x.slot) (sha384 (dmSigned m)) (dmSig m)

/-- R673: does a WRITE with SID 0 claim the device? -/
def State.claims (s : State) (m : DictMsg) : Bool :=
  dmSid m == 0 && m.transport == .mailbox && dmIdx m == 0x1201 && dmSub m == 1 && (List.range 4).all fun i => (s.octs 0x1201 (i + 1)).isEmpty

/-- A WRITE in a session, past check 2. -/
def State.sessionWrite (s : State) (m : DictMsg) (rule : WriteRule) : State :=
  if dmSid m == 0 then s.respond m { status := match findObject m 0 true with | .inl st => st | .inr _ => 0x31 }
  else match s.openSession m with
    | none => s.respond m { status := 0x32 }
    | some x =>
      if !s.signatureOk m x then s.respond m { status := 0x32 }
      else
        let s := s.modSession x.sid fun y => { y with seq := dmSeq m, wrote := true }
        match findObject m x.role true with
        | .inl st => s.respond m { status := st }
        | .inr r => s.takeValue m (some x) (fun b => { role := x.role, idx := dmIdx m, sub := dmSub m, value := b }) r rule

/-- R673: a WRITE with SID 0 that claims the device. -/
def State.claimWrite (s : State) (m : DictMsg) (rule : WriteRule) : State :=
  match dictRow (dmIdx m) (dmSub m) with
  | none => s
  | some r =>
    if dmType m != r.ty.code then s.respond m { status := 0x02 }
    else s.takeValue m none (fun b => { role := 0, idx := dmIdx m, sub := dmSub m, value := b }) r rule

/-- The meaning of a row that is a WRITE of the objects `mine` names, by their rule. A message that is no such WRITE is no event of
the row. -/
def State.writeRow (s : State) (m : DictMsg) (mine : Nat → Bytes → Bool) (rule : WriteRule) : Host.Outcome State Fault Refusal :=
  s.onRequest m (dmOp m == 2 && mine (dmIdx m) (dmValue m) && !s.claims m) fun s => s.sessionWrite m rule

/-- The lowest-numbered crew among those of a predicate, for Sequence error. -/
def State.firstCrew (s : State) (p : Crew → Bool) : Option Nat := s.lowestCrew p

/-- R661: a number put into the dictionary. -/
def putNum (s : State) (w : DictWrite) : State := { s with dict := s.dict.put w.idx w.sub (.num w.num) }

/-- R661: a byte string put into the dictionary. -/
def putOcts (s : State) (w : DictWrite) : State := { s with dict := s.dict.put w.idx w.sub (.bytes w.value) }

end Sys2Proof.Machine
end

