-- ==== Sys2Proof/Machine/PortRows.lean ====
section
/-!
DEFINITION. Meanings of the ports' own events: training (R345 to R353, R457), the Ryhero link layer (R355 to R368), packets received and
forwarded (R369 to R373) and frames sent (R393 to R400).
-/
namespace Sys2Proof.Machine

/-! ### Training -/

/-- R356: the handshake flit that a port sends. -/
def State.handshake (s : State) (p : Port) : Bytes :=
  let payload := [0x01, 0x01] ++ leBytes 2 s.domain.deviceId ++ [byteOf p.n, byteOf p.lanes, 0, 0] ++ rxSizes.flatMap (leBytes 2)
  flit 1 4 0 0 0 0 0 payload.length false false payload

/-- R345 step 5, R348, R352, R368, R399: a port comes up at the width agreed: the flits that a retrain left are replayed, and what
depends on the topology is judged again. -/
def State.portComesUp (s : State) (n : Nat) : State :=
  match s.port n with
  | none => s
  | some p =>
    let again := p.resuming || s.started
    let s := s.modPort n fun p => { p with width := p.agreed, agreed := 0, cause := 0, resuming := false, protoErr := false,
                                           overhead := p.overhead || again,
                                           linkReplays := (p.linkReplays + (if p.link.resend == 0 then 0 else 1)) % 4294967296 }
    let s := (s.setPortState n (if p.agreed == 4 then 2 else 3)).replayOn n
    if s.started then (s.noteTopology n).recheckTimed.reroute else s

/-- R345 to R349, R352, R354, R367, R700: a port's training ends. An Ethernet port comes up; a Ryhero port at step 4 sends its handshake
(R356) and comes up once it has received its peer's. -/
def State.portTrained (s : State) (n : Nat) (r : TrainResult) : State :=
  match s.port n with
  | none => s
  | some p =>
    let mode := s.portMode n
    if p.state != 1 || mode == 0 then s
    else
      let s := (s.trainedBy 3 r.fellBack).modPort n fun p => { p with lanes := r.lanesHere % 16 }
      match widthOf mode (s.num 0x4001 (n + 1)) (r.lanesHere % 16 &&& r.lanesPeer % 16), r.linkUp with
      | some (w, _), true =>
        let s := s.modPort n fun p => { p with agreed := w }
        if mode == 2 then s.portComesUp n
        else
          let s := s.send (.flit n (s.handshake { p with lanes := r.lanesHere % 16 }))
          if p.shaken then s.portComesUp n else s
      | _, _ =>
        let cause := if p.protoErr then 6 else if r.lanesHere % 16 == 0 then 1 else 2
        let s := s.fencePort n cause
        if s.started then s.recheckTimed.reroute else s

/-- PORT_TRAINING_COMPLETE. -/
def execPortTrainingComplete (port : Nat) (r : TrainResult) (s : State) : Host.Outcome State Fault Refusal :=
  .next (s.portTrained port r).settle

/-- R352: a running port loses the lanes of a mask, or its recovery calls for a retrain. -/
def State.lanesLost (s : State) (n lanes : Nat) : State :=
  match s.port n with
  | none => s
  | some p =>
    if p.state == 2 || p.state == 3 then (s.modPort n fun p => { p with lanes := p.lanes - (p.lanes &&& lanes % 16) }).recoverPort n false else s

/-- LANE_LOSS. -/
def execLaneLoss (port lanes : Nat) (s : State) : Host.Outcome State Fault Refusal := .next (s.lanesLost port lanes).settle

/-- R399: 1 s after a retrain. -/
def State.overheadEnds (s : State) (n : Nat) : State := s.modPort n fun p => { p with overhead := false }

/-- FRAME_OVERHEAD_EXPIRY. -/
def execFrameOverheadExpiry (port : Nat) (s : State) : Host.Outcome State Fault Refusal := .next (s.overheadEnds port).settle

/-! ### The handshake (R356, R357, R359, R365) -/

/-- R364: codewords of a port that FEC corrected. -/
def State.fecCorrects (s : State) (n k : Nat) : State := s.modPort n fun p => { p with fecCorrected := (p.fecCorrected + k) % 2 ^ 64 }

/-- R8, R356: is a flit a handshake that the DX36 reads? -/
def handshakeGood (f : Bytes) : Bool := flitCrcOk f && flitVer f == 1 && flitType f == 4

/-- R356, R357, R359, R365, R368: the peer's handshake: the link version and the credits it announces; a port whose width is agreed
comes up. -/
def State.handshakeFlit (s : State) (n : Nat) (f : Bytes) : State :=
  match s.port n with
  | none => s
  | some p =>
    if p.state != 1 || s.portMode n != 1 || !handshakeGood f then s
    else
      let b := f.drop 12
      let vmin := field b 0 1
      let vmax := field b 1 1
      let peer := field b 2 2 % 4096
      let peerPort := field b 4 1
      let ver := min 1 vmax
      if ver < max 1 vmin then
        let s := (s.fencePort n 3).raise { unit := portUnit n, kind := 0x21, addr := vmax }
        if s.started then s.recheckTimed.reroute else s
      else
        let changed := match p.lastPeer with | some x => x != (peer, peerPort) | none => false
        let s := s.modPort n fun p =>
          { p with peer := peer, peerPort := peerPort, lastPeer := some (peer, peerPort), shaken := true,
                   link := { p.link with ver := ver, credits := (List.range 4).map fun v => field b (8 + 2 * v) 2, owed := [0, 0, 0, 0] } }
        let s := if p.agreed == 0 then s.noteTopology n else (s.portComesUp n).noteTopology n
        if changed then (s.raise { unit := portUnit n, kind := 0x22, addr := peer }).peerChanged n peer else s

/-- HANDSHAKE_FLIT_RECEIVE. -/
def execHandshakeFlitReceive (port : Nat) (flit : FlitIn) (s : State) : Host.Outcome State Fault Refusal :=
  .next ((s.fecCorrects port flit.corrected).handshakeFlit port flit.flit).settle

/-! ### Flits received -/

/-- R358, R361: does a flit pass its CRC at the link version? -/
def flitGood (p : Port) (f : Bytes) : Bool := flitCrcOk f && flitVer f == p.link.ver

/-- R365: credits that a flit returns. -/
def Link.takeCredit (l : Link) (f : Bytes) : Link :=
  { l with credits := l.credits.set (flitCvc f) (l.credits.getD (flitCvc f) 0 + flitCred f) }

/-- R362: a data flit is discarded: a NAK with the expected sequence number. -/
def State.nak (s : State) (n : Nat) : State := (s.modLink n fun l => { l with naking := true }).sendControlFlit n 3

/-- R361: an acknowledgement departs as an idle flit when 32 accepted flits await it, or when no other flit is due. -/
def State.acknowledge (s : State) (n : Nat) : State :=
  match s.port n with
  | some p => if 0 < p.link.ackOwed && (32 ≤ p.link.ackOwed || (s.pickFrame p).2.isNone) then s.sendControlFlit n 2 else s
  | none => s

/-- R361, R362, R365, R367: a data flit. -/
def State.dataFlit (s : State) (n : Nat) (f : Bytes) : State :=
  match s.port n with
  | none => s
  | some p =>
    if !s.portUp n 1 then s
    else if !(flitGood p f && flitType f == 1) then s.nak n
    else
      let s := s.modLink n fun l => l.takeAck (flitAck f)
      if flitSeq f != p.link.expect then s.nak n
      else
        let vc := flitVc f
        let buf := p.link.rx.getD vc []
        if rxSizes.getD vc 0 ≤ buf.length then s.recoverPort n true
        else
          let s := s.modLink n fun l =>
            { l.takeCredit f with expect := (l.expect + 1) % 65536, naking := false, ackOwed := l.ackOwed + 1, rx := l.rx.set vc (buf ++ [f]) }
          (s.replayOn n).acknowledge n

/-- DATA_FLIT_RECEIVE. -/
def execDataFlitReceive (port : Nat) (flit : FlitIn) (s : State) : Host.Outcome State Fault Refusal :=
  .next ((s.fecCorrects port flit.corrected).dataFlit port flit.flit).settle

/-- R361, R365: an idle flit. -/
def State.idleFlit (s : State) (n : Nat) (f : Bytes) : State :=
  match s.port n with
  | none => s
  | some p =>
    if s.portUp n 1 && flitGood p f && flitType f == 2 then (s.modLink n fun l => (l.takeAck (flitAck f)).takeCredit f).replayOn n else s

/-- IDLE_FLIT_RECEIVE. -/
def execIdleFlitReceive (port : Nat) (flit : FlitIn) (s : State) : Host.Outcome State Fault Refusal :=
  .next ((s.fecCorrects port flit.corrected).idleFlit port flit.flit).settle

/-- R362: a NAK flit: what it acknowledges leaves the buffer, and the rest is replayed. -/
def State.nakFlit (s : State) (n : Nat) (f : Bytes) : State :=
  match s.port n with
  | none => s
  | some p =>
    if s.portUp n 1 && flitGood p f && flitType f == 3 then (s.modLink n fun l => l.takeAck (flitAck f)).replay n else s

/-- NAK_FLIT_RECEIVE. -/
def execNakFlitReceive (port : Nat) (flit : FlitIn) (s : State) : Host.Outcome State Fault Refusal :=
  .next ((s.fecCorrects port flit.corrected).nakFlit port flit.flit).settle

/-- R362: 200 ns without the expected flit after a NAK. -/
def State.nakAgain (s : State) (n : Nat) : State :=
  match s.port n with
  | some p => if s.portUp n 1 && p.link.naking then s.sendControlFlit n 3 else s
  | none => s

/-- NAK_REPEAT. -/
def execNakRepeat (port : Nat) (s : State) : Host.Outcome State Fault Refusal := .next (s.nakAgain port).settle

/-- R363: 2 µs without an advance of ACK. -/
def State.replayTimedOut (s : State) (n : Nat) : State := if s.portUp n 1 then s.replay n else s

/-- REPLAY_TIMEOUT. -/
def execReplayTimeout (port : Nat) (s : State) : Host.Outcome State Fault Refusal := .next (s.replayTimedOut port).settle

/-- R366: the credit of a freed buffer slot departs as an idle flit. -/
def State.returnCredit (s : State) (n vc : Nat) : State :=
  match s.port n with
  | none => s
  | some p =>
    let k := min 255 (p.link.owed.getD vc 0)
    if !s.portUp n 1 || k == 0 then s
    else (s.modLink n fun l => l.departed (vc, k)).send (.flit n (flit p.link.ver 2 0 0 p.link.expect vc k 0 false false []))

/-- CREDIT_RETURN. -/
def execCreditReturn (port vc : Nat) (s : State) : Host.Outcome State Fault Refusal := .next (s.returnCredit port vc).settle

/-! ### Packets received (R369 to R373, R447) -/

/-- The first whole packet in a channel's receive buffer: its flits. -/
def wholePacket (buf : List Bytes) : Option (List Bytes) := (buf.findIdx? flitEop).map fun i => buf.take (i + 1)

/-- R609: a route probe: its sender cannot know the id of the device it reaches, which may belong to another domain. -/
def isProbe (p : Bytes) : Bool := pktType p == 6 && field p 32 1 == 0

/-- R34, R374: does a packet in transit cross the central routers of the edge dies, on one of which a fault stands? -/
def State.transitCut (s : State) (into out : Nat) : Bool :=
  decide (into < 18) != decide (out < 18) && s.faults.centralDown.any fun r => r == 4 || r == 5

/-- R371: ADDR of kind 0x23. -/
def misroutedAddr (p : Bytes) : Nat := pktSrc p + pktDst p * 4096

/-- R626: a prepared sample of a member that failed PCRC, as the manager itself receives it. -/
def State.badSample (s : State) (src : Nat) : State :=
  if s.domain.role != 1 then s
  else match s.workers.find? fun m => m.id == src with
    | none => s
    | some m =>
      let bad := s.last600 m.bad ++ [s.uptime]
      let put (l : List Nat) (s : State) : State :=
        s.modDomain fun d => { d with members := updWhere (fun x => x.id == src) (fun x => { x with bad := l }) d.members }
      if 3 ≤ bad.length then (put [] s).suspect src else put bad s

/-- R371 to R374: a whole packet: taken, forwarded by its route, or discarded. -/
def State.routePacket (s : State) (n : Nat) (p : Bytes) : State :=
  if !pktVerOk p then s
  else if pktHops p ≤ pktHopIdx p then s.raise { unit := portUnit n, kind := 0x23, addr := misroutedAddr p }
  else
    let idx := pktHopIdx p + 1
    let q := pktSetHop p idx
    if idx < pktHops p then (if s.transitCut n (pktRoute p (idx + 1)) then s else s.sendOn (pktRoute p (idx + 1)) q none true)
    else if pktDst p != s.selfId && !isProbe p then s.raise { unit := portUnit n, kind := 0x23, addr := misroutedAddr p }
    else if !pktCrcOk p then (if pktType p == 2 then s.badSample (pktSrc p) else s)
    else s.modDomain fun d => { d with inbox := d.inbox ++ [byteOf n :: q] }

/-- R366, R371, R447: a whole packet leaves its receive buffer, once a reassembly buffer is free; the credits of its flits are owed. -/
def State.packetIn (s : State) (n vc : Nat) : State :=
  match s.port n with
  | none => s
  | some p => match wholePacket (p.link.rx.getD vc []) with
    | none => s
    | some fs =>
      if !s.portUp n 1 then s
      else
        let pkt := fs.flatMap flitData
        match s.alloc .portReassembly (.other n) (max 1 pkt.length) [ownerId 2 n] with
        | (false, s) => s
        | (true, s) =>
          let s := s.freeRef fun b => b == .other n
          let s := s.modLink n fun l =>
            { l with rx := l.rx.set vc ((l.rx.getD vc []).drop fs.length), owed := l.owed.set vc (l.owed.getD vc 0 + fs.length) }
          s.routePacket n pkt

/-- RYHERO_PACKET_RECEIVE. -/
def execRyheroPacketReceive (port vc : Nat) (s : State) : Host.Outcome State Fault Refusal := .next (s.packetIn port vc).settle

/-- TRANSMIT_FRAME. -/
def execTransmitFrame (port : Nat) (s : State) : Host.Outcome State Fault Refusal := .next (s.transmit port).settle

end Sys2Proof.Machine
end

