-- ==== Sys2Proof/Machine/DomainRows.lean ====
section
/-!
DEFINITION. Meanings of the commands of the job domain ("Crews, managers and workers", R607 to R629): formation and dissolution, domain
registration, packets taken from the inbox, reports, shard copies and the waits of a worker's opening.
-/
namespace Sys2Proof.Machine

/-! ### Formation (R609, R610) -/

/-- Ryhero ports that are UP or DEGRADED, ascending. -/
def State.upPorts (s : State) : List Nat := (List.range 36).filter fun n => s.portUp n 1

/-- R609, R621: a route probe sent along a route. Its DST is the id of the port's peer where one link leads there and the handshake told
it (R356), else the address of a device without an id (DESIGN CHOICE). -/
def State.probe (s : State) (route : List Nat) : State :=
  let dst := match route with
    | [n] => match s.port n with | some p => if p.peer == 0xFFF then noId else p.peer | none => noId
    | _ => noId
  s.sendRoute 0x06 0 dst route (probeTag route) (zeros 25)

/-- Is one answer's route before another's: fewer hops, then lower ports? -/
def answerBefore (a b : Bytes × List Nat × Nat) : Bool :=
  a.2.1.length < b.2.1.length || (a.2.1.length == b.2.1.length && portsBefore a.2.1 b.2.1)

/-- An answer put in its place among answers in probing order. -/
def insertAnswer (a : Bytes × List Nat × Nat) : List (Bytes × List Nat × Nat) → List (Bytes × List Nat × Nat)
  | [] => [a]
  | b :: l => if answerBefore a b then a :: b :: l else b :: insertAnswer a l

/-- R609: devices found, in the order found: serial, route and what answered; the manager itself is left out. -/
def State.found (s : State) : List (Bytes × List Nat × Nat) :=
  (s.domain.answers.foldl (fun l a => insertAnswer a l) []).foldl (fun l a =>
    if a.1 == s.fuses.serial || l.any fun b => b.1 == a.1 then l else l ++ [a]) []

/-- R609: the cause that keeps a device found from being admitted, 0 for none; `old` are the serials of the domain's members before. -/
def foundCause (old : List Bytes) (ids : Nat) (a : Bytes × List Nat × Nat) : Nat :=
  let id := a.2.2 / 256
  if 4 < a.2.1.length then 1 else if id == 0 then 3 else if id != noId && !old.contains a.1 then 4 else if 2047 < ids then 2 else 0

/-- R609: the members that devices found make; `id` is the next id. -/
def admitFound (old : List Bytes) (now : Nat) : Nat → List (Bytes × List Nat × Nat) → List Member
  | _, [] => []
  | id, a :: l =>
    let cause := foundCause old id a
    let m : Member := { id := if cause == 0 then id else 0xFFF, serial := a.1, cause := cause, route := a.2.1, seen := now }
    m :: admitFound old now (if cause == 0 then id + 1 else id) l

/-- R609: formation begins: the manager takes id 0 and probes its ports. -/
def State.beginForm (s : State) (c : Cmd) : State :=
  if !s.domain.selected then s.complete c (.capsuleField 20)
  else
    let s := s.modDomain fun d => { d with role := 1, deviceId := 0, answers := [] }
    let s := s.upPorts.foldl (fun s n => s.probe [n]) s
    s.modCmd c.qid c.cid fun x => { x with wait := .probes, done := 1 }

/-- R609, R610: formation ends: ids are given and routes distributed. -/
def State.endForm (s : State) (c : Cmd) : State :=
  let old := s.workers.map (·.serial)
  let ms := admitFound old s.uptime 1 s.found
  let s := s.modDomain fun d => { d with members := ms }
  let called (m : Member) : Nat := match s.domain.answers.find? fun a => a.1 == m.serial with | some a => a.2.2 / 256 | none => m.id
  (s.distributeTo called).complete c .ok

/-- R609: the answers of a depth are in: the devices first found there are probed in turn, down to a depth of 4 hops. -/
def State.nextDepth (s : State) (c : Cmd) : State :=
  let fresh := s.found.filter fun a => a.2.1.length == c.done
  if c.done < 4 && !fresh.isEmpty then
    let s := fresh.foldl (fun s a => (List.range 36).foldl (fun s n => s.probe (a.2.1 ++ [n])) s) s
    s.modCmd c.qid c.cid fun x => { x with done := x.done + 1 }
  else s.endForm c

/-- R609: feature 0x23, taken up, or at the end of a depth of probes. -/
def State.formDomain (s : State) (q i : Nat) : State :=
  match s.readyCmd q i 0x04 (some 0x23) with
  | some c => s.beginForm c
  | none => match s.cmd q i with
    | some c => if c.opc == 0x04 && c.fid == 0x23 && c.wait == .probes then s.nextDepth c else s
    | none => s

/-- DOMAIN_FORM. -/
def execDomainForm (qid cid : Nat) (s : State) : Host.Outcome State Fault Refusal := .next (s.formDomain qid cid).settle

/-! ### Dissolution (R609, R767) -/

/-- A domain record of a device that belongs to no domain; what it counts since reset stays. -/
def Domain.left (d : Domain) : Domain :=
  { selected := d.selected, expulsions := d.expulsions, expelTimes := d.expelTimes, suspects := d.suspects, inbox := d.inbox, tag := d.tag,
    reportSeq := d.reportSeq, portChanges := d.portChanges }

/-- R609, R767: feature 0x25. -/
def State.dissolveDomain (s : State) (c : Cmd) : State :=
  if s.domain.role != 1 then s.complete c (.capsuleField 20)
  else match s.lowestCrew fun k => k.job.isSome && k.domainJob.isSome with
    | some k => s.complete c (.sequence (some k))
    | none =>
      let s := s.controlAll 0x01 0 (routeOperands noId [])
      (s.modDomain Domain.left).complete c .ok

/-- DOMAIN_DISSOLVE. -/
def execDomainDissolve (qid cid : Nat) (s : State) : Host.Outcome State Fault Refusal :=
  s.atCmd qid cid 0x04 (some 0x25) fun c s => s.dissolveDomain c

/-! ### Domain registration (R615, R616) -/

/-- R615: the member that holds shard i of a registration's data. -/
def regDevice (data : Bytes) (i : Nat) : Nat := field data (64 + field data 48 4 + 16 * i + 4) 2

/-- R615: a placement entry that names no member, by shard. -/
def State.regStranger (s : State) (data : Bytes) : Option RegFail :=
  let mlen := field data 48 4
  let man := slice data 64 mlen
  (List.range (manScount man)).findSome? fun i =>
    let dev := regDevice data i
    need1 (dev == s.domain.deviceId || s.workers.any fun m => m.id == dev) mlen (64 + mlen + 16 * i + 4) (manShard man i)

/-- R64, R615: what the members that hold the other shards find at steps 4 and 5, which the spec gives no packet for: a free value. -/
def State.remoteFail (s : State) (data : Bytes) : Option RegFail :=
  let man := slice data 64 (field data 48 4)
  match (List.range (manScount man)).find? fun i => regDevice data i != s.domain.deviceId with
  | none => none
  | some i => match s.freeVal % 3 with
    | 0 => none
    | 1 => some { step := 4, status := 0x22, shard := manShard man i, place := 3 }
    | _ => some { step := 4, status := 0x10, shard := manShard man i, place := 5 }

/-- R616: the holders of a shard set: the worker that holds most of its bytes, and the mirror. -/
def State.placeSet (s : State) (data man : Bytes) (n : Nat) : Placement :=
  let shards := ((List.range (manScount man)).drop (64 * n)).take 64
  let bytes (d : Nat) : Nat := ((shards.filter fun i => regDevice data i == d).map (manSlen man)).sum
  let p := (bestMember bytes (s.workers.map (·.id))).getD s.domain.deviceId
  { dset := manDset man, set := n, primary := p, mirror := if s.num 0x2013 0 == 2 then s.pickMirror [p] else none }

/-- R616: the copies that a placement still needs. -/
def missingCopies (data man : Bytes) (l : List Placement) : List Copy :=
  l.flatMap fun p => (((List.range (manScount man)).drop (64 * p.set)).take 64).flatMap fun i =>
    ((p.primary :: p.mirror.toList).filter fun d => d != regDevice data i).map fun d =>
      { dset := p.dset, shard := manShard man i, src := regDevice data i, dst := d }

/-- R625, R616: the checks passed: shard sets are placed, tables sent and the missing copies ordered. -/
def State.beginDomainRegister (s : State) (c : Cmd) : State :=
  let man := slice c.data 64 (field c.data 48 4)
  let dset := manDset man
  let sets := ceilDiv (manScount man) 64
  let ps := (List.range sets).map (s.placeSet c.data man)
  let copies := missingCopies c.data man ps
  let d := registered (s.domainData c.data)
  let s := s.modDomain fun x =>
    { x with placements := (x.placements.filter fun p => p.dset != dset) ++ ps,
             lostShards := x.lostShards.filter fun y => y.1 != dset }
  let s := s.sendTables dset sets c.data
  let s := copies.foldl (fun s x =>
    let s := s.modDomain fun d => { d with copies := d.copies ++ [x] }
    if x.src == s.domain.deviceId then s.sendShardOf d x.shard x.dst else s.control x.src 0x07 0 (copyOperands x)) s
  (s.modCmd c.qid c.cid fun x => { x with wait := .copies }).endDomainRegister { c with wait := .copies }

/-- R615: feature 0x24. -/
def State.registerDomain (s : State) (c : Cmd) : State :=
  if s.domain.role != 1 then s.complete c (.capsuleField 20)
  else s.whenMounted fun s =>
    let data := s.domainData c.data
    let used (n : Nat) : Bool := s.numberTaken n && !s.domain.lostShards.any fun x => x.1 == n
    let taken := (s.catalogue.filter fun d => used d.dset).flatMap Dataset.extents ++ s.registering c
    match firstFail [structureFail data used taken (2 ^ 64 - 1)] with
    | some f => s.registrationFailed c f
    | none => match s.regStranger c.data with
      | some f => s.registrationFailed c f
      | none => match registerFail s.media data isLocal with
        | some f => s.registrationFailed c f
        | none => match s.remoteFail c.data with
          | some f => s.useFree.registrationFailed c f
          | none => s.useFree.beginDomainRegister c

/-- DOMAIN_REGISTER. -/
def execDomainRegister (qid cid : Nat) (s : State) : Host.Outcome State Fault Refusal :=
  s.atCmd qid cid 0x04 (some 0x24) fun c s => s.registerDomain c

/-! ### Status reports (R620, R622, R623, R626) -/

/-- The crew whose domain job a status report names: the lowest with an open domain job, else the lowest that has joined one. -/
def State.reportCrew (s : State) : Option Crew :=
  match s.crews.find? fun k => k.domainJob.isSome && k.job.isSome with
  | some k => some k
  | none => s.crews.find? fun k => k.domainJob.isSome

/-- R620: a status report's body. -/
def State.report (s : State) : Bytes :=
  let rough := (List.range 36).any fun n => (s.portMode n == 1 || s.portMode n == 2) && match s.port n with
    | some p => p.state == 3 || p.state == 4
    | none => false
  let dstate := if s.faults.commonCause then 2 else if rough then 1 else 0
  let k := s.reportCrew
  let fences := (s.faults.fenceTimes.filter fun f => s.since f.2 < 3600000000).length
  let b := [0x01, byteOf dstate, byteOf ((k.bind (·.domainJob)).getD 0xFF), byteOf ((k.map (·.state)).getD 7)] ++
    leBytes 4 s.domain.reportSeq ++ leBytes 8 ((k.map (·.choices)).getD 0) ++
    leBytes 8 (((k.bind (·.job)).map fun j => (j.ranks.map (·.delivered)).sum).getD 0) ++ leBytes 4 fences ++
    leBytes 4 s.domain.portChanges ++ zeros 28
  b ++ leBytes 4 (crc32c b)

/-- R620: a worker sends a status report. -/
def State.sendReport (s : State) : State :=
  if s.domain.role != 2 then s
  else (s.sendPacket 0x04 3 0 none 0 s.report).modDomain fun d => { d with reportSeq := (d.reportSeq + 1) % 4294967296 }

/-- STATUS_REPORT_SEND. -/
def execStatusReportSend (s : State) : Host.Outcome State Fault Refusal := .next s.sendReport.settle

/-- R620: does a report's body check? -/
def reportOk (b : Bytes) : Bool := b.length == 64 && field b 0 1 == 1 && field b 60 4 == crc32c (b.take 60)

/-- R622, R623, R626: the manager takes a member's report: one whose number falls back shows a device reset. -/
def State.takeReport (s : State) : State :=
  match s.takeInbox 0x04 with
  | none => s
  | some (_, p, s) =>
    let b := pktBody p
    match s.workers.find? fun m => m.id == pktSrc p with
    | none => s
    | some m =>
      if s.domain.role != 1 || !reportOk b then s
      else if field b 4 4 < m.seq then s.loseWorker m.id
      else
        let chg := field b 28 4
        let s := s.modDomain fun d =>
          { d with members := updWhere (fun x => x.id == m.id) (fun x => { x with seq := field b 4 4, seen := s.uptime, portChg := chg }) d.members }
        let s := if chg != m.portChg then s.reroute else s
        if field b 1 1 == 2 then s.suspect m.id else s

/-- STATUS_REPORT_RECEIVE. -/
def execStatusReportReceive (s : State) : Host.Outcome State Fault Refusal := .next s.takeReport.settle

/-- R623: 3 StatusPeriods have passed without a report of a worker. -/
def State.reportTimeout (s : State) (id : Nat) : State := if s.domain.role == 1 then s.loseWorker id else s

/-- WORKER_REPORT_TIMEOUT. -/
def execWorkerReportTimeout (worker : Nat) (s : State) : Host.Outcome State Fault Refusal := .next (s.reportTimeout worker).settle

/-- R627: a worker's probation ends. -/
def State.endProbation (s : State) (id : Nat) : State :=
  if s.domain.role == 1 && s.workers.any fun m => m.id == id && m.probation then
    let s := s.modDomain fun d => { d with members := updWhere (fun m => m.id == id) (fun m => { m with probation := false }) d.members }
    s.controlAll 0x06 0 (leBytes 2 id ++ [0])
  else s

/-- WORKER_PROBATION_END. -/
def execWorkerProbationEnd (worker : Nat) (s : State) : Host.Outcome State Fault Refusal := .next (s.endProbation worker).settle

/-! ### Domain control (R621) -/

/-- R370, R609, R610: control 0x01: an id of 12 bits and a route table, or, with the address of a device without an id, an end of
membership. -/
def State.controlId (s : State) (ops : Bytes) : State :=
  if s.domain.role == 1 then s
  else
    let id := field ops 0 2 % 4096
    if noId ≤ id then s.modDomain Domain.left
    else s.modDomain fun d => { d with role := 2, deviceId := id, routes := routesOf ops }

/-- R612 to R614: control 0x02: an announcement, a member's claim, or the manager's verdict on it. -/
def State.controlOpen (s : State) (src job : Nat) (ops : Bytes) : State :=
  match field ops 0 1 with
  | 0 =>
    if s.domain.role != 2 then s
    else
      let s := s.modDomain fun d => { d with opened := (d.opened.filter fun o => o.1 != job) ++ [(job, field ops 8 16, ops.drop 24)] }
      (s.waitingOpens job).foldl (fun s x => s.openEpoch x.1 x.2) s
  | 1 =>
    if s.domain.role != 1 then s
    else match s.claim { job := job, member := src, first := field ops 8 4, count := field ops 12 4 } with
      | none => s.control src 0x02 job ([2] ++ zeros 7 ++ [3] ++ leBytes 2 src)
      | some s => (s.control src 0x02 job ([2] ++ zeros 7 ++ [0] ++ leBytes 2 src)).beginDealing job
  | 2 => if s.domain.role == 2 then s.claimAnswered job (field ops 8 1) (field ops 9 2) else s
  | _ => s

/-- R101, R613: control 0x03: the seed and an epoch boundary: the job's crew deals, and notes the boundary. A boundary outside the
job's epochs is not the job's. -/
def State.controlEpoch (s : State) (job : Nat) (ops : Bytes) : State :=
  let epoch := field ops 16 4
  let take (j : Job) : Job :=
    if jobE0 j.block ≤ epoch && epoch ≤ jobElast j.block then
      { j with seed := field ops 0 16, dealing := true, boundary := max j.boundary epoch }
    else j
  { s with crews := s.crews.map fun k => if k.domainJob == some job then { k with job := k.job.map take } else k }

/-- R623: control 0x04: a domain job is aborted. -/
def State.controlAbort (s : State) (job : Nat) (ops : Bytes) : State :=
  let crews := (s.crews.filter fun c => c.job.isSome && c.domainJob == some job).map (·.num)
  let s := crews.foldl (fun s n => s.raise { unit := 0x2C3, kind := 0x40, crew := some n, addr := field ops 0 2 }) s
  s.modDomain fun d => { d with opened := d.opened.filter fun o => o.1 != job, claims := d.claims.filter fun x => x.job != job }

/-- R626, R627: control 0x05: this device is expelled; at the manager, a member reports that two makings differ (DESIGN CHOICE). -/
def State.controlExpel (s : State) (ops : Bytes) : State :=
  let id := field ops 0 2
  if s.domain.role == 1 then (if s.workers.any fun m => m.id == id then s.expel id else s)
  else if id == s.domain.deviceId then s.modDomain Domain.left
  else s

/-- R627: control 0x06: a member's probation begins or ends. -/
def State.controlProbation (s : State) (ops : Bytes) : State :=
  let id := field ops 0 2
  s.modDomain fun d =>
    let rest := d.members.filter fun m => m.id != id
    { d with members := if field ops 2 1 == 1 then rest ++ [{ id := id, serial := zeros 16, cause := 0, route := [], probation := true }] else rest }

/-- R621: a domain control packet is taken. An order to copy a shard of a dataset that is not known yet waits behind the others. -/
def State.takeControl (s : State) : State :=
  match s.takeInbox 0x05 with
  | none => s
  | some (port, p, s) =>
    let b := pktBody p
    let job := field b 1 1
    let ops := b.drop 8
    match field b 0 1 with
    | 0x01 => s.controlId ops
    | 0x02 => s.controlOpen (pktSrc p) job ops
    | 0x03 => if s.domain.role == 2 then s.controlEpoch job ops else s
    | 0x04 => if s.domain.role == 1 then s else s.controlAbort job ops
    | 0x05 => s.controlExpel ops
    | 0x06 => if s.domain.role == 2 then s.controlProbation ops else s
    | 0x07 =>
      if s.domain.role != 2 then s
      else if (s.datasetOf (field ops 0 2)).isNone then s.modDomain fun d => { d with inbox := d.inbox ++ [byteOf port :: p] }
      else s.sendShard (field ops 0 2) (field ops 2 3) (field ops 6 2)
    | _ => s

/-- DOMAIN_CONTROL_RECEIVE. -/
def execDomainControlReceive (s : State) : Host.Outcome State Fault Refusal := .next s.takeControl.settle

/-! ### Route probes (R609, R621) -/

/-- R621: the answer to a probe; its way back beyond the port of arrival is not the packet's to tell: a free value. -/
def State.answerProbe (s : State) (port : Nat) (p : Bytes) : State :=
  let hops := pktHops p
  let route := port :: (List.range (hops - 1)).map fun i => Config.freeNat (s.free + i) % 64
  let body := [0x01] ++ zeros 7 ++ fitTo 16 s.fuses.serial ++ [byteOf port]
  (s.useFree (hops - 1)).sendRoute 0x06 0 (pktSrc p) route (pktTag p) body

/-- R609, R621: a route probe is answered; an answer is recorded while the manager forms its domain. -/
def State.takeProbe (s : State) : State :=
  match s.takeInbox 0x06 with
  | none => s
  | some (port, p, s) =>
    let b := pktBody p
    match field b 0 1 with
    | 0 => s.answerProbe port p
    | 1 =>
      if s.domain.role == 1 && s.host.cmds.any fun c => c.opc == 0x04 && c.fid == 0x23 && c.wait == .probes then
        s.modDomain fun d => { d with answers := d.answers ++ [(slice b 8 16, tagRoute (pktTag p), field b 24 1 + 256 * pktSrc p)] }
      else s
    | _ => s

/-- ROUTE_PROBE_RECEIVE. -/
def execRouteProbeReceive (s : State) : Host.Outcome State Fault Refusal := .next s.takeProbe.settle

/-! ### Prepared samples (R102, R617, R618, R627) -/

/-- The crew of a domain job with its recipe and job. -/
def State.jobRun (s : State) (job : Nat) : Option Run :=
  match s.crews.find? fun k => k.domainJob == some job && k.job.isSome with
  | some k => s.run k.num
  | none => none

/-- R617: a prepare request's sample dealt to a context; while none is FREE, or no working buffer, the request waits. A request for a
sample that the job's dataset does not hold (R41) is discarded (DESIGN CHOICE). ATTEMPT 0 with the identifier that the permutation
gives asks for the original sample, any other request for the substitute of that attempt (DESIGN CHOICE). -/
def State.takePrepare (s : State) : State :=
  match s.takeInbox 0x01 with
  | none => s
  | some (_, p, s') =>
    let b := pktBody p
    let sid := field b 0 8
    match s'.jobRun (field b 13 1) with
    | none => s'
    | some r => if !sidValid r.job.manifest sid then s' else match s'.pickContext r.crew.num [] with
      | none => s
      | some n => match s'.drawWorking r.crew.num n with
        | (false, t) => { s with mem := t.mem }
        | (true, s') =>
          let epoch := field b 8 4
          let pos := field b 16 8
          let orig := r.job.sidAt epoch pos 0
          let a := field b 12 1
          s'.startCtx { num := n, st := .waitFlash, crew := r.crew.num, rank := field b 14 2, epoch := epoch, pos := pos,
                        tries := if a == 0 && sid == orig then 0 else a + 1, sid := sid, origSid := orig,
                        remote := some (pktSrc p, pktTag p) }

/-- PREPARE_REQUEST_RECEIVE. -/
def execPrepareRequestReceive (s : State) : Host.Outcome State Fault Refusal := .next s.takePrepare.settle

/-- Parts by offset joined into `total` bytes, once all are there. -/
def joinParts (total : Nat) (parts : List (Nat × Bytes)) : Option Bytes :=
  let rec go : Nat → Bytes → Option Bytes
    | 0, acc => if acc.length == total then some acc else none
    | n + 1, acc =>
      if total ≤ acc.length then (if acc.length == total then some acc else none)
      else match parts.find? fun p => p.1 == acc.length && !p.2.isEmpty with
        | some p => go n (acc ++ p.2)
        | none => none
  go (parts.length + 1) []

/-- The contribution that follows a prepared sample's header. -/
def sampleOut (seq : Bool) (b : Bytes) : Contribution :=
  if seq then .toks ((List.range (b.length / 4)).map fun i => field b (4 * i) 4) else .row b

/-- R266, R267, R618: a prepared sample is at the collector. -/
def State.arrive (s : State) (c : Context) (r : Run) (src : Nat) (bytes : Bytes) (probation : Bool) : State :=
  let h := Hdr.decode (bytes.take 64)
  let s := s.modCtx c.num fun x =>
    { x with out := some (sampleOut r.rc.seq (bytes.drop 64)), hdr := { h with probation := h.probation || probation }, st := .sent,
             via := some src, askedTag := none }
  s.modJob c.crew fun j => { j with releases := j.releases ++ [c.num] }

/-- R627: two members' makings differ: each on probation is expelled; a worker tells its manager. -/
def State.differing (s : State) (a b : Nat) : State :=
  let bad := [a, b].filter fun d => s.domain.members.any fun m => m.id == d && m.probation
  bad.foldl (fun s d => if s.domain.role == 1 then s.expel d else s.control 0 0x05 0 (leBytes 2 d)) s

/-- R618, R627: a prepared sample is whole: it reaches the collector, or is kept for comparison with the other member's. One whose
compressed contribution does not check is made again (R228). -/
def State.wholeSample (s : State) (src tag : Nat) (coded : Bool) (got : Bytes) : State :=
  match s.contexts.find? fun c => c.askedTag == some tag with
  | none => s
  | some c => match s.run c.crew with
    | none => s
    | some r => match if coded then (uncodeBlocks got.length (got.drop 64)).map (got.take 64 ++ ·) else some got with
      | none => s.failMaking c
      | some bytes =>
        if !c.doubled then s.arrive c r src bytes false
        else match s.domain.compare.find? fun x => x.1 == tag with
          | none => (s.modDomain fun d => { d with compare := d.compare ++ [(tag, bytes)] }).modCtx c.num fun x => { x with via := some src }
          | some (_, other) =>
            let s := s.modDomain fun d => { d with compare := d.compare.filter fun x => x.1 != tag }
            if other == bytes then s.arrive c r src bytes true else s.differing src (c.via.getD src)

/-- R267: forwarded samples of a device at a crew's collector. -/
def State.forwarded (s : State) (crew src : Nat) : Nat :=
  (s.contexts.filter fun c => c.crew == crew && c.via == some src && c.st == .sent).length

/-- R618: a part of a prepared sample is taken; it waits while its sender has 16 samples at the collector (R267). -/
def State.takePrepared (s : State) : State :=
  match s.takeInbox 0x02 with
  | none => s
  | some (_, p, s') =>
    let b := pktBody p
    let src := pktSrc p
    let tag := pktTag p
    match s'.contexts.find? fun c => c.askedTag == some tag with
    | none => s'.modDomain fun d => { d with partSamples := d.partSamples.filter fun x => !(x.src == src && x.tag == tag) }
    | some c =>
      if 16 ≤ s'.forwarded c.crew src then s
      else
        let total := field b 4 4
        let old := match s'.domain.partSamples.find? fun x => x.src == src && x.tag == tag with | some x => x.parts | none => []
        let parts := old ++ [(field b 0 4, b.drop 16)]
        let keep := s'.domain.partSamples.filter fun x => !(x.src == src && x.tag == tag)
        match joinParts total parts with
        | none => s'.modDomain fun d => { d with partSamples := keep ++ [{ src := src, tag := tag, total := total, parts := parts }] }
        | some bytes => (s'.modDomain fun d => { d with partSamples := keep }).wholeSample src tag (pktCoded p) bytes

/-- PREPARED_SAMPLE_RECEIVE. -/
def execPreparedSampleReceive (s : State) : Host.Outcome State Fault Refusal := .next s.takePrepared.settle

/-! ### Shard copies (R616, R619, R624) -/

/-- Block ranges of this device that a shard copy may not take: shards of datasets, open sinks and ingest streams, and copies. -/
def State.keptRanges (s : State) : List (Nat × Nat) :=
  (s.takenExtents.filter fun e => isLocal e.1) ++ s.sinks.map (fun k => (sinkSlba k.image, sinkNblk k.image)) ++
    s.host.ingests.map (fun g => (g.slba, g.nblk)) ++
    s.domain.copies.filterMap fun c => c.slba.map fun a =>
      (a, match s.datasetOf c.dset with
        | some d => match d.place.findIdx? fun p => p.1 == c.shard with | some i => shardBlocks (manSlen d.manifest i) | none => 0
        | none => 0)

/-- R616: where a copied shard is stored: the lowest range of blocks that nothing keeps and nothing has written (DESIGN CHOICE). -/
def State.roomFor (s : State) (n : Nat) : Option Nat :=
  let kept := s.keptRanges ++ (s.media.map.filter fun u => u.1 == 0).map fun u => (4 * u.2.1, 4)
  argmin id ((0 :: kept.map fun r => r.1 + r.2).filter fun a => a + n ≤ s.media.capacity && !kept.any fun r => overlaps a n r.1 r.2)

/-- R619, R624: a whole shard written to this device, which is to hold it. -/
def State.storeCopy (s : State) (dset shard : Nat) (b : Bytes) : State :=
  let n := shardBlocks b.length
  match s.roomFor n with
  | none => s
  | some a => match s.media.write a n (fitTo (4096 * n) b) with
    | none => s
    | some (seqs, m) =>
      let s := s.setMedia m
      let mine (c : Copy) : Bool := c.dset == dset && c.shard == shard && c.dst == s.domain.deviceId
      let put (c : Copy) : Copy := { c with slba := some a, seqs := seqs, parts := [] }
      s.modDomain fun d => { d with copies := updWhere mine put d.copies }

/-- A part of a copy that this device receives kept; a copy nobody ordered here before is entered. -/
def Domain.addPart (d : Domain) (dset shard src off : Nat) (b : Bytes) : Domain :=
  let mine (c : Copy) : Bool := c.dset == dset && c.shard == shard && c.dst == d.deviceId
  let d := if d.copies.any mine then d else { d with copies := d.copies ++ [{ dset := dset, shard := shard, src := src, dst := d.deviceId }] }
  { d with copies := updWhere mine (fun c => { c with parts := c.parts ++ [(off, b)] }) d.copies }

/-- Parts received here of a copy. -/
def State.copyParts (s : State) (dset shard : Nat) : List (Nat × Bytes) :=
  match s.domain.copies.find? fun c => c.dset == dset && c.shard == shard && c.dst == s.domain.deviceId with
  | some c => c.parts
  | none => []

/-- A copy that this device received leaves the record. -/
def State.dropCopy (s : State) (dset shard : Nat) : State :=
  s.modDomain fun d => { d with copies := d.copies.filter fun c => !(c.dset == dset && c.shard == shard && c.dst == d.deviceId) }

/-- R615, R616: registration data and tables from the manager: the dataset enters the catalogue with the shards this device holds, and
its holders are noted. Shards held here already stay where they are. -/
def State.takeDomainTables (s : State) (dset : Nat) : State :=
  let parts := s.copyParts dset tableShard
  let head := ((parts.find? fun p => p.1 == 0).map (·.2)).getD []
  let mlen := field head 48 4
  let n := field head 76 4
  let size := 64 + mlen + 16 * n
  match joinParts (size + 8 * ceilDiv n 64) parts with
  | none => s
  | some b =>
    let data := b.take size
    let t := b.drop size
    let mirrorOf (m : Nat) : Option Nat := if m == 0xFFFF then none else some m
    let ps := (List.range (ceilDiv n 64)).map fun i =>
      Placement.mk dset i (field t (8 * i) 2) (mirrorOf (field t (8 * i + 2) 2))
    let d := registered data
    let held (n : Nat) : Option (Nat × Nat) := (s.datasetOf dset).bind fun x => x.place.find? fun q => q.1 == n && isLocal q.2
    let mine (i : Nat) (p : Nat × Nat) : Nat × Nat :=
      match held p.1 with
      | some q => q
      | none => if regDevice data i == s.domain.deviceId then p else (p.1, farBlock (regDevice data i) p.2)
    let place := d.place.zipIdx.map fun x => mine x.2 x.1
    let s := (s.dropCopy dset tableShard).addDataset { d with place := place }
    s.modDomain fun x => { x with placements := (x.placements.filter fun p => p.dset != dset) ++ ps }

/-- R619: a part of a shard copy arrives; a whole shard is written to this device. -/
def State.takeExchange (s : State) : State :=
  match s.takeInbox 0x03 with
  | none => s
  | some (_, p, s) =>
    let b := pktBody p
    let dset := field b 0 2
    let shard := field b 2 3
    let off := field b 8 8
    match if pktCoded p then uncodeBlocks 2 (b.drop 16) else some (b.drop 16) with
    | none => s
    | some data =>
    if shard == tableShard then
      if s.domain.role != 2 then s
      else
        let s := if off == 0 then s.dropCopy dset tableShard else s
        (s.modDomain fun d => d.addPart dset shard (pktSrc p) off data).takeDomainTables dset
    else match s.datasetOf dset with
      | none => s
      | some d => match d.place.findIdx? fun q => q.1 == shard with
        | none => s
        | some i =>
          if isLocal (d.place.getD i (0, 0)).2 then s
          else
            let s := s.modDomain fun x => x.addPart dset shard (pktSrc p) off data
            match joinParts (manSlen d.manifest i) (s.copyParts dset shard) with
            | none => s
            | some bytes => s.storeCopy dset shard bytes

/-- EXCHANGE_DATA_RECEIVE. -/
def execExchangeDataReceive (s : State) : Host.Outcome State Fault Refusal := .next s.takeExchange.settle

/-- R616: the copy that this device received counts as programmed: the shard is registered here. -/
def State.copyHeld (s : State) (dset shard : Nat) : State :=
  match s.domain.copies.find? fun c => c.dset == dset && c.shard == shard && c.dst == s.domain.deviceId with
  | none => s
  | some c => match c.slba with
    | none => s
    | some a =>
      if c.seqs.any s.media.under then s
      else
        let put (d : Dataset) : Dataset := { d with place := d.place.map fun p => if p.1 == shard then (p.1, a) else p }
        let s := { s with catalogue := updWhere (fun d => d.dset == dset) put s.catalogue }
        s.dropCopy dset shard

/-- R616, R624: the manager learns that a copy is whole. -/
def State.copyDone (s : State) (dset shard : Nat) : State :=
  match s.domain.copies.find? fun c => c.dset == dset && c.shard == shard && c.dst != s.domain.deviceId with
  | none => s
  | some c =>
    let s := s.modDomain fun d =>
      ({ d with copies := d.copies.erase c, restored := if c.restore then d.restored + 1 else d.restored } : Domain).progress
    s.settleCopies

/-- R616, R624: a shard copy is whole, at its new holder or at the manager. -/
def State.copyWhole (s : State) (dset shard : Nat) : State :=
  let s := s.copyHeld dset shard
  if s.domain.role == 1 then s.copyDone dset shard else s

/-- SHARD_COPY_DONE. -/
def execShardCopyDone (dset shard : Nat) (s : State) : Host.Outcome State Fault Refusal := .next (s.copyWhole dset shard).settle

/-! ### Opening that waits (R612, R614) -/

/-- R614: 60 s have passed and the manager crew has not opened. -/
def State.openTimeout (s : State) (crew : Nat) : State :=
  match s.host.cmds.find? fun c => c.opc == 0x21 && c.wait == .manager && c.crew == crew with
  | none => s
  | some c => match (s.crew crew).bind (·.domainJob) with
    | none => s
    | some job => if (s.announced job).isSome then s else s.complete c (refusal 0 4)

/-- MANAGER_OPEN_TIMEOUT. -/
def execManagerOpenTimeout (crew : Nat) (s : State) : Host.Outcome State Fault Refusal := .next (s.openTimeout crew).settle

end Sys2Proof.Machine
end

