-- ==== Sys2Proof/Machine/SampleRows.lean ====
section
/-!
DEFINITION. Meanings of the commands of samples: dealing (R167 to R169), fetched blocks and unit results (R57, R165), the work cap (R152),
crabs (R170 to R174), releases and the collector (R232, R264 to R267), parity (R263, R291, R309, R647, R648), lost packets (R32) and
resident copies (R290).
-/
namespace Sys2Proof.Machine

/-! ### Dealing and running -/

/-- DEAL_POSITION. -/
def execDealPosition (crew : Nat) (s : State) : Host.Outcome State Fault Refusal := .next (s.deal crew).settle

/-- What stages came to: the context as it now stands, or a drop. A peer making that would drop yields nothing, which is no match for
the making it is compared with (R653, DEDUCED). -/
def State.outcome (s : State) (r : Run) (c : Context) : Context ⊕ Drop → State
  | .inl c' => s.modCtx c.num fun _ => c'
  | .inr why =>
    if c.peerOf.isSome then s.modCtx c.num fun x => { x with out := none, st := .sent }
    else s.dropSample r c why

/-- R57, R125, R447: a record's blocks arrive. A working buffer not drawn yet is drawn first. -/
def State.blocksArrive (s : State) (n : Nat) : State :=
  match s.ctx n with
  | none => s
  | some c => match s.run c.crew with
    | none => s
    | some r =>
      if c.st != .waitFlash || !s.media.mounted then s
      else
        let (ok, s') := if s.hasRef (.context n) then (true, s) else s.drawWorking c.crew n
        if !ok then s'
        else match stageFetch r c (readRecord s'.media (r.job.slbaOf c.sid) (c.sid % 2 ^ 24)) with
          | .inl c' => s'.outcome r c (runStages r 33 c')
          | .inr why => s'.outcome r c (.inr why)

/-- FLASH_BLOCK_ARRIVE. -/
def execFlashBlockArrive (ctx : Nat) (s : State) : Host.Outcome State Fault Refusal := .next (s.blocksArrive ctx).settle

/-- R165: a unit's result arrives and the context runs on. -/
def State.unitResult (s : State) (n : Nat) : State :=
  match s.ctx n with
  | none => s
  | some c => match s.run c.crew with
    | none => s
    | some r =>
      if c.st != .waitUnit || c.askedTag.isSome then s
      else match stageUnit s r c (rcpStage r.rc.image c.stage) with
        | (s', .inl c') => s'.outcome r c (runStages r 33 { c' with st := .run })
        | (s', .inr why) => s'.outcome r c (.inr why)

/-- UNIT_RESULT_ARRIVE. -/
def execUnitResultArrive (ctx : Nat) (s : State) : Host.Outcome State Fault Refusal := .next (s.unitResult ctx).settle

/-- R152, R175: the check finds a counter beyond the cap. -/
def State.capAbort (s : State) (n : Nat) : State :=
  match s.ctx n with
  | none => s
  | some c => match s.run c.crew with
    | none => s
    | some r => if c.capStage.isSome && c.st != .sent then s.outcome r c (.inr .capped) else s

/-- WORK_CAP_ABORT. -/
def execWorkCapAbort (ctx : Nat) (s : State) : Host.Outcome State Fault Refusal := .next (s.capAbort ctx).settle

/-! ### Crabs (R170 to R174) -/

/-- R172, R173: a sample is counted as a crab, its position at most once per epoch, and kind 0x10 is raised. -/
def State.noteCrab (s : State) (c : Context) (j : Job) : State :=
  let s := s.raiseEngine c 0x10 c.epoch
  if j.crabs.contains (c.epoch, c.pos) then s
  else
    let s := s.modCrew c.crew fun k => { k with crabCount := (k.crabCount + 1) % 4294967296 }
    s.modJob c.crew fun j => { j with crabs := j.crabs ++ [(c.epoch, c.pos)] }

/-- R170 to R174, R415: a sample exceeds its budget. One whose counter has passed the cap is dropped and then counted. -/
def State.crabExpiry (s : State) (n : Nat) : State :=
  match s.ctx n with
  | none => s
  | some c => match s.run c.crew with
    | none => s
    | some r =>
      if c.crab then s
      else if c.capStage.isSome then (s.outcome r c (.inr .capped)).noteCrab c r.job
      else ((s.modCtx n fun x => { x with crab := true }).noteCrab c r.job).judgeCrabs c.crew

/-- CRAB_BUDGET_EXPIRY. -/
def execCrabBudgetExpiry (ctx : Nat) (s : State) : Host.Outcome State Fault Refusal := .next (s.crabExpiry ctx).settle

/-! ### Release and the collector -/

/-- The bytes of a prepared sample: header and contribution (R618). -/
def preparedBytes (h : Hdr) : Contribution → Bytes
  | .row b => h.encode ++ b
  | .toks ids => h.encode ++ ids.flatMap (leBytes 4)

/-- R165, R267, R617, R618: a sample prepared for another device is sent to it in parts while one of the 16 credits at that crew's
collector is left; its contribution is compressed where the job's exchange mode says so (R227, R228). -/
def State.sendPrepared (s : State) (r : Run) (c : Context) (dst tag : Nat) (out : Contribution) : State :=
  if 16 ≤ (s.contexts.filter fun x => x.crew == c.crew && x.st == .sent && (x.remote.map (·.1)) == some dst).length then s
  else
    let plain := preparedBytes c.hdr out
    let on := r.job.exchange == 1
    let (coded, bad) := codeBlocks plain.length (plain.drop 64)
    let b := if on then plain.take 64 ++ coded else plain
    let s := if on && bad then s.compressFault c.crew 0 else s
    let s := (List.range (ceilDiv b.length 4080)).foldl (fun s i =>
      s.sendPacket 0x02 (if on then codedVc 2 else 2) dst (some c.crew) tag
        (leBytes 4 (4080 * i) ++ leBytes 4 b.length ++ leBytes 8 c.sid ++ slice b (4080 * i) 4080)) s
    s.modCtx c.num fun x => { x with st := .sent }

/-- R232, R264, R653: a complete sample is released while its engine holds a credit; one made on a unit on probation gets a peer. -/
def State.releaseSample (s : State) (n : Nat) : State :=
  match s.ctx n with
  | none => s
  | some c => match s.run c.crew, c.out with
    | some r, some out =>
      if c.st != .release then s
      else match c.remote with
        | some (dst, tag) => s.sendPrepared r c dst tag out
        | none =>
          if !s.hasCredit r c then s
          else if c.peerOf.isSome then s.modCtx n fun x => { x with st := .sent }
          else
            let doubt := !(s.doubted c).isEmpty
            let s := s.modCtx n fun x => { x with st := .sent, probation := doubt }
            let s := s.modJob c.crew fun j => { j with releases := j.releases ++ [n] }
            if doubt then s.startPeer c [c.engine] else s
    | _, _ => s

/-- SAMPLE_RELEASE. -/
def execSampleRelease (ctx : Nat) (s : State) : Host.Outcome State Fault Refusal := .next (s.releaseSample ctx).settle

/-- COLLECTOR_ACCEPT. -/
def execCollectorAccept (crew : Nat) (s : State) : Host.Outcome State Fault Refusal := .next (s.collect crew).settle

/-! ### Parity and lost packets (R32, R263, R645 to R648) -/

/-- R435, R438: the address that kind 0x01 names: in a DRAM tier the device data address of the line that holds the byte, elsewhere the
word's. -/
def parityAddr (unit addr : Nat) : Nat := if (dramTier unit).isSome then addr / 64 * 64 else addr

/-- R438, R462, R646: kind 0x01 against the unit that owns the storage; the DRAM buffer that holds the byte is suspect. -/
def State.parityFault (s : State) (unit addr sub : Nat) (phys : Option Nat) (crew : Option Nat) (sid : Nat) : State :=
  let s := s.raise { unit := unit, sub := sub, kind := 0x01, phys := phys, crew := crew, ctx := some (parityAddr unit addr, sid) }
  match dramTier unit with
  | some t => s.suspectAt t addr
  | none => s

/-- R263: frames of a batch's writes leave the transmit queues. -/
def State.dropBatchWrites (s : State) (crew rank k : Nat) : State :=
  let keep (f : Frame) : Bool := match f.body with
    | .write _ r b _ _ _ _ _ _ _ => !(f.crew == some crew && r == rank && b == k)
    | _ => true
  { s with ports := s.ports.map fun p => { p with queues := p.queues.map fun q => q.keep keep } }

/-- R263, R647: the record of a sample whose row or staged contribution met a parity error, and the records with it. -/
def rewriteOf (ws : List Rewrite) (place epoch pos : Nat) : List Rewrite × Rewrite :=
  let mine (w : Rewrite) : Bool := w.place == place && w.epoch == epoch && w.pos == pos
  let w : Rewrite := match ws.find? mine with
    | some w => { w with retries := w.retries + 1, awaited := true }
    | none => { place := place, epoch := epoch, pos := pos, retries := 0, avoid := [], awaited := true }
  (ws.filter (fun w => !mine w) ++ [w], w)

/-- R263: the sample that a header stands for is made again, from flash and at the same position, to be rewritten in place. -/
def State.remakeRow (s : State) (r : Run) (h : Hdr) (w : Rewrite) (at_ : RewriteAt) : State :=
  let tries := if h.substituted then h.attempt + 1 else 0
  let c : Context := { num := 16384, st := .waitFlash, crew := r.crew.num, rank := h.rank, epoch := h.epoch, pos := w.pos,
                       tries := tries, sid := h.sid, origSid := r.job.sidAt h.epoch w.pos 0, retries := w.retries, avoid := w.avoid,
                       rewrite := some at_, exhausted := h.sid == 0 }
  match s.pickContext r.crew.num w.avoid with
  | some n => s.remakeIn c n
  | none => s.remakeLater c

/-- R263: a read of a batch buffer meets a parity error: every sample whose bytes occupy the row is made again and rewritten in place,
and the transmission starts again from offset 0 after that. -/
def State.batchParity (s : State) (crew rank k slot unit addr : Nat) : State :=
  match s.run crew with
  | none => s
  | some r => match r.job.batch rank k with
    | none => s
    | some b =>
      let hs := b.hdrs.filter fun h => h.slot == slot
      let sid := match hs.head? with | some h => h.sid | none => 0
      let s := s.parityFault unit addr 0 none (some crew) sid
      let s := hs.foldl (fun s h =>
        let (ws, w) := rewriteOf b.rewrites slot h.epoch (r.job.maker h)
        let s := s.exhaustRetries crew w.retries h.epoch h.sid w.pos
        (s.modJob crew fun j => j.modBatch rank k fun x => { x with rewrites := ws }).remakeRow r h w (.row rank k slot)) s
      if b.tx != .sending then s
      else (s.dropBatchWrites crew rank k).modJob crew fun j => j.modBatch rank k fun b => { b with tx := .idle }

/-- R263: a read of a heat's staging buffer meets a parity error: the sample is made again and rewritten in place. -/
def State.heatParity (s : State) (crew rank epoch heat index unit addr : Nat) : State :=
  match s.run crew with
  | none => s
  | some r => match r.job.heat rank epoch heat with
    | none => s
    | some h => match h.items.find? fun i => i.1 == index with
      | none => s
      | some (_, hd, _) =>
        let s := s.parityFault unit addr 0 none (some crew) hd.sid
        let (ws, w) := rewriteOf h.rewrites index hd.epoch (r.job.maker hd)
        let s := s.exhaustRetries crew w.retries hd.epoch hd.sid w.pos
        (s.modJob crew fun j => j.modHeat rank epoch heat fun x => { x with rewrites := ws }).remakeRow r hd w (.item rank epoch heat index)

/-- R72: a granule of the i-th array shard of a dataset as the media hold it: does it pass its check? -/
def State.granuleGood (s : State) (ds : Dataset) (i g : Nat) : Bool :=
  (readGranule s.media (ds.place.getD i (0, 0)).2 (4096 * (1 + arrayGranules ds.manifest i)) g).1.isSome

/-- R288 to R290: a granule of a resident copy copied and checked. -/
def State.copyGranule (s : State) (dset i g : Nat) : State :=
  match s.dataset dset with
  | none => s
  | some ds =>
    let fresh (x : Resident) : Bool := x.dset == dset && x.shard == i && g < arrayGranules ds.manifest i && !x.granules.contains g
    if s.media.mounted && s.granuleGood ds i g then
      { s with residents := updWhere fresh (fun x => { x with granules := x.granules ++ [g] }) s.residents }
    else s

/-- RESIDENT_COPY_GRANULE. -/
def execResidentCopyGranule (dset shard granule : Nat) (s : State) : Host.Outcome State Fault Refusal :=
  .next (s.copyGranule dset shard granule).settle

/-- R291: a context's read of a resident granule meets a parity error: the granule is read from flash again and rewritten, when it
passes, and the sample is made again. -/
def State.residentParity (s : State) (n dset i g unit addr : Nat) : State :=
  match s.ctx n with
  | none => s
  | some c =>
    if s.residents.any fun x => x.dset == dset && x.shard == i && x.granules.contains g then
      let s := s.parityFault unit addr 0 none (some c.crew) c.sid
      let good := match s.dataset dset with | some ds => s.granuleGood ds i g | none => false
      let s := if good then s
        else { s with residents := updWhere (fun x => x.dset == dset && x.shard == i)
                        (fun x => { x with granules := x.granules.filter fun y => y != g }) s.residents }
      s.failMaking c
    else s

/-- R645 to R648: a read meets a parity error. -/
def State.parity (s : State) : ParityAt → State
  | .context n unit phys sub addr => match s.ctx n with
    | none => s
    | some c => (s.parityFault unit addr sub (some phys) (some c.crew) c.sid).failMaking c
  | .batch crew rank k slot unit addr => s.batchParity crew rank k slot unit addr
  | .heat crew rank epoch heat index unit addr => s.heatParity crew rank epoch heat index unit addr
  | .resident n dset i g unit addr => s.residentParity n dset i g unit addr
  | .vocabulary v n unit addr =>
    if !s.vocabs.any fun x => x.num == v then s
    else match s.ctx n with
      | none => s
      | some c => (s.parityFault unit addr 0 none (some c.crew) c.sid).failMaking c
  | .stream sink num unit addr => match s.stream sink num with
    | none => s
    | some t => (s.parityFault unit addr 0 none ((s.sink sink).map Sink.crew) 0).abortStream t

/-- PARITY_ERROR. -/
def execParityError (at_ : ParityAt) (s : State) : Host.Outcome State Fault Refusal := .next (s.parity at_).settle

/-- R32: a request gets no response: its sample is made again, whether it waits or its release is on its way. -/
def State.noResponse (s : State) (n : Nat) : State :=
  match s.ctx n with
  | none => s
  | some c => if c.st == .run then s else s.failMaking c

/-- MISSING_RESPONSE. -/
def execMissingResponse (ctx : Nat) (s : State) : Host.Outcome State Fault Refusal := .next (s.noResponse ctx).settle

end Sys2Proof.Machine
end

