-- ==== Sys2Proof/Machine/PoolRows.lean ====
section
/-!
DEFINITION. Meanings of the commands of the buffer pool manager ("Memory tiers and the buffer pool manager"): requests and frees of agents
whose buffers the other commands do not draw themselves, named owners (R451 to R454), caches (R448) and suspect buffers (R462).
-/
namespace Sys2Proof.Machine

/-- R444 to R447: a request for a buffer. When it is short, a request of classes 4 to 6 waits; the others have what their own commands do. -/
def State.request (s : State) (use : BufUse) (holder bytes : Nat) : State :=
  if s.mem.pools.isEmpty || bytes == 0 then s
  else match s.alloc use (requestRef s.mem.next) bytes [ownerId (useClass use) holder] with
    | (true, s) => s
    | (false, s) =>
      if 4 ≤ useClass use then { s with mem := { s.mem with waiting := s.mem.waiting ++ [{ use := use, holder := holder, bytes := bytes }] } }
      else s

/-- BUFFER_ALLOCATE. -/
def execBufferAllocate (use : BufUse) (holder bytes : Nat) (s : State) : Host.Outcome State Fault Refusal :=
  .next (s.request use holder bytes).settle

/-- R452, R454: a requester frees a buffer or leaves its list; one that is not an owner, as of a buffer freed already, is refused. -/
def State.freeBuffer (s : State) (requester id : Nat) : State :=
  match s.mem.bufs.find? fun b => b.id == id with
  | none => s.raise { unit := 0x2C2, kind := 0x31, addr := requester }
  | some b =>
    if !b.owners.contains requester then s.raise { unit := 0x2C2, kind := 0x31, addr := requester }
    else
      let s := s.leave requester b
      ({ s with residents := s.residents.filter fun r => s.mem.bufs.any fun b => b.ref == .resident r.dset r.shard } : State).serveWaiting

/-- BUFFER_FREE. -/
def execBufferFree (requester buffer : Nat) (s : State) : Host.Outcome State Fault Refusal := .next (s.freeBuffer requester buffer).settle

/-- R452, R455: an owner joins the list of a buffer that has owners, when its quota holds the buffer's full size. -/
def State.addOwner (s : State) (owner id : Nat) : State :=
  match s.mem.bufs.find? fun b => b.id == id with
  | none => s
  | some b =>
    let p := s.payer b.use owner
    if b.owners.isEmpty || b.owners.contains owner || 64 ≤ b.owners.length || !s.affords p b.tier b.bytes then s
    else { s with mem := { s.mem with
      bufs := updWhere (fun x => x.id == id) (fun x => { x with owners := x.owners ++ [owner], payers := x.payers ++ [p] }) s.mem.bufs } }

/-- OWNER_ADD. -/
def execOwnerAdd (owner buffer : Nat) (s : State) : Host.Outcome State Fault Refusal := .next (s.addOwner owner buffer).settle

/-- R448: a class's cache is refilled from the ring or returned to it. -/
def State.tendCache (s : State) (tier pool cls : Nat) : State :=
  if cls < 7 then { s with mem := s.mem.modPool tier pool fun p => p.tend cls } else s

/-- POOL_CACHE_REFILL. -/
def execPoolCacheRefill (tier pool cls : Nat) (s : State) : Host.Outcome State Fault Refusal := .next (s.tendCache tier pool cls).settle

/-- R447: what waits for a buffer: class, tier and bytes of the requests that wait, of the vocabularies and grammars whose load has no
buffer (R302, R325), and of the rollout records that await one (R444). -/
def State.poolWaits (s : State) : List (Nat × Nat × Nat) :=
  (s.mem.waiting.map fun w => (useClass w.use, usePreferred w.use, w.bytes)) ++
  ((s.host.cmds.filter fun c => c.opc == 0x04 && (c.fid == 0x40 || c.fid == 0x42) && c.wait == .ready &&
    !(s.drawVocab 0 (c.data.length - 8)).1).map fun c => (5, 0, c.data.length - 8)) ++
  ((s.streams.filter fun t => t.ended.isSome && !t.kept &&
    !(s.alloc .rolloutRecord (recordRef t.sink t.num) t.body.length [ownerId 5 t.sink]).1).map fun t => (5, 1, t.body.length))

/-- R447: a request of classes 4 to 6 has waited for more than 1 s. ADDR holds the pool in [7:0] and the tier in [15:8] (DESIGN CHOICE). -/
def State.exhaustedPool (s : State) (cls tier pool : Nat) : State :=
  if s.poolWaits.any fun w => w.1 == cls && w.2.1 == tier && fitPool w.2.2 == pool then
    s.raise { unit := 0x2C2, kind := 0x30, addr := pool + 256 * tier }
  else s

/-- POOL_EXHAUSTED. -/
def execPoolExhausted (cls tier pool : Nat) (s : State) : Host.Outcome State Fault Refusal := .next (s.exhaustedPool cls tier pool).settle

/-- R462: the test of a quarantined buffer ends. The operand names it by 2^35 × tier + 2^32 × pool + index (DESIGN CHOICE). -/
def State.quarantineDone (s : State) (b : Nat) (passed : Bool) : State :=
  let i := b % 2 ^ 32
  let done (p : Pool) : Pool :=
    if !p.quarantine.contains i then p
    else
      let p := { p with quarantine := p.quarantine.erase i }
      if passed then { p with back := p.back ++ [i] } else { p with gone := p.gone ++ [i] }
  ({ s with mem := s.mem.modPool (b / 2 ^ 35) (b / 2 ^ 32 % 8) done } : State).serveWaiting

/-- QUARANTINE_TEST_DONE. -/
def execQuarantineTestDone (buffer : Nat) (passed : Bool) (s : State) : Host.Outcome State Fault Refusal :=
  .next (s.quarantineDone buffer passed).settle

end Sys2Proof.Machine
end

