-- ==== Sys2Proof/Machine/DictRows.lean ====
section
/-!
DEFINITION. Meanings of the dictionary's rows: READ, WRITE, OPEN, PROVE, CLOSE and their timers (R664 to R679), the objects whose writes
have rows of their own (R343, R353, R398, R527, R637, R673, R680, R681, R688, R711, R713, R716), SPDM (R714, R715) and the addresses of MCTP
and I3C (R672).
-/
namespace Sys2Proof.Machine

/-! ### READ -/

/-- DICTIONARY_READ (R664). -/
def execDictionaryRead (m : DictMsg) (s : State) : Host.Outcome State Fault Refusal := s.onRequest m (dmOp m == 1) fun s => s.dictRead m

/-! ### Sessions -/

/-- R679: sessions a transport holds or has offered. -/
def State.sessionsOn (s : State) (t : Transport) : Nat := (s.dict.sessions.filter fun x => x.t == t).length

/-- R675: a session id not in use: a free value among the nonzero ones. -/
def State.freshSid (s : State) : Nat :=
  let cand (i : Nat) : Nat := 1 + (s.freeVal + i) % 4294967295
  cand (((List.range 16).find? fun i => !s.dict.sessions.any fun x => x.sid == cand i).getD 0)

/-- R675: are a role and a key slot of it named? -/
def slotOk (role slot : Nat) : Bool :=
  match role with
  | 1 => within 1 8 slot
  | 2 => within 1 4 slot
  | 3 => slot == 0
  | _ => false

/-- R675, R679: OPEN. -/
def State.dictOpen (s : State) (m : DictMsg) : State :=
  let v := dmValue m
  let role := field v 0 1
  let slot := field v 1 1
  if dmSid m != 0 && (s.openSession m).isNone then s.respond m { status := 0x32 }
  else if s.dict.lockouts.contains m.transport then s.respond m { status := 0x31 }
  else if v.length != 4 || !slotOk role slot || (s.roleKey role slot).isEmpty then s.respond m { status := 0x02 }
  else if 4 ≤ s.sessionsOn m.transport then s.respond m { status := 0x04 }
  else
    let sid := s.freshSid
    let s := s.useFree
    let nonce := s.freeBytes 48
    let x : Session := { sid := sid, t := m.transport, addr := m.addr, role := role, slot := slot, nonce := nonce, isOpen := false }
    ((s.useFree 48).modSessions fun l => l ++ [x]).respond m { status := 0x00, value := leBytes 4 sid ++ nonce }

/-- DICTIONARY_OPEN. -/
def execDictionaryOpen (m : DictMsg) (s : State) : Host.Outcome State Fault Refusal := s.onRequest m (dmOp m == 3) fun s => s.dictOpen m

/-- R676: what a PROVE signs. -/
def State.proveText (s : State) (x : Session) : Bytes :=
  x.nonce ++ fitTo 16 s.fuses.serial ++ [byteOf x.role, byteOf x.slot, byteOf (transportCode x.t)] ++ fitTo 8 x.addr

/-- R676, R679, R682: a failed PROVE: counted, audited, and the fifth within 60 s locks the transport out. -/
def State.proveFailed (s : State) (m : DictMsg) (x : Option Session) : State :=
  let s := s.audit (match x with
    | some x => { s.auditOf x 2 (transportCode m.transport) with time := dmTime m }
    | none => { kind := 2, transport := transportCode m.transport, time := dmTime m })
  let fails := (m.transport, s.uptime) :: s.dict.fails.filter fun f => s.since f.2 < 60000000
  let lock := 5 ≤ (fails.filter fun f => f.1 == m.transport).length && !s.dict.lockouts.contains m.transport
  let d := s.dict
  { s with dict := { d with fails := fails, lockouts := if lock then d.lockouts ++ [m.transport] else d.lockouts,
                            authFailures := (d.authFailures + 1) % 4294967296 } }

/-- R676: PROVE. -/
def State.dictProve (s : State) (m : DictMsg) : State :=
  match (s.sessionOf m).filter fun x => !x.isOpen with
  | none => (s.proveFailed m none).respond m { status := 0x32 }
  | some x =>
    if (dmValue m).length == 96 && ecdsaVerify (s.roleKey x.role x.slot) (sha384 (s.proveText x)) (dmValue m) then
      if s.auditRefuses then s.respond m { status := 0x04 }
      else
        let n := s.dict.jseq
        let s := s.audit { s.auditOf x 1 (transportCode m.transport) with time := dmTime m }
        (s.modSession x.sid fun y => { y with isOpen := true }).respond m { status := 0x00, jseq := n }
    else ((s.proveFailed m (some x)).dropSession x.sid).respond m { status := 0x32 }

/-- DICTIONARY_PROVE. -/
def execDictionaryProve (m : DictMsg) (s : State) : Host.Outcome State Fault Refusal := s.onRequest m (dmOp m == 4) fun s => s.dictProve m

/-- R678: CLOSE. -/
def State.dictClose (s : State) (m : DictMsg) : State :=
  if dmSid m == 0 then s.respond m { status := 0x31 }
  else match s.openSession m with
    | none => s.respond m { status := 0x32 }
    | some x => (s.dropSession x.sid).respond m { status := 0x00 }

/-- DICTIONARY_CLOSE. -/
def execDictionaryClose (m : DictMsg) (s : State) : Host.Outcome State Fault Refusal := s.onRequest m (dmOp m == 5) fun s => s.dictClose m

/-- R678, R682: a session, or an offered id, that has timed out: audited and gone. -/
def State.sessionTimedOut (s : State) (sid : Nat) (opened : Bool) : State :=
  match s.dict.sessions.find? fun x => x.sid == sid && x.isOpen == opened with
  | some x => (s.audit (s.auditOf x 3 (transportCode x.t))).dropSession sid
  | none => s

/-- PROVE_TIMEOUT (R676): 10 s after an OPEN without a PROVE. -/
def execProveTimeout (sid : Nat) (s : State) : Host.Outcome State Fault Refusal := .next (s.sessionTimedOut sid false).settle

/-- SESSION_TIMEOUT (R678): SessionTimeout without a request. -/
def execSessionTimeout (sid : Nat) (s : State) : Host.Outcome State Fault Refusal := .next (s.sessionTimedOut sid true).settle

/-- OCTS_SEGMENT_TIMEOUT (R665): 10 s without a segment. -/
def execOctsSegmentTimeout (sid : Nat) (s : State) : Host.Outcome State Fault Refusal :=
  .next (s.modSession sid fun x => { x with octs := none }).settle

/-- AUTH_LOCKOUT_EXPIRY (R679): the 60 s are over. -/
def execAuthLockoutExpiry (t : Transport) (s : State) : Host.Outcome State Fault Refusal :=
  .next ({ s with dict := { s.dict with lockouts := s.dict.lockouts.filter fun x => x != t } } : State).settle

/-! ### WRITE of an object with no row of its own -/

/-- Objects whose writes have rows of their own. -/
def ownRow (idx : Nat) (v : Bytes) : Bool :=
  (0x4180 ≤ idx && idx ≤ 0x41A3) || (0x9000 ≤ idx && idx ≤ 0x9003) ||
  [0x5001, 0x6001, 0x4000, 0x4004, 0x1200, 0x1201, 0x1208, 0x8020, 0x8022, 0x8005, 0x300A].contains idx ||
  (idx == 0x3000 && (v == [0] || v == [2] || v == [3]))

/-- R721: can an enabled wake source fire under these settings? -/
def canWake (sources mask timer : Nat) : Bool :=
  sources % 2 == 1 || sources / 4 % 4 != 0 || (sources / 2 % 2 == 1 && mask != 0) || (sources / 16 % 2 == 1 && timer != 0)

/-- R721: can an enabled wake source fire? -/
def State.wakes (s : State) : Bool := canWake (s.num 0x3004 0) (s.num 0x3006 0) (s.num 0x3007 0)

/-- R443, R721, R529: what the owning rules check of a write beside its range. -/
def State.plainFail (s : State) (w : DictWrite) : Option DictFail :=
  let bad : Option DictFail := some (0x02, none)
  match w.idx with
  | 0x5800 =>
    let tier := (w.sub - 1) / 6
    let others := (((List.range 6).map fun i => 6 * tier + 1 + i).filter fun k => k != w.sub).map fun k => s.num 0x5800 k
    if 1024 < w.num + others.sum then bad else none
  | 0x5003 => if geomPositions s.media.geom != 0 && geomPositions s.media.geom ≤ w.num then bad else none
  | 0x3004 => if s.power.state == 2 && !canWake w.num (s.num 0x3006 0) (s.num 0x3007 0) then bad else none
  | 0x3006 => if s.power.state == 2 && !canWake (s.num 0x3004 0) w.num (s.num 0x3007 0) then bad else none
  | 0x3007 => if s.power.state == 2 && !canWake (s.num 0x3004 0) (s.num 0x3006 0) w.num then bad else none
  | _ => none

/-- R397: the bucket of a queue filled up to now under the settings as they stand. -/
def State.settleBucket (s : State) (port q : Nat) (f : TxQueue → TxQueue) : State :=
  s.modPort port fun p => { p with queues := p.queues.zipIdx.map fun (t, i) => if i == q then f (s.fillBucket port q t) else t }

/-- R661: a plain write takes effect; a new ShaperRate counts from now (R398). -/
def plainAct (s : State) (w : DictWrite) : State :=
  let s := if 0x4140 ≤ w.idx && w.idx ≤ 0x4163 then s.settleBucket (w.idx - 0x4140) (w.sub - 1) (fun t => t) else s
  match objRow w.idx w.sub with
  | some r => if r.ty == .octs then putOcts s w else putNum s w
  | none => s

/-- R665, R667: the rule of a write of an object with no row of its own. -/
def plainRule : WriteRule := { fail := State.plainFail, act := plainAct }

/-- DICTIONARY_WRITE. -/
def execDictionaryWrite (m : DictMsg) (s : State) : Host.Outcome State Fault Refusal := s.writeRow m (fun i v => !ownRow i v) plainRule

/-! ### Keys, defaults, calibration -/

/-- R678, R680: sessions on a key slot close. -/
def closeSlot (s : State) (w : DictWrite) : State :=
  let role := if w.idx == 0x1200 then 1 else 2
  s.modSessions fun l => l.filter fun x => !(x.role == role && x.slot == w.sub)

/-- R680: the rule of a key slot. -/
def keyRule : WriteRule := { act := putOcts, after := closeSlot }

/-- KEY_SLOT_WRITE. -/
def execKeySlotWrite (m : DictMsg) (s : State) : Host.Outcome State Fault Refusal :=
  s.writeRow m (fun i _ => i == 0x1200 || i == 0x1201) keyRule

/-- DEVICE_CLAIM (R673). -/
def execDeviceClaim (m : DictMsg) (s : State) : Host.Outcome State Fault Refusal :=
  s.onRequest m (dmOp m == 2 && s.claims m) fun s => s.claimWrite m { act := putOcts }

/-- R681: is an object restored by DictionaryDefaults? -/
def restored (idx : Nat) : Bool := !(0x1200 ≤ idx && idx ≤ 0x12FF) && !(0x9000 ≤ idx && idx ≤ 0x9FFF)

/-- The PortMode written, and the port retrains in its new mode (R343, R457). -/
def State.remodePort (s : State) (n : Nat) : State := ((s.trainPort n).releaseIngress n).chargeIngress n

/-- An operation on every transmit queue of every port, in order. -/
def State.eachQueue (s : State) (f : State → Nat → Nat → State) : State :=
  (List.range 36).foldl (fun s n => (List.range 64).foldl (fun s q => f s n q) s) s

/-- R397, R398: every bucket filled up to now under the settings as they stand. -/
def State.settleBuckets (s : State) : State := s.eachQueue fun s n q => s.settleBucket n q fun t => t

/-- R397: every bucket held to its ShaperBurst. -/
def State.capBuckets (s : State) : State :=
  s.eachQueue fun s n q => s.settleBucket n q fun t => { t with bucket := min t.bucket (s.shaperBurst n q * 32768) }

/-- The ports whose mode differs from what it was in state `old`. -/
def State.modesChanged (s old : State) : List Nat := (List.range 36).filter fun n => old.portMode n != s.portMode n

/-- R681: a state whose values have changed from `old`: the ports in `changed` take their new mode, and buckets their new limits. -/
def State.remodePorts (s : State) (changed : List Nat) : State :=
  let t := (changed.foldl State.remodePort s).capBuckets
  if changed.isEmpty || !t.started then t else t.recheckTimed.reroute

/-- R681: every writable object outside the Roles, Audit and Calibration ranges at its default; ports whose mode that changes retrain
in it. -/
def restoreDefaults (s : State) (_ : DictWrite) : State :=
  let old := s.settleBuckets
  let s := { old with dict := { old.dict with values := old.dict.values.filter fun v => !restored v.1.1 } }
  s.remodePorts (s.modesChanged old)

/-- R681: the rule of a write of 1 (and of a value out of range) to DictionaryDefaults. -/
def defaultsRule : WriteRule :=
  { fail := fun s _ => match s.firstCrew fun c => c.state != 0 with | some n => some (0x03, some n) | none => none
    act := restoreDefaults
    kind := 6 }

/-- DICTIONARY_DEFAULTS. -/
def execDictionaryDefaults (m : DictMsg) (s : State) : Host.Outcome State Fault Refusal :=
  s.writeRow m (fun i v => i == 0x1208 && v != [2]) defaultsRule

/-- R680: every key slot is emptied. -/
def emptyKeys (s : State) (_ : DictWrite) : State :=
  { s with dict := { s.dict with values := s.dict.values.filter fun v => v.1.1 != 0x1200 && v.1.1 != 0x1201 } }

/-- R678, R680: sessions on every key slot close. -/
def closeSlots (s : State) (_ : DictWrite) : State := s.modSessions fun l => l.filter fun x => x.role == 3

/-- R680, R681: the rule of a write of 2 to DictionaryDefaults: the maker's. -/
def unclaimRule : WriteRule :=
  { fail := fun _ w => if w.role == 3 then none else some (0x31, none), act := emptyKeys, after := closeSlots }

/-- DICTIONARY_UNCLAIM. -/
def execDictionaryUnclaim (m : DictMsg) (s : State) : Host.Outcome State Fault Refusal :=
  s.writeRow m (fun i v => i == 0x1208 && v == [2]) unclaimRule

/-- R688: a calibration object written: CalOrigin of its set says by whom. -/
def calibrate (s : State) (w : DictWrite) : State :=
  let s := if w.idx == 0x9000 || w.idx == 0x9003 then putOcts s w else putNum s w
  { s with dict := { s.dict with calOrigin := s.dict.calOrigin.set (w.idx - 0x9000) (if w.role == 3 then 2 else 1) } }

/-- R688: the rule of a calibration object; its range is judged by the role (R689). -/
def calRule : WriteRule := { act := calibrate }

/-- CALIBRATION_WRITE. -/
def execCalibrationWrite (m : DictMsg) (s : State) : Host.Outcome State Fault Refusal :=
  s.writeRow m (fun i _ => 0x9000 ≤ i && i ≤ 0x9003) calRule

/-! ### Licences and reset -/

/-- R711: the checks of a licence. -/
def State.licenceCheck (s : State) (w : DictWrite) : Option DictFail :=
  match licenceFail s.fuses w.value with
  | some st => some (st, none)
  | none =>
    if s.startup.licences.any fun l => !l.isEmpty && licenceId l == licenceId w.value then some (0x02, none)
    else if s.startup.licences.all fun l => !l.isEmpty then some (0x04, none)
    else none

/-- R711: the licence stored in the lowest free slot. -/
def installLicence (s : State) (w : DictWrite) : State :=
  match s.startup.licences.findIdx? List.isEmpty with
  | some i => { s with startup := { s.startup with licences := s.startup.licences.set i w.value } }
  | none => s

/-- R711: it takes effect when the response leaves. -/
def enableLicence (s : State) (w : DictWrite) : State :=
  match s.startup.licences.findIdx? fun l => l == w.value with
  | some i => { s with startup := { s.startup with licenceValid := s.startup.licenceValid ||| 2 ^ i } }
  | none => s

/-- R711: the rule of LicenceInstall. -/
def licenceRule : WriteRule := { fail := State.licenceCheck, act := installLicence, after := enableLicence, kind := 5 }

/-- LICENCE_INSTALL. -/
def execLicenceInstall (m : DictMsg) (s : State) : Host.Outcome State Fault Refusal := s.writeRow m (fun i _ => i == 0x8020) licenceRule

/-- The slot of an installed licence id. -/
def State.licenceSlot (s : State) (lid : Nat) : Option Nat := s.startup.licences.findIdx? fun l => !l.isEmpty && licenceId l == lid

/-- R713: the slot of a licence freed. -/
def removeLicence (s : State) (w : DictWrite) : State :=
  match s.licenceSlot w.num with
  | some i =>
    let u := s.startup
    let valid := if u.licenceValid / 2 ^ i % 2 == 1 then u.licenceValid - 2 ^ i else u.licenceValid
    { s with startup := { u with licences := u.licences.set i [], licenceValid := valid } }
  | none => s

/-- R713: the rule of LicenceRemove. -/
def licenceRemoveRule : WriteRule :=
  { fail := fun s w => if (s.licenceSlot w.num).isSome then none else some (0x02, none), act := removeLicence }

/-- LICENCE_REMOVE. -/
def execLicenceRemove (m : DictMsg) (s : State) : Host.Outcome State Fault Refusal :=
  s.writeRow m (fun i _ => i == 0x8022) licenceRemoveRule

/-- R716: the rule of DeviceReset: the reset follows the response. -/
def resetRule : WriteRule := { act := fun s _ => s, after := fun s _ => (s.deviceReset 3).tryStart }

/-- DEVICE_RESET_WRITE. -/
def execDeviceResetWrite (m : DictMsg) (s : State) : Host.Outcome State Fault Refusal := s.writeRow m (fun i _ => i == 0x8005) resetRule

/-! ### Media, faults, ports -/

/-- R527: the crews that keep a format from running: those not EMPTY and those of open sinks. -/
def State.formatCrews (s : State) : List Nat := ((s.crews.filter fun c => c.state != 0).map (·.num)) ++ s.sinks.map Sink.crew

/-- R527: the format begins; MediaFormat reads 1 until it ends, and what was mounted is UNFORMATTED meanwhile. A mount under way
goes on first. -/
def beginFormat (s : State) (_ : DictWrite) : State :=
  let m := s.media
  let gone (n : Nat) : Nat := if n ≤ 2 then 3 else n
  { s with media := { m with formatting := true, state := gone m.state, heldState := m.heldState.map gone } }

/-- R527: the rule of MediaFormat. -/
def formatRule : WriteRule :=
  { fail := fun s _ => match argmin (fun n => n) s.formatCrews with | some n => some (0x03, some n) | none => none
    act := beginFormat }

/-- MEDIA_FORMAT. -/
def execMediaFormat (m : DictMsg) (s : State) : Host.Outcome State Fault Refusal := s.writeRow m (fun i _ => i == 0x5001) formatRule

/-- R637: the n oldest entries removed. -/
def ackFaults (s : State) (w : DictWrite) : State :=
  let s := putNum s w
  { s with faults := { s.faults with queue := s.faults.queue.drop w.num } }

/-- R637: the rule of FaultAck. -/
def ackRule : WriteRule :=
  { fail := fun s w => if s.faults.queue.length < w.num then some (0x02, none) else none, act := ackFaults }

/-- FAULT_ACK. -/
def execFaultAck (m : DictMsg) (s : State) : Host.Outcome State Fault Refusal := s.writeRow m (fun i _ => i == 0x6001) ackRule

/-- R343: does a crew's open job use a port: a delivery target, or a route to another member of its domain? -/
def State.usesPort (s : State) (k : Crew) (n : Nat) : Bool :=
  match k.job with
  | none => false
  | some j => (j.ranks.any fun r => s.tgtPort r.target == some n) || (j.domainJob.isSome && s.domain.routes.any fun r => r.2.head? == some n)

/-- R342, R343: the checks of a PortMode write. -/
def State.modeFail (s : State) (w : DictWrite) : Option DictFail :=
  let n := w.sub - 1
  if w.num == 2 && 24 ≤ n && s.features / 4 % 2 == 0 then some (0x30, none)
  else match s.firstCrew fun k => within 2 5 k.state && s.usesPort k n with
    | some c => some (0x03, some c)
    | none => none

/-- R343: the port retrains in its new mode. -/
def setMode (s : State) (w : DictWrite) : State :=
  let s := (putNum s w).remodePort (w.sub - 1)
  if s.started then s.recheckTimed.reroute else s

/-- R343: the rule of PortMode. -/
def modeRule : WriteRule := { fail := State.modeFail, act := setMode }

/-- PORT_MODE_WRITE. -/
def execPortModeWrite (m : DictMsg) (s : State) : Host.Outcome State Fault Refusal := s.writeRow m (fun i _ => i == 0x4000) modeRule

/-- R353: a port retrained by request: one that runs keeps its unacknowledged flits, and the count is cleared. -/
def retrainPort (s : State) (w : DictWrite) : State :=
  let n := w.sub - 1
  let s := s.modPort n fun p => { p with recent := [] }
  match s.port n with
  | some p =>
    let s := if p.state == 2 || p.state == 3 then s.retrain n false else s.trainPort n
    s.modPort n fun p => { p with recent := [] }
  | none => s

/-- PORT_RETRAIN (R353). -/
def execPortRetrain (m : DictMsg) (s : State) : Host.Outcome State Fault Refusal := s.writeRow m (fun i _ => i == 0x4004) { act := retrainPort }

/-- R398: the bucket clipped to the new capacity. -/
def setBurst (s : State) (w : DictWrite) : State :=
  let n := w.idx - 0x4180
  let s := s.settleBucket n (w.sub - 1) (fun t => t)
  (putNum s w).settleBucket n (w.sub - 1) fun t => { t with bucket := min t.bucket (w.num * 32768) }

/-- SHAPER_BURST_WRITE (R398). -/
def execShaperBurstWrite (m : DictMsg) (s : State) : Host.Outcome State Fault Refusal :=
  s.writeRow m (fun i _ => 0x4180 ≤ i && i ≤ 0x41A3) { act := setBurst }

/-! ### SPDM (R714, R715) -/

/-- R715: a measurement block. -/
def State.measurement (s : State) (i : Nat) : Bytes :=
  let u := s.startup
  let run := u.running.getD 0
  let img := (s.slot run).image
  match i with
  | 1 => Config.bootRomDigest
  | 2 => sha384 (img.take (imgLen img))
  | 3 => [byteOf run, byteOf (imgSv img), byteOf s.securityCounter]
  | 4 => s.disabledMap
  | 5 => (u.licences.zipIdx.filter fun x => u.licenceValid / 2 ^ x.2 % 2 == 1).flatMap fun x =>
      leBytes 8 (licenceId x.1) ++ [byteOf (bits x.1 42 40)]
  | 6 => (List.range 64).flatMap s.jobFingerprint
  | 7 => s.dict.calOrigin.map byteOf
  | _ => []

/-- R715: what GET_MEASUREMENTS returns: for index 0 the number of blocks, for 255 all of them, else one. -/
def State.measurements (s : State) (i : Nat) : Bytes :=
  if i == 0 then [7]
  else if i == 255 then ((List.range 7).map (· + 1)).flatMap s.measurement
  else s.measurement i

/-- R714: SPDM request codes of version 1.3. -/
def spdmCode : SpdmReq → Nat
  | .getDigests => 0x81
  | .getCertificate _ => 0x82
  | .challenge _ => 0x83
  | .getVersion => 0x84
  | .getMeasurements _ _ => 0xE0
  | .getCapabilities => 0xE1
  | .negotiateAlgorithms => 0xE3
  | .keyExchange => 0xE4
  | .finish => 0xE5
  | .endSession => 0xEC
  | .ideKeys _ => 0xFE
  | .other c => c

/-- R714, R715: the body of a response, and whether the private identity key signs it. -/
def State.spdmAnswer (s : State) (r : SpdmReq) : Bytes × Bool :=
  let own := Config.spdmBody (spdmCode r) s.fuses.serial
  match r with
  | .getDigests => (sha384 Config.certificateChain, false)
  | .getCertificate n => if n == 0 then (Config.certificateChain, false) else (own, false)
  | .challenge n => (own, n == 0)
  | .getMeasurements i signed => if i ≤ 7 || i == 255 then (s.measurements i, signed) else (own, false)
  | .keyExchange => (own, true)
  | _ => (own, false)

/-- R596, R714: a secured session stands after FINISH until END_SESSION; IDE_KM in it gives a stream new keys. -/
def State.spdmEffect (s : State) (t : Transport) (r : SpdmReq) : State :=
  let l := s.dict.spdm
  match r with
  | .finish => { s with dict := { s.dict with spdm := if l.contains t then l else l ++ [t] } }
  | .endSession => { s with dict := { s.dict with spdm := l.filter fun x => x != t } }
  | .ideKeys n =>
    if t == .mailbox && l.contains t then
      let left := s.host.insecure.filter fun x => x != n
      { s with host := { s.host with insecure := left, ide := if left.isEmpty then 1 else 2 } }
    else s
  | _ => s

/-- R714: an SPDM request over the DOE mailbox (named as the mailbox) or MCTP; nowhere else is one answered. -/
def State.spdm (s : State) (t : Transport) (r : SpdmReq) : State :=
  if t == .t1s || !s.dictUp t then s
  else
    let (body, signed) := s.spdmAnswer r
    (s.send (.spdm t (spdmCode r) body signed)).spdmEffect t r

/-- SPDM_REQUEST. -/
def execSpdmRequest (t : Transport) (r : SpdmReq) (s : State) : Host.Outcome State Fault Refusal := .next (s.spdm t r).settle

/-! ### MCTP and I3C addresses (R672) -/

/-- SET_ENDPOINT_ID (R672). -/
def execSetEndpointId (eid : Nat) (s : State) : Host.Outcome State Fault Refusal :=
  .next (if s.dictUp .mctp then ({ s with dict := { s.dict with mctpEid := eid % 256 } } : State) else s).settle

/-- DYNAMIC_ADDRESS_ASSIGNMENT (R672). -/
def execDynamicAddressAssignment (addr : Nat) (s : State) : Host.Outcome State Fault Refusal :=
  .next (if s.dictUp .mctp then ({ s with dict := { s.dict with i3cDynamic := some addr } } : State) else s).settle

end Sys2Proof.Machine
end

