-- ==== Sys2Proof/Machine/FaultRows.lean ====
section
/-!
DEFINITION. Meanings of the commands of the fault collector (R631 to R640, R649 to R656).
-/
namespace Sys2Proof.Machine

/-! ### Messages (R631, R633, R634 to R640) -/

/-- R631, R633: the message that a block outside the model's own commands sends, with the severity programmed now. -/
def State.incoming (s : State) (f : FaultIn) : FaultMsg :=
  { unit := f.unit % 4096, sub := f.sub % 16, kind := f.kind % 256, sev := s.severity (f.unit % 4096) (f.kind % 256), phys := f.phys % 4096,
    crew := f.crew, addr := f.addr % 4294967296, count := max 1 (min 65535 f.count), ctx := f.ctx }

/-- R372, R429, R623: ports whose fence a fault asked for: the admissions are judged again, and a manager computes the routes again. -/
def State.reactedTo (s : State) (f : State → State) : State :=
  let t := (f s).settle
  if (List.range 36).any fun n => s.portUp n 1 && !t.portUp n 1 then t.recheckTimed.reroute.settle else t

/-- R635 to R637, R640: a message reaches the collector; `fresh` when the entry it would join is removed in the same cycle. -/
def State.faultIn (s : State) (f : FaultIn) (fresh : Bool) : State := if s.coxUp then s.take (s.incoming f) fresh else s

/-- FAULT_MESSAGE: R633 to R640: a block's message reaches the collector, which queues, scores and reacts to it. `sameCycleRemoval` is
R635's entry removed in the same cycle. -/
def execFaultMessage (f : FaultIn) (sameCycleRemoval : Bool) (s : State) : Host.Outcome State Fault Refusal :=
  .next (s.reactedTo fun s => s.faultIn f sameCycleRemoval)

/-- R633: the 1 ms window of a unit, SUB, kind and physical unit ends: the occurrences it counted leave as one message. -/
def State.flushWindow (s : State) (unit sub kind phys : Nat) : State :=
  let same (m : FaultMsg) : Bool := m.unit == unit && m.sub == sub && m.kind == kind && m.phys == phys
  match s.faults.windows.find? same with
  | none => s
  | some w =>
    let rest := s.faults.windows.filter fun m => !same m
    let more := if w.count == 0 then [] else [{ w with sev := s.severity unit kind }]
    { s with faults := { s.faults with windows := rest, transit := s.faults.transit ++ more } }

/-- FAULT_COALESCE_FLUSH: R633: the end of a window (`State.flushWindow`). -/
def execFaultCoalesceFlush (unit : FaultUnit) (sub kind : Nat) (s : State) : Host.Outcome State Fault Refusal :=
  .next (s.reactedTo fun s => s.flushWindow unit.unit sub kind unit.phys)

/-- R638: FaultVector is signalled for the entries not yet signalled. -/
def State.faultInterrupt (s : State) : State :=
  if s.faults.queue.any fun e => !e.signalled then
    let queue := s.faults.queue.map fun e => { e with signalled := true }
    ({ s with faults := { s.faults with queue := queue } } : State).signal (s.num 0x6004 0)
  else s

/-- FAULT_INTERRUPT. -/
def execFaultInterrupt (s : State) : Host.Outcome State Fault Refusal := .next s.faultInterrupt.settle

/-! ### Scores and windows (R649, R651, R652, R655, R656) -/

/-- R649: every score halved; scores of 0 are not listed. -/
def halved (l : List (UnitRef × Nat)) : List (UnitRef × Nat) := (l.map fun p => (p.1, p.2 / 2)).filter fun p => p.2 != 0

/-- R649, R651, R656: a multiple of 86,400 s of local uptime: scores halve, units now below 512 leave probation, and NOR is written. -/
def State.halveScores (s : State) : State :=
  if !s.coxUp then s
  else
    let f := { s.faults with scores := halved s.faults.scores }
    { s with faults := ({ f with probation := f.probation.filter fun u => 512 ≤ f.score u } : Faults).save }

/-- SCORE_HALVING. -/
def execScoreHalving (s : State) : Host.Outcome State Fault Refusal := .next s.halveScores.settle

/-- The window of fences that R620 reports: 3,600 s, in µs. -/
def reportWindow : Nat := 3600000000

/-- R652: fences of a crew that have left its window, and that of R620, by local uptime are forgotten. -/
def State.fenceWindowEnds (s : State) (crew : Nat) : State :=
  let keep (f : Nat × Nat) : Bool := f.1 != crew || s.since f.2 < max reportWindow (s.num 0x6011 0)
  { s with faults := { s.faults with fenceTimes := s.faults.fenceTimes.filter keep } }

/-- FENCE_WINDOW_EXPIRY. -/
def execFenceWindowExpiry (crew : Nat) (s : State) : Host.Outcome State Fault Refusal := .next (s.fenceWindowEnds crew).settle

/-- R655: crossings that have left the window by local uptime are forgotten; CommonCause returns to 0 at the limit or below. -/
def State.commonCauseEnds (s : State) : State :=
  let left := s.faults.crossings.filter fun t => s.since t < s.num 0x6014 0
  let cause := s.faults.commonCause && s.num 0x6013 0 < left.length
  { s with faults := { s.faults with crossings := left, commonCause := cause } }

/-- COMMON_CAUSE_WINDOW_EXPIRY. -/
def execCommonCauseWindowExpiry (s : State) : Host.Outcome State Fault Refusal := .next s.commonCauseEnds.settle

end Sys2Proof.Machine
end

