-- ==== Sys2Proof/Machine/HostRows.lean ====
section
/-!
DEFINITION. Meanings of the commands of the host interface: registers and doorbells (R533 to R537, R580 to R583), the write window
(R556 to R560), fetching and posting (R535, R536), and the link (R579, R586, R596, R597, R705).
-/
namespace Sys2Proof.Machine

/-- The CXL link is up and the hub answers it: host accesses reach the device. -/
def State.hostUp (s : State) : Bool := s.coxUp && s.host.speed != 0

/-- A host access takes effect, when the link carries it. -/
def State.onHost (s : State) (f : State → State) : Host.Outcome State Fault Refusal := .next (if s.hostUp then f s else s).settle

/-- ADMIN_QUEUE_CREATE (R582, R583). -/
def execAdminQueueCreate (s : State) : Host.Outcome State Fault Refusal := s.onHost State.writeAen

/-- ADMIN_QUEUE_DELETE (R582). -/
def execAdminQueueDelete (s : State) : Host.Outcome State Fault Refusal := s.onHost State.clearAen

/-- R10 to R12: a write to ASTS, perhaps with a set event of DEVERR in the same cycle. -/
def State.astsWrite (s : State) (value : BitVec 32) (setSameCycle : Bool) : State :=
  if value.getLsbD 2 then s.clearDeverr setSameCycle else if setSameCycle then s.setDeverr else s

/-- DEVERR_CLEAR. -/
def execDeverrClear (value : BitVec 32) (setSameCycle : Bool) (s : State) : Host.Outcome State Fault Refusal :=
  s.onHost fun s => s.astsWrite value setSameCycle

/-- SQTAIL_DOORBELL (R534, R582). -/
def execSqtailDoorbell (qid value : Nat) (s : State) : Host.Outcome State Fault Refusal :=
  s.onHost fun s => if qid < 256 then s.regWord (0x30000 + 8 * qid) (value % 4294967296) else s

/-- CQHEAD_DOORBELL (R534, R536, R582). -/
def execCqheadDoorbell (qid value : Nat) (s : State) : Host.Outcome State Fault Refusal :=
  s.onHost fun s => if qid < 256 then s.regWord (0x30000 + 8 * qid + 4) (value % 4294967296) else s

/-- SLICE_DONE_DOORBELL (R557, R582). -/
def execSliceDoneDoorbell (value : Nat) (s : State) : Host.Outcome State Fault Refusal :=
  s.onHost fun s => s.regWord 0x31000 (value % 4294967296)

/-- The bytes of BAR2 (R580). -/
def windowSize : Nat := 1073741824

/-- WRITE_WINDOW_WRITE (R557). -/
def execWriteWindowWrite (offset : Nat) (data : Bytes) (s : State) : Host.Outcome State Fault Refusal :=
  s.onHost fun s => if offset + data.length ≤ windowSize then s.windowWrite offset data else s

/-- REGISTER_WRITE (R580 to R582). -/
def execRegisterWrite (bar offset size value : Nat) (s : State) : Host.Outcome State Fault Refusal :=
  s.onHost fun s => s.regWrite bar offset size value

/-- A watched line that the cache holds again once it is read (R590). -/
def State.cacheLine (s : State) (n : Nat) : State :=
  if s.host.watched.contains n then s else { s with host := { s.host with watched := s.host.watched ++ [n] } }

/-- R533, R586, R587, R590, R337: a watched line read again, after a snoop or after a wake. -/
def State.lineRead (s : State) : WatchedLine → State
  | .queue q tail head =>
    match s.qp q with
    | none => s
    | some p =>
      if p.tailmode != 0 then s
      else
        let s := s.cacheLine q
        if p.err then s else (s.setHead q head).setTail q tail
  | .sink n consumer =>
    if (s.sink n).isSome then (s.cacheLine (256 + n)).modSink n fun k => { k with consumer := consumer } else s

/-- TAIL_LINE_SNOOP. -/
def execTailLineSnoop (line : WatchedLine) (s : State) : Host.Outcome State Fault Refusal := s.onHost fun s => if s.power.state ≤ 1 then s.lineRead line else s

/-- CAPSULE_FETCH (R535, R539, R555). -/
def execCapsuleFetch (capsule plist : Bytes) (s : State) : Host.Outcome State Fault Refusal :=
  .next (s.fetchCapsule capsule plist).settle

/-- May the device send on the link now (R596)? -/
def State.mayPost (s : State) : Bool := s.hostUp && s.host.insecure.isEmpty

/-- COMPLETION_POST (R536, R541). -/
def execCompletionPost (qid : Nat) (s : State) : Host.Outcome State Fault Refusal :=
  .next (if s.mayPost then s.post qid else s).settle

/-- TRANSFER_READY_GRANT (R556, R558). -/
def execTransferReadyGrant (qid cid first count : Nat) (s : State) : Host.Outcome State Fault Refusal :=
  .next (s.grant qid cid first count).settle

/-- GRANT_TIMEOUT (R559). -/
def execGrantTimeout (qid cid : Nat) (s : State) : Host.Outcome State Fault Refusal := .next (s.grantExpired qid cid).settle

/-- R579: a CXL.io read of the device failed. -/
def State.dmaFailed (s : State) (p : DmaPurpose) : State :=
  let count (s : State) : State := { s with host := { s.host with dmaErrors := (s.host.dmaErrors + 1) % 4294967296 } }
  match p with
  | .ring q => if (s.qp q).isSome then (count s).errQp q else s
  | .data q i => match s.cmd q i with
    | none => s
    | some c => ((count s).endGrants q i).complete c (.capsuleField 8)

/-- DMA_READ_ERROR. -/
def execDmaReadError (purpose : DmaPurpose) (s : State) : Host.Outcome State Fault Refusal := s.onHost fun s => s.dmaFailed purpose

/-- R596: an IDE stream becomes insecure. -/
def State.ideFailed (s : State) (stream : Nat) : State :=
  let old := s.host.insecure
  let s := { s with host := { s.host with ide := 2, insecure := if old.contains stream then old else old ++ [stream] } }
  s.raise { unit := 0x2C0, kind := 0x27, addr := stream }

/-- IDE_INTEGRITY_FAILURE. -/
def execIdeIntegrityFailure (stream : Nat) (s : State) : Host.Outcome State Fault Refusal :=
  s.onHost fun s => if s.host.ide == 0 then s else s.ideFailed stream

/-- R597, R578: a link reset by its kind; all but an FLR take the link down, and a conventional or hot reset trains it again. -/
def State.resetLink (s : State) (kind : LinkResetKind) : State :=
  if !s.coxUp then s else
    let s := s.linkReset
    let h := s.host
    let down := { h with speed := 0, width := 0, flit := 0, ide := 0, insecure := [] }
    let s := match kind with
      | .flr => s
      | .linkDown => { s with host := down }
      | .hot => { s with host := { down with training := !h.leftDown } }
      | .conventional => { s with host := { down with training := true, narrowTried := false, leftDown := false } }
    s.recheckTimed

/-- LINK_RESET. -/
def execLinkReset (kind : LinkResetKind) (s : State) : Host.Outcome State Fault Refusal := .next (s.resetLink kind).settle

/-- ELECTRICAL_IDLE_EXIT (R578, R705): a link that has not trained, or went down, trains again. -/
def execElectricalIdleExit (s : State) : Host.Outcome State Fault Refusal :=
  .next (if s.startup.cxlDone && s.power.state ≤ 1 && s.host.speed == 0 && !s.host.leftDown then
    { s with host := { s.host with training := true } } else s).settle

/-- INTERRUPT_DELAY_EXPIRY (R532): CTIME µs have passed since a completion that is not signalled. -/
def State.delayOver (s : State) (q : Nat) : State :=
  match s.qp q with
  | none => s
  | some p => if p.unsignalled == 0 || p.ctime == 0 then s else (s.modQp q fun x => { x with unsignalled := 0 }).signal p.vector

/-- INTERRUPT_DELAY_EXPIRY. -/
def execInterruptDelayExpiry (qid : Nat) (s : State) : Host.Outcome State Fault Refusal :=
  .next (if s.mayPost then s.delayOver qid else s).settle

end Sys2Proof.Machine
end

