-- ==== Sys2Proof/Machine/IngestRows.lean ====
section
/-!
DEFINITION. Meanings of the commands of ingest streams and of the compression slices (R221 to R229, R563).
-/
namespace Sys2Proof.Machine

/-! ### Opening (R563) -/

/-- R563, R554: the byte offset of the first field of an ingest header out of range. -/
def State.ingestBad (s : State) (b : Bytes) : Option Nat :=
  if !(field b 0 1 < 64 && !(s.host.ingests.any fun g => g.n == field b 0 1)) then some 0
  else if (s.crew (field b 1 1)).isNone then some 1
  else if 2 < field b 2 1 then some 2
  else if field b 4 4 % 4096 != 0 then some 4
  else if s.media.capacity < field b 8 8 + field b 16 8 then some (if s.media.capacity ≤ field b 8 8 then 8 else 16)
  else none

/-- R563: feature 0x08. -/
def State.openIngest (s : State) (c : Cmd) : State :=
  let b := c.data
  if c.short 32 then s.complete c (.capsuleField 16)
  else match s.ingestBad b with
    | some off => s.complete c (.dataField off)
    | none =>
      let g : Ingest := { n := field b 0 1, crew := field b 1 1, qid := c.qid, mode := field b 2 1, doff := field b 4 4,
                          slba := field b 8 8, nblk := field b 16 8, endOff := field b 4 4 }
      ({ s with host := { s.host with ingests := s.host.ingests ++ [g] } }).complete c .ok

/-- INGEST_OPEN. -/
def execIngestOpen (qid cid : Nat) (s : State) : Host.Outcome State Fault Refusal :=
  s.atCmd qid cid 0x04 (some 0x08) fun c s => s.openIngest c

/-! ### Blocks -/

/-- An ingest stream by number. -/
def State.ingest (s : State) (n : Nat) : Option Ingest := s.host.ingests.find? fun g => g.n == n

/-- An ingest stream changed. -/
def State.modIngest (s : State) (n : Nat) (f : Ingest → Ingest) : State :=
  { s with host := { s.host with ingests := updWhere (fun g => g.n == n) f s.host.ingests } }

/-- The end of the stored blocks with `more` cut into blocks as well. -/
def Ingest.endWith (g : Ingest) (more : Bytes) : Nat :=
  let b := g.pending ++ more
  (List.range (ceilDiv b.length 65536)).foldl
    (fun e i => up16 e + (compressBlock g.mode (slice b (65536 * i) 65536)).1.length) g.endOff

/-- Original bytes stored so far. -/
def Ingest.stored (g : Ingest) : Nat := g.olen - g.pending.length

/-- R481, R563: WRITEs whose full blocks are all stored wait for their programs, or complete under the cache. -/
def State.settleIngest (s : State) (n : Nat) : State :=
  match s.ingest n with
  | none => s
  | some g =>
    let done := g.writes.filter fun w => w.2.2 / 65536 * 65536 ≤ g.stored
    let s := s.modIngest n fun g => { g with writes := g.writes.filter fun w => !done.contains w }
    done.foldl (fun s w => match s.cmd w.1 w.2.1 with
      | some c => if c.wait == .blocks then s.awaitPrograms c c.seqs (s.writeCached c 0) else s
      | none => s) s

/-- Programs noted for the WRITEs of a stream that still wait for blocks. -/
def State.noteSeqs (s : State) (g : Ingest) (seqs : List Nat) : State :=
  g.writes.foldl (fun s w => s.modCmd w.1 w.2.1 fun c => if c.wait == .blocks then { c with seqs := c.seqs ++ seqs } else c) s

/-- R221 to R225: the next block of an ingest stream compressed and stored. -/
def State.ingestBlock (s : State) (n : Nat) : State :=
  match s.ingest n with
  | none => s
  | some g =>
    let orig := g.pending.take 65536
    let (b, bad) := compressBlock g.mode orig
    let off := up16 g.endOff
    let a := 4096 * g.slba + off
    let first := a / 4096
    let k := ceilDiv (a % 4096 + b.length) 4096
    match s.media.write first k (fitTo (4096 * k) (s.media.readBytes (4096 * first) (a % 4096) ++ b)) with
    | none => s
    | some (seqs, m) =>
      let s := if bad then s.compressFault g.crew g.blocks.length else s
      let s := (s.noteSeqs g seqs).modIngest n fun g =>
        { g with pending := g.pending.drop 65536, blocks := g.blocks ++ [(off, b.length, crc32c orig)], endOff := off + b.length }
      (s.setMedia m).settleIngest n

/-- Is an ingest close of the stream outstanding? -/
def State.ingestClosing (s : State) (n : Nat) : Bool :=
  s.host.cmds.any fun c => c.opc == 0x04 && c.fid == 0x09 && c.fval == n

/-- R222, R228: a compression slice serves the next block of its stream; a short block is served when the stream ends. -/
def State.compress (s : State) : BlockStream → State
  | .ingest n => match s.ingest n with
    | none => s
    | some g => if 65536 ≤ g.pending.length || (!g.pending.isEmpty && s.ingestClosing n) then s.ingestBlock n else s
  | .sink n => match s.sink n with
    | none => s
    | some k => if 65536 ≤ k.pending.length then s.storeBlock n else s
  | .exchange crew data =>
    if (((s.crew crew).bind (·.job)).map (·.exchange)) == some 1 && (compressBlock 1 (data.take 65536)).2 then s.compressFault crew 0 else s

/-- BLOCK_COMPRESS. -/
def execBlockCompress (stream : BlockStream) (s : State) : Host.Outcome State Fault Refusal :=
  .next (if s.media.mounted && !s.media.frozen then s.compress stream else s).settle

/-! ### WRITE with INGEST (R563) -/

/-- R563: original bytes handed to a stream. -/
def State.ingestData (s : State) (c : Cmd) : State :=
  s.mediaCmd c .readOnly fun s =>
    if s.overQuota c then s.complete c .quota else
    match s.ingest c.istream with
    | none => s.complete c (.capsuleField 32)
    | some g =>
      let data := c.data.take c.dlen
      let upTo := g.endWith data
      let from_ := g.slba + g.endOff / 4096
      let blocks := ceilDiv upTo 4096 - g.endOff / 4096
      if g.qid != c.qid || g.closedOnly || s.inExtent c g.slba g.nblk then s.complete c (.capsuleField 32)
      else if s.media.inSecure g.slba g.nblk then s
      else if s.media.state == 2 then s.complete c .readOnly
      else if 4096 * g.nblk < upTo then (s.modIngest g.n fun g => { g with closedOnly := true }).complete c (.capsuleField 16)
      else if s.media.over from_ blocks then s.noRoom c
      else
        let olen := g.olen + data.length
        let s := s.modIngest g.n fun g => { g with pending := g.pending ++ data, olen := olen, writes := g.writes ++ [(c.qid, c.cid, olen)] }
        let s := { s with media := { s.media with hostBytes := s.media.hostBytes + data.length } }
        (s.modCmd c.qid c.cid fun x => { x with wait := .blocks }).settleIngest g.n

/-- INGEST_WRITE. -/
def execIngestWrite (qid cid : Nat) (s : State) : Host.Outcome State Fault Refusal :=
  s.atCmd qid cid 0x11 none fun c s => if c.ingest then s.ingestData c else s

/-! ### Closing (R563) -/

/-- R51: a block table entry. -/
def blockEntry (x : Nat × Nat × Nat) : Bytes := leBytes 8 x.1 ++ leBytes 4 x.2.1 ++ leBytes 4 x.2.2

/-- Does every unit of a byte range count as programmed (R480)? -/
def Media.settled (m : Media) (a n : Nat) : Bool :=
  let first := a / unitBytes
  (List.range ((a + n + unitBytes - 1) / unitBytes - first)).all fun i => match m.entry 0 (first + i) with
    | some l => match m.pageAt l with | some p => p.prog == .whole | none => true
    | none => true

/-- R563: feature 0x09: the stream leaves once every block counts as programmed. -/
def State.closeIngest (s : State) (c : Cmd) : State :=
  match s.ingest c.fval with
  | none => s.complete c (.capsuleField 24)
  | some g =>
    let need := 16 * (g.blocks.length + ceilDiv g.pending.length 65536) + 16
    let waits := s.host.cmds.any fun d => d.opc == 0x11 && d.ingest && d.istream == g.n && d.order < c.order && d.untaken
    if waits then s
    else if c.dlen < need then s.complete c (.capsuleField 16)
    else if !g.pending.isEmpty || !s.media.settled (4096 * g.slba + g.doff) (g.endOff - g.doff) then s
    else
      let out := g.blocks.flatMap blockEntry ++ leBytes 8 g.olen ++ leBytes 8 g.endOff
      let s := { s with host := { s.host with ingests := s.host.ingests.filter fun x => x.n != g.n } }
      (s.toHost c out).complete c .ok

/-- INGEST_CLOSE. -/
def execIngestClose (qid cid : Nat) (s : State) : Host.Outcome State Fault Refusal :=
  s.atCmd qid cid 0x04 (some 0x09) fun c s => s.closeIngest c

end Sys2Proof.Machine
end

