-- ==== Sys2Proof/Machine/JobRows.lean ====
section
/-!
DEFINITION. Meanings of the job commands (R156 to R159, R564 to R574) and of what ends them.
-/
namespace Sys2Proof.Machine

/-! ### LOAD RECIPE -/

/-- R156, R157, R773: a recipe rejected; a status other than Recipe rejected writes no entry. -/
def State.rejectLoad (s : State) (c : Cmd) (f : LoadFail) : State :=
  let s := if f.status == 0x20 then
      s.modCrew c.crew fun k => { k with rejection := some (rejectionEntry f c.qid c.cid c.data s.us) } else s
  s.complete c { status := f.status }

/-- R156: LOAD RECIPE, checks 1 to 12; with set tables to build it waits for SET_TABLES_BUILT, which runs check 13. -/
def State.loadCmd (s : State) (c : Cmd) : State :=
  s.jobCmd c [0] fun k =>
    if s.media.stateCode == 5 then s
    else match loadRecipe s c.data with
      | .inr f => s.rejectLoad c f
      | .inl rc =>
        let sets := setStages rc.image
        if sets.isEmpty then (s.setLoaded k.num rc).complete c .ok
        else match s.takeTables k.num sets with
          | (false, t) => (s.afterFail t).complete c .quota
          | (true, s) => (s.modCrew k.num fun y => { y with loading := some rc }).modCmd c.qid c.cid fun x => { x with wait := .tables }

/-- LOAD_RECIPE. -/
def execLoadRecipe (qid cid : Nat) (s : State) : Host.Outcome State Fault Refusal := s.atCmd qid cid 0x20 none fun c s => s.loadCmd c

/-- R149, R151, R293: the bound set tables of a crew's LOAD RECIPE, whose earlier checks stand as passed, are built, or a granule of
them fails check 13. Kind 0x13 comes from the walk unit of the crew's lowest eight, with the granule as ADDR and the dataset and shard
in the place of the SID (DESIGN CHOICE). -/
def State.tablesBuilt (s : State) (crew : Nat) : State :=
  match s.host.cmds.find? fun c => c.opc == 0x20 && c.crew == crew && c.wait == .tables with
  | none => s
  | some c => match (s.crew crew).bind fun k => k.loading.map fun rc => (k, rc) with
    | none => s
    | some (k, rc) =>
      let s := s.modCrew crew fun y => { y with loading := none }
      match buildTables s rc.image with
      | .inl ts => (s.setLoaded crew { rc with tables := ts }).complete c .ok
      | .inr (i, dset, shard, g) =>
        let s := s.freeTables crew
        let e := k.eights.headD 0
        let s := s.raise { unit := 0x200 + e, sub := 4, kind := 0x13, phys := some (s.physEight e), crew := some crew, addr := g,
                           ctx := some (sampleId dset shard 0, 0) }
        s.rejectLoad c (reject 0x0B i)

/-- SET_TABLES_BUILT. -/
def execSetTablesBuilt (crew : Nat) (s : State) : Host.Outcome State Fault Refusal := .next (s.tablesBuilt crew).settle

/-! ### OPEN EPOCH -/

/-- R568, R694: OPEN EPOCH. -/
def State.openCmd (s : State) (c : Cmd) : State :=
  s.jobCmd c [1] fun k => if s.media.stateCode == 5 then s else s.openEpoch c k

/-- OPEN_EPOCH. -/
def execOpenEpoch (qid cid : Nat) (s : State) : Host.Outcome State Fault Refusal := s.atCmd qid cid 0x21 none fun c s => s.openCmd c

/-! ### REQUEST BATCHES -/

/-- R569, R570: REQUEST BATCHES. -/
def State.requestCmd (s : State) (c : Cmd) : State :=
  s.jobCmd c [2, 3, 4] fun k => match k.job with
    | none => s.complete c (.sequence (some k.num))
    | some j => match j.rank c.reqRank with
      | none => s.complete c (.capsuleField 20)
      | some x =>
        let held := (s.host.cmds.filter fun y => y.grantsRank k.num c.reqRank).length
        if 16 ≤ held then s.complete c .quota
        else
          let n := x.granted + c.reqCount
          let stamps := if j.mode == 2 then (List.range c.reqCount).map fun i => (x.granted + i, s.uptime) else []
          let s := s.modJob k.num fun j => j.modRank x.rank fun r => { r with granted := n, grantedAt := r.grantedAt ++ stamps }
          let s := s.modCmd c.qid c.cid fun y => { y with wait := .batches, first := x.granted }
          let s := if k.state == 2 then s.modCrew k.num fun y => { y with state := 3 } else s
          (s.answerGrants k.num x.rank).checkDrained k.num

/-- REQUEST_BATCHES. -/
def execRequestBatches (qid cid : Nat) (s : State) : Host.Outcome State Fault Refusal :=
  s.atCmd qid cid 0x22 none fun c s => s.requestCmd c

/-! ### SUSPEND and RESUME -/

/-- R573: is DLEN too short for the tokens of a job? -/
def Cmd.tokensShort (c : Cmd) (j : Job) : Bool := c.dlen < 64 * j.ranks.length

/-- R571: SUSPEND stops dealing and new transmissions, and then waits for those started. -/
def State.suspendCmd (s : State) (c : Cmd) : State :=
  s.jobCmd c [2, 3] fun k => match k.job with
    | none => s.complete c (.sequence (some k.num))
    | some j =>
      if c.tokensShort j then s.complete c (.capsuleField 16)
      else
        let s := s.modCrew k.num fun y => { y with state := 4, job := y.job.map fun j => { j with stopped := true } }
        s.modCmd c.qid c.cid fun x => { x with wait := .drain }

/-- SUSPEND. -/
def execSuspend (qid cid : Nat) (s : State) : Host.Outcome State Fault Refusal := s.atCmd qid cid 0x23 none fun c s => s.suspendCmd c

/-- The command of a crew that waits for its transmissions, once they have all finished. -/
def State.drainedCmd (s : State) (crew opc : Nat) : Option (Cmd × Run) :=
  match s.host.cmds.find? fun c => c.opc == opc && c.crew == crew && c.wait == .drain, s.run crew with
  | some c, some r => if r.job.sending then none else some (c, r)
  | _, _ => none

/-- R571: SUSPEND's started transmissions have finished: it writes the tokens and completes. -/
def State.suspendDrained (s : State) (crew : Nat) : State :=
  match s.drainedCmd crew 0x23 with
  | some (c, r) => s.writeTokens c r
  | none => s

/-- SUSPEND_DRAINED. -/
def execSuspendDrained (crew : Nat) (s : State) : Host.Outcome State Fault Refusal := .next (s.suspendDrained crew).settle

/-- R571: RESUME. -/
def State.resumeCmd (s : State) (c : Cmd) : State :=
  s.jobCmd c [4] fun k =>
    let s := s.modCrew k.num fun y => { y with state := 3, job := y.job.map fun j => { j with stopped := false } }
    (s.complete c .ok).checkDrained k.num

/-- RESUME. -/
def execResume (qid cid : Nat) (s : State) : Host.Outcome State Fault Refusal := s.atCmd qid cid 0x24 none fun c s => s.resumeCmd c

/-! ### CLOSE -/

/-- R572: CLOSE. From LOADED the recipe goes with its set tables and resident copies; otherwise dealing stops and the command waits for
the transmissions started. -/
def State.closeCmd (s : State) (c : Cmd) : State :=
  s.jobCmd c [1, 2, 3, 4, 5] fun k => match k.job with
    | none =>
      let s := (s.freeTables k.num).leaveResidents k.num
      (s.modCrew k.num fun y => { y with state := 0, recipe := none, residency := 0, graphAllowed := false }).complete c .ok
    | some j =>
      if c.tokensShort j then s.complete c (.capsuleField 16)
      else
        let s := s.modJob k.num fun j => { j with stopped := true }
        s.modCmd c.qid c.cid fun x => { x with wait := .drain }

/-- CLOSE. -/
def execClose (qid cid : Nat) (s : State) : Host.Outcome State Fault Refusal := s.atCmd qid cid 0x25 none fun c s => s.closeCmd c

/-- R572 steps 3 to 5: CLOSE's started transmissions have finished. -/
def State.closeDrained (s : State) (crew : Nat) : State :=
  match s.drainedCmd crew 0x25 with
  | some (c, r) => (s.endJob r).writeTokens c r
  | none => s

/-- CLOSE_DRAINED. -/
def execCloseDrained (crew : Nat) (s : State) : Host.Outcome State Fault Refusal := .next (s.closeDrained crew).settle

/-! ### RESET CREW -/

/-- R565, R574, R604: RESET CREW takes effect at once, whatever the crew is doing. -/
def State.resetCmd (s : State) (c : Cmd) : State :=
  match s.crew c.crew with
  | none => s.complete c (.capsuleField 4)
  | some k => (s.resetCrew k.num).complete c .ok

/-- RESET_CREW. -/
def execResetCrew (qid cid : Nat) (s : State) : Host.Outcome State Fault Refusal := s.atCmd qid cid 0x26 none fun c s => s.resetCmd c

end Sys2Proof.Machine
end

