-- ==== Sys2Proof/Machine/MediaRows.lean ====
section
/-!
DEFINITION. Meanings of the events of flash media management: reads and programs (R480, R484 to R487), relocation and erase (R488 to
R492), the patrol (R511 to R513), LUN failure and rebuild (R519 to R523), and the end of a format (R527).
-/
namespace Sys2Proof.Machine

/-- The media run: mounted, with no new program or erase held back. -/
def State.mediaRuns (s : State) : Bool := s.media.mounted && !s.media.frozen

/-- An event of the running media. -/
def State.onMedia (s : State) (f : State → State) : Host.Outcome State Fault Refusal :=
  .next (if s.mediaRuns then f s else s).settle

/-- R33: the unit id of the LUN that holds a place. -/
def Media.unitAt (m : Media) (l : Loc) : Nat :=
  match (m.group l.g).bind fun g => g.members[l.m]? with
  | some x => geomLunUnit m.geom x.1 x.2
  | none => 0x2C7

/-- R644: a fault of the LUN that holds a place. -/
def State.raiseLun (s : State) (l : Loc) (kind addr : Nat) : State := s.raise { unit := s.media.unitAt l, kind := kind, addr := addr }

/-! ### Reads (R485 to R487) -/

/-- R489: one valid page copied by relocation. -/
def Media.copyPage (m : Media) (p : Page) : Media :=
  if m.pages.any (fun x => x.source == some p.loc && x.prog != .whole) then m
  else match m.placeIn 1 { p with kind := 2, source := some p.loc, failures := 0 } (m.accepting p.loc.g) with
    | some (_, m) => m
    | none => m

/-- R519, R521: does a place lie on a failed member whose stripe is not rebuilt yet? -/
def Media.onFailed (m : Media) (l : Loc) : Bool :=
  match m.group l.g with
  | none => false
  | some gr => gr.failed.contains l.m &&
      !(gr.rebuilding == some l.m && ((m.stripes l.g).take gr.rebuilt).contains (l.k, l.p))

/-- R483, R485, R519: the stage at which a read ends that answers `stage` where its LUN works: a read of a failed LUN goes to stage 4, and
stage 4 finds nothing where the stripe has no parity yet or another page of it is on a failed LUN too. -/
def Media.stageAt (m : Media) (l : Loc) (stage : Nat) : Nat :=
  let stage := if stage < 4 && m.onFailed l then 4 else stage
  if stage == 4 && (!m.hasParity l || (List.range 16).any fun i => i != l.m && m.onFailed { l with m := i }) then 5 else stage

/-- R485 to R487: a page is read through the ladder up to `stage`, with the counters, faults and losses of that stage. -/
def State.readStage (s : State) (space lmu stage : Nat) (l : Loc) : State :=
  let lun := s.media.lunOf l
  let m := { s.media with bus := (lun.1, lun.2, NandOp.readPage (s.media.pageIndex l)) :: s.media.bus }
  match m.stageAt l stage with
  | 2 => ({ s with media := { m with readRetries := m.readRetries + 1, bus := (lun.1, lun.2, .setFeatures) :: m.bus } }).raiseLun l 0x50 (m.pageIndex l)
  | 4 =>
    let m' := match m.pageAt l with | some p => m.copyPage p | none => m
    ((s.setMedia { m' with reconstructions := m.reconstructions + 1 }).raiseLun l 0x51 (m.pageIndex l))
  | 5 =>
    let gr := (m.group l.g).getD { g := l.g, members := [] }
    let other := match gr.failed.find? fun i => i != l.m && m.onFailed { l with m := i } with
      | some i => m.failedUnit gr i
      | none => s.freeVal % 4096
    (((s.useFree).setMedia (m.lose 2 l.g (m.failedUnit gr l.m) other space lmu))).raise { unit := 0x2C7, kind := 0x54, addr := 1 }
  | _ => { s with media := m }

/-- NAND_READ_COMPLETE (R485). -/
def execNandReadComplete (space lmu stage : Nat) (s : State) : Host.Outcome State Fault Refusal :=
  s.onMedia fun s => match s.media.entry space lmu with
    | some l => s.readStage space lmu stage l
    | none => s

/-! ### Programs (R480, R484) -/

/-- The page under way with a program sequence number. -/
def Media.programOf (m : Media) (seq : Nat) : Option Page := m.pages.find? fun p => p.prog == .issued && p.seq == seq

/-- R643: a program that was in progress as the device stopped ends; no other starts. -/
def State.landPage (s : State) (l : Loc) : State :=
  ({ s with media := (s.media.mark l).settleWl l } : State).settlePrograms

/-- PAGE_PROGRAM_COMPLETE: R480: the program of the page with that SEQ reports success; after R643's stop it lands with nothing further started. -/
def execPageProgramComplete (seq : Nat) (s : State) : Host.Outcome State Fault Refusal :=
  .next (if s.media.mounted then
    match s.media.programOf seq with
    | some p => if s.media.frozen then s.landPage p.loc else s.setMedia (s.media.report p.loc)
    | none => s
  else s).settle

/-- R484: an awaited program replaced by the one made in its place. -/
def State.renameSeq (s : State) (old new : Nat) : State :=
  let swap (l : List Nat) : List Nat := l.map fun q => if q == old then new else q
  let m := s.media
  { s with host := { s.host with cmds := s.host.cmds.map fun c => { c with seqs := swap c.seqs } },
           sinks := s.sinks.map (fun k => { k with seals := k.seals.map fun x => { x with seqs := swap x.seqs } }),
           media := { m with cached := swap m.cached, records := m.records.map fun r => (swap r.1, r.2) } }

/-- R484, R510: a metadata page that failed for good takes back what the records in it stated. -/
def Media.dropRecords (m : Media) (seq : Nat) : Media :=
  let hit := m.records.filter fun r => r.1.contains seq
  hit.foldl (fun (m : Media) r => match r.2 with
    | .trim q => (m.dropTrims fun t => t.seq == q).buildMap (fun _ => true) true
    | .intent g k => m.modSblk g k fun x => { x with intent := false }
    | .done g k => match m.record (leBytes 1 g ++ leBytes 3 k) (.done g k) with | some (_, m) => m | none => m.eraseDone g k
    | _ => m) { m with records := m.records.filter fun r => !r.1.contains seq }

/-- R64, R484: a command whose program failed twice. -/
def State.failWrite (s : State) (c : Cmd) : State :=
  if c.registers then s.registrationFailed c { step := 6, status := 0x13, place := 5 }
  else
    let s := if c.opc == 0x04 && (c.fid == 0x40 || c.fid == 0x42) then
        s.freeRef fun b => b == (if c.fid == 0x40 then vocabRef (field c.data 0 1) else grammarRef (field c.data 0 1)) else s
    s.complete c .writeFault

/-- R478, R484: a unit whose program failed twice keeps what it held before, lost where it was lost; commands that awaited it end with
Write fault, a registration as failed at step 6 (R64), and a record of the metadata space it belonged to has not taken effect. -/
def State.writeFault (s : State) (p : Page) : State :=
  let m := s.media
  let m := m.dropRecords p.seq
  let back := (m.resolve p.space p.lmu fun q => q.loc != p.loc).map (·.loc)
  let m := if m.entry p.space p.lmu == some p.loc then m.setEntry p.space p.lmu (if p.wasLost then none else back) else m
  let m := if p.wasLost && !m.isLost p.space p.lmu then { m with lost := m.lost ++ [(p.space, p.lmu)] } else m
  let hit := s.host.cmds.filter fun c => c.wait == .programs && c.seqs.contains p.seq
  let s := hit.foldl State.failWrite s
  { s with media := m }

/-- R484, R492: a page program fails: its block is retired, and the page is programmed again in the next free page of another group,
once. -/
def State.programFailed (s : State) (p : Page) : State :=
  let l := p.loc
  let s := s.raiseLun l 0x52 (s.media.blockOf l)
  let retire (m : Media) : Media :=
    ({ m with pages := updWhere (fun q => q.loc == l) Page.dead m.pages }).retireBlock l.g l.k l.m
  let stream := if p.kind == 2 then 1 else if p.kind == 5 then 2 else 0
  let again := if p.failures == 0 then
      s.media.placeIn stream { p with failures := 1 } ((s.media.accepting (l.g + 1)).filter fun g => g != l.g) else none
  match again with
  | some (l', m) =>
    let m := if m.entry p.space p.lmu == some l && p.isData then m.setEntry p.space p.lmu (some l') else m
    let new := match m.pageAt l' with | some q => q.seq | none => 0
    let s := ({ s with media := m } : State).renameSeq p.seq new
    s.setMedia (retire s.media)
  | none =>
    let s := if p.isData then s.writeFault p else s
    s.setMedia (retire s.media)

/-- R643: a program that was in progress as the device stopped fails: nothing is programmed in its place, and commands that awaited it end
with Write fault. -/
def State.stoppedFailure (s : State) (p : Page) : State :=
  let s := s.raiseLun p.loc 0x52 (s.media.blockOf p.loc)
  let s := (s.host.cmds.filter fun c => c.wait == .programs && c.seqs.contains p.seq).foldl State.failWrite s
  { s with media := { s.media with pages := updWhere (fun q => q.loc == p.loc) Page.dead s.media.pages } }

/-- PROGRAM_FAILURE: R484: the program of the page with that SEQ fails. -/
def execProgramFailure (seq : Nat) (s : State) : Host.Outcome State Fault Refusal :=
  .next (if s.media.mounted then
    match s.media.programOf seq with
    | some p => if s.media.frozen then s.stoppedFailure p else s.programFailed p
    | none => s
  else s).settle

/-- WORD_LINE_TIMEOUT (R480). -/
def execWordLineTimeout (group stream : Nat) (s : State) : Host.Outcome State Fault Refusal :=
  s.onMedia fun s => s.setMedia (s.media.fillWl group stream)

/-! ### Erases (R490, R492) -/

/-- R490: a superblock with its erase under way: its erase-intent record stands. -/
def Media.erasing (m : Media) (g k : Nat) : Bool :=
  match m.sblk g k with | some x => x.intent && !x.erasedOnce && !(m.records.any fun r => r.2 == .intent g k) | none => false

/-- ERASE_COMPLETE. -/
def execEraseComplete (group sblk : Nat) (s : State) : Host.Outcome State Fault Refusal :=
  s.onMedia fun s => if s.media.erasing group sblk then s.setMedia (s.media.erased group sblk) else s

/-- ERASE_FAILURE. -/
def execEraseFailure (group sblk member : Nat) (s : State) : Host.Outcome State Fault Refusal :=
  s.onMedia fun s =>
    if s.media.erasing group sblk && member < 16 then
      let l : Loc := ⟨group, sblk, member, 0⟩
      (s.raiseLun l 0x53 (s.media.blockOf l)).setMedia (s.media.retireBlock group sblk member)
    else s

/-! ### Relocation (R488 to R490, R522, R524) -/

/-- A superblock taken for relocation: its valid pages are copied. -/
def Media.moveOut (m : Media) (g k : Nat) : Media :=
  (m.modSblk g k fun x => { x with moving := true, use := match x.use with | .opened _ => .full | u => u }).copyOut g k

/-- R488, R522, R524: relocation goes on with the superblocks it has taken and takes the next one due, unless another group has one more
urgent. -/
def Media.relocate (m : Media) (g : Nat) : Media :=
  let m := ((m.sblks.filter fun x => x.g == g && x.moving && !x.intent).map (·.k)).foldl (fun (m : Media) k => m.copyOut g k) m
  match m.pickRelocate g with
  | some (c, x) =>
    if 0 < c && m.groups.any fun o => match m.pickRelocate o.g with | some (d, _) => d < c | none => false then m
    else m.moveOut g x.k
  | none => m

/-- RELOCATION_START. -/
def execRelocationStart (group : Nat) (s : State) : Host.Outcome State Fault Refusal :=
  s.onMedia fun s => s.setMedia (s.media.relocate group)

/-- R489: a relocated copy is programmed: the map moves to it when its entry still names the source. -/
def Media.copyDone (m : Media) (p : Page) : Media :=
  let m := m.report p.loc
  match p.source with
  | some l => if m.entry p.space p.lmu == some l then m.setEntry p.space p.lmu (some p.loc) else m
  | none => m

/-- RELOCATION_COPY_DONE. -/
def execRelocationCopyDone (seq : Nat) (s : State) : Host.Outcome State Fault Refusal :=
  s.onMedia fun s => match s.media.pages.find? fun p => p.kind == 2 && p.seq == seq with
    | some p => s.setMedia (s.media.copyDone p)
    | none => s

/-! ### Patrol (R511 to R513) -/

/-- R492, R512: a superblock the patrol finds in need of refresh. -/
def Media.refresh (m : Media) (l : Loc) (retire : Bool) : Media :=
  let m := if retire then m.retireBlock l.g l.k l.m else m
  m.moveOut l.g l.k

/-- R529: how far the patrol has come, in 1/1,000 of its round: superblocks passed of all. -/
def Media.patrolled (m : Media) (g k : Nat) : Nat :=
  match m.sblks.findIdx? fun x => x.g == g && x.k == k with
  | some i => i * 1000 / max 1 m.sblks.length
  | none => 0

/-- R511 to R513, R492: the patrol reads the page at (g, k, slot): it passes groups under rebuild, moves its place, and has a weak
superblock relocated. -/
def State.patrol (s : State) (g k slot stage bits : Nat) : State :=
  let m := s.media
  let l : Loc := ⟨g, k, slot % 16, slot / 16⟩
  let busy := match m.group g with | some x => x.rebuilding.isSome | none => true
  match m.map.find? fun e => e.2.2 == l with
  | none => s
  | some e =>
    if busy || 1 < s.power.state then s else
      let worn := (stage == 3 || stage == 4) && !m.onFailed l
      let stage := m.stageAt l stage
      let s := { s with media := { m with patrolAt := (g, k), patrolPos := m.patrolled g k } }
      let s := s.readStage e.1 e.2.1 stage l
      if 2 ≤ stage || (stage == 1 && s.num 0x5008 0 < bits) then s.setMedia (s.media.refresh l worn) else s

/-- PATROL_READ. -/
def execPatrolRead (group sblk page stage bits : Nat) (s : State) : Host.Outcome State Fault Refusal :=
  s.onMedia fun s => s.patrol group sblk page stage bits

/-- R511: the patrol's place recorded in the metadata space. -/
def Media.recordPatrol (m : Media) : Media :=
  match m.record (leBytes 1 m.patrolAt.1 ++ leBytes 3 m.patrolAt.2) (.patrol m.patrolAt.1 m.patrolAt.2) with
  | some (_, m) => m
  | none => m

/-- PATROL_POSITION_RECORD (R511): the place is recorded when its record is durable (R510). -/
def execPatrolPositionRecord (s : State) : Host.Outcome State Fault Refusal :=
  s.onMedia fun s => s.setMedia s.media.recordPatrol

/-! ### LUN failure and rebuild (R519 to R523) -/

/-- A LUN that the media know. -/
def Media.hasLun (m : Media) (ch pos : Nat) : Bool := m.luns.any fun l => l.ch == ch && l.pos == pos

/-- LUN_STATUS_TIMEOUT (R519). -/
def execLunStatusTimeout (channel pos : Nat) (s : State) : Host.Outcome State Fault Refusal :=
  s.onMedia fun s => if s.media.hasLun channel pos then s.failLun channel pos else s

/-- LUN_FAILURE (R520 to R523). -/
def execLunFailure (channel pos : Nat) (s : State) : Host.Outcome State Fault Refusal :=
  s.onMedia fun s => if s.media.hasLun channel pos then s.failLun channel pos else s

/-- R521, R475, R474: the reconstructed page of the failed member is programmed: it counts in SEQ and keeps its tag. -/
def Media.rebuildPage (m : Media) (l : Loc) : Media :=
  let lun := m.lunOf l
  if (m.pageAt l).isNone then m else
    { m with seq := m.seq + 1, mediaBytes := m.mediaBytes + unitBytes,
             bus := (lun.1, lun.2, .pageProgram (m.pageIndex l)) :: m.bus }

/-- R521: one stripe of a group's rebuild: the spare takes the reconstructed page with its tag (R475); after the last the member is whole
again and the next one failed follows. -/
def Media.rebuildOne (m : Media) (g : Nat) : Media :=
  match m.group g with
  | none => m
  | some gr => match gr.rebuilding with
    | none => m
    | some mem =>
      let left := (m.stripes g).drop gr.rebuilt
      let m := match left.head? with | some x => m.rebuildPage ⟨g, x.1, mem, x.2⟩ | none => m
      if 2 ≤ left.length then m.modGroup g (fun x => { x with rebuilt := x.rebuilt + 1 })
      else
        let m := m.modGroup g fun x => { x with failed := x.failed.erase mem, was := x.was.filter (fun y => y.1 != mem), rebuilding := none,
                                                rebuilt := 0, recorded := 0 }
        let next := m.nextRebuild g
        m.modGroup g fun x => { x with rebuilding := next }

/-- REBUILD_STRIPE. -/
def execRebuildStripe (group : Nat) (s : State) : Host.Outcome State Fault Refusal :=
  s.onMedia fun s => s.setMedia (s.media.rebuildOne group)

/-- R509: the progress of the rebuilds recorded in the metadata space. -/
def Media.recordRebuilds (m : Media) : Media :=
  (m.groups.filter fun g => g.rebuilding.isSome).foldl (fun (m : Media) g =>
    let n := g.rebuilt / 1024 * 1024
    match m.record (leBytes 1 g.g ++ leBytes 8 n) (.rebuild g.g n) with | some (_, m) => m | none => m) m

/-- REBUILD_PROGRESS_RECORD (R509): progress in whole 1,024 stripes is recorded when its record is durable (R510). -/
def execRebuildProgressRecord (s : State) : Host.Outcome State Fault Refusal :=
  s.onMedia fun s => s.setMedia s.media.recordRebuilds

/-! ### The end of a format (R527) -/

/-- R527: the format ends: an empty, formatted media; catalogue, vocabularies and grammars are gone. -/
def State.formatEnd (s : State) : State :=
  if !s.media.formatting || s.media.mountStep != 0 || s.pins.padHold.isSome || !geomSupported s.media.geom then s
  else
    let s := (s.vocabs.map (·.num)).foldl (fun s n => s.freeRef fun b => b == vocabRef n) s
    let s := (s.grammars.map (·.num)).foldl (fun s n => s.freeRef fun b => b == grammarRef n) s
    { s with media := s.media.format (s.num 0x5002 0) (s.num 0x5003 0), catalogue := [], vocabs := [], grammars := [] }

/-- MEDIA_FORMAT_DONE. -/
def execMediaFormatDone (s : State) : Host.Outcome State Fault Refusal := .next s.formatEnd.settle

end Sys2Proof.Machine
end

