-- ==== Sys2Proof/Machine/PowerUp.lean ====
section
/-!
DEFINITION. Meanings of the commands of supplies, lands and thermal trips (R738, R752, R756 to R764).
-/
namespace Sys2Proof.Machine

/-- R756 steps 1 and 2: VIN48 has risen to 40 V: the always-on domain starts, VAUX18 rises and the NAND pads are latched. -/
def State.vinRise (s : State) (dv : Nat) : State :=
  if s.pins.vin48 || dv < 400 then s
  else { s with pins := { s.pins with vin48 := true, aon := true, vaux18 := true, padHold := some .powerUp, inputVoltage := dv } }

/-- VIN48_RISE. -/
def execVin48Rise (decivolts : Nat) (s : State) : Host.Outcome State Fault Refusal := .next (s.vinRise decivolts).settle

/-- PWROK_RISE (R691, R756 step 4): PWROK goes high; with RESET_N high the sequence begins. -/
def execPwrokRise (s : State) : Host.Outcome State Fault Refusal :=
  .next (if s.pins.vin48 && !s.pins.pwrok then ({ s with pins := { s.pins with pwrok := true } }).tryStart else s).settle

/-- R759: PWROK falls: programs that report within 3 ms land, the pads are latched and the rails turn off. -/
def State.pwrokFall (s : State) (reported : List Nat) : State :=
  if !s.pins.pwrok then s else
    let locs := (s.media.pages.filter fun p => reported.contains p.seq).map (·.loc)
    let m := (locs.foldl Media.report s.media).cutShort
    let s := ({ s with media := m }).wipe
    { s with startup := { s.startup with cause := 1 },
             pins := { s.pins with pwrok := false, padHold := some .pwrok, rails := {} } }

/-- PWROK_FALL. -/
def execPwrokFall (reported : List Nat) (s : State) : Host.Outcome State Fault Refusal := .next (s.pwrokFall reported).settle

/-- R758: a low pulse taken as a device reset: RESET_N is low until its next rise. -/
def State.resetLow (s : State) : State :=
  let s := s.deviceReset 1
  { s with pins := { s.pins with resetN := false } }

/-- R758: a low pulse of RESET_N by its length; one of 1 µs to 10 µs may do either. -/
def State.resetFall (s : State) (ns : Nat) : State :=
  if !s.pins.resetN || ns < 1000 then s
  else if 10000 ≤ ns then s.resetLow
  else if Config.pulseResets s.free then s.useFree.resetLow else s.useFree

/-- RESET_N_FALL. -/
def execResetNFall (pulseNs : Nat) (s : State) : Host.Outcome State Fault Refusal := .next (s.resetFall pulseNs).settle

/-- RESET_N_RISE (R691, R749): MGR_SEL is sampled; with PWROK high the sequence begins. -/
def execResetNRise (mgrSel : Bool) (s : State) : Host.Outcome State Fault Refusal :=
  .next ({ s with pins := { s.pins with resetN := true, mgrSel := mgrSel } }.tryStart).settle

/-- R761: VIN48 out of range: every rail but the always-on one turns off, the fault is kept for the cox, and the event takes the
effects of a brown-out; below 20 V the always-on domain is lost too. -/
def State.inputFault (s : State) (converter dv : Nat) : State :=
  if !s.pins.vin48 || s.pins.inputBad || within 380 620 dv || 3 < converter then s else
    let count (s : State) : State :=
      { s with pins := { s.pins with inputFaults := (s.pins.inputFaults + 1) % 4294967296, inputVoltage := dv },
               startup := { s.startup with heldFaults := s.startup.heldFaults ++ [0x2D0 + converter] } }
    if dv < 200 then (count s).powerLost
    else
      let s := count s
      ({ s with pins := { s.pins with inputBad := true, rails := {} } }).brownOut

/-- INPUT_FAULT. -/
def execInputFault (converter decivolts : Nat) (s : State) : Host.Outcome State Fault Refusal :=
  .next (s.inputFault converter decivolts).settle

/-- INPUT_RECOVERY (R761): the restart begins. -/
def execInputRecovery (decivolts : Nat) (s : State) : Host.Outcome State Fault Refusal :=
  .next (if s.pins.inputBad && within 390 600 decivolts then
    ({ s with pins := { s.pins with inputBad := false, inputVoltage := decivolts } }).restart else s).settle

/-- BROWN_OUT (R738). -/
def execBrownOut (s : State) : Host.Outcome State Fault Refusal := .next (if s.pins.aon then s.brownOut else s).settle

/-- R752: SLOWCLK_IN without an edge: start-up holds at step 1, or the running device takes a brown-out. -/
def State.slowclkLost (s : State) : State :=
  if !s.pins.aon then s else
    let s := { s with pins := { s.pins with slowclk := false } }
    if (s.startup.phase == .off && s.power.state != 3) || s.startup.phase == .step 1 then s else s.brownOut

/-- SLOWCLK_LOSS. -/
def execSlowclkLoss (s : State) : Host.Outcome State Fault Refusal := .next s.slowclkLost.settle

/-- SLOWCLK_RETURN (R752). -/
def execSlowclkReturn (s : State) : Host.Outcome State Fault Refusal :=
  .next ({ s with pins := { s.pins with slowclk := true } }).settle

/-- R27: the rail of a second-stage regulator turned off. -/
def Rails.cut (r : Rails) (unit : Nat) : Rails :=
  if 0x2D4 ≤ unit && unit ≤ 0x2D7 then { r with pd := r.pd.set (unit - 0x2D4) false }
  else if unit == 0x2D8 then { r with hd := false }
  else if unit == 0x2D9 || unit == 0x2DA then { r with ed := r.ed.set (unit - 0x2D9) false }
  else if unit == 0x2DB then { r with hbm := false }
  else if unit == 0x2DC then { r with lpddr := false }
  else { r with nandIo := false }

/-- REGULATOR_FAULT (R762): the regulator turns off and kind 0x63 stops the device. -/
def execRegulatorFault (unit : Nat) (s : State) : Host.Outcome State Fault Refusal :=
  .next (if within 0x2D4 0x2DD unit && s.coxUp then
    ({ s with pins := { s.pins with rails := s.pins.rails.cut unit } }).raise { unit := unit, kind := 0x63, addr := unit } else s).settle

/-- A signed reading as 32 bits. -/
def word32 (i : Int) : Nat := (i % 4294967296).toNat

/-- R763: a sensor at its trip temperature: kind 0x62 stops the device, then the die rails turn off and ALERT_N is held low. -/
def State.overTemperature (s : State) (sensor : Nat) (t : Int) : State :=
  if sensor < 16 && tripOf sensor ≤ t && s.coxUp then
    let s := { s with power := { s.power with temps := s.power.temps.set sensor t } }
    let s := (s.raise { unit := 0x2E0 + sensor, kind := 0x62, addr := word32 t }).settle
    let r := s.pins.rails
    { s with pins := { s.pins with alertTemp := true,
                                   rails := { r with pd := [false, false, false, false], ed := [false, false], hbm := false, lpddr := false } } }
  else s

/-- OVER_TEMPERATURE. -/
def execOverTemperature (sensor : Nat) (deciC : Int) (s : State) : Host.Outcome State Fault Refusal :=
  .next (s.overTemperature sensor deciC).settle

/-- R764: a sensor has reached its trip temperature plus 10.0 °C: every rail but the always-on one turns off. -/
def State.hwTrip (s : State) (sensor : Nat) : State :=
  if sensor < 16 && s.pins.aon then
    let hot := s.power.temps.set sensor (tripOf sensor + 100)
    let s := ({ s with media := s.media.cutShort, power := { s.power with temps := hot } } : State).wipe
    { s with pins := { s.pins with rails := {}, hwTrips := (s.pins.hwTrips + 1) % 4294967296, alertTemp := true, hwTrip := true } }
  else s

/-- HW_THERMAL_TRIP. -/
def execHwThermalTrip (sensor : Nat) (s : State) : Host.Outcome State Fault Refusal := .next (s.hwTrip sensor).settle

/-- POWER_LOSS (R500 to R510, R760): VIN48 falls without warning. -/
def execPowerLoss (s : State) : Host.Outcome State Fault Refusal := .next (if s.pins.vin48 then s.powerLost else s).settle

end Sys2Proof.Machine
end

