-- ==== Sys2Proof/Machine/PowerRows.lean ====
section
/-!
DEFINITION. Meanings of the rows of "Power states and wake": requests (R719 to R721, R728), entry (R722 to R725), PS1 (R718), wake (R727,
R735, R736), the pad hold (R731 to R734) and throttling (R739 to R743).
-/
namespace Sys2Proof.Machine

/-! ### Requests (R719 to R721) -/

/-- R720, R721: the checks of a request for PS2 or PS3; in PS2 only the first of R720 applies. -/
def State.requestFail (s : State) (_ : DictWrite) : Option DictFail :=
  match s.firstCrew fun c => c.state == 2 || c.state == 3 with
  | some n => some (0x03, some n)
  | none =>
    if s.power.state != 2 && (!s.sinks.isEmpty || s.domain.role != 0 || !s.host.ingests.isEmpty) then some (0x03, none)
    else if !s.wakes then some (0x02, none)
    else none

/-! ### The end of an entry (R722 steps 2 to 5) -/

/-- The media go quiet: open word lines are completed and every program ends; for PS3 open stripes are completed too, and the
patrol's place and the rebuilds' progress are recorded (R509, R511). -/
def Media.quiet (m : Media) (ps3 : Bool) : Media :=
  let m := m.drain.settleRecords.drain.settleRecords
  let m := if ps3 then m.mountLast else m
  { m with patrolSaved := m.patrolAt, groups := m.groups.map (fun g => { g with recorded := g.rebuilt }), wpN := false, cached := [] }

/-- R722 step 2: the media go quiet, when they run. -/
def State.quietMedia (s : State) (ps3 : Bool) : State := if s.mediaRuns then { s with media := s.media.quiet ps3 } else s

/-- R722 step 3: for PS3 crews that are not EMPTY are reset and health is written to the NOR device (R651). -/
def State.emptyCrews (s : State) : State :=
  let s := s.resetCrews ((s.crews.filter fun c => c.state != 0).map (·.num))
  { s with faults := s.faults.save }

/-- R722 step 4, R731, R732, R590: the pads are latched and the device cache drops every line. -/
def State.latchPads (s : State) : State :=
  let m := s.media
  let low := s.alertLow
  let m := if s.pins.padHold == some .entry then m else { m with heldState := some m.state, state := 5 }
  { s with pins := { s.pins with padHold := some .entry, alertHeld := some (s.pins.alertHeld.getD low) },
           media := m, host := { s.host with watched := [], cacheLines := [] } }

/-- R717: the ports of dies that go off go down; a fenced port stays fenced (R353). -/
def State.sleepPorts (s : State) : State :=
  ((s.ports.filter fun p => p.state != 4).map (·.n)).foldl State.downPort s

/-- R722 step 5, R717: PS2. -/
def State.enterPs2 (s : State) : State :=
  let s := s.sleepPorts
  { s with pins := { s.pins with rails := { s.pins.rails with pd := [false, false, false, false], ed := [false, false] } },
           power := { s.power with state := 2, entry := none } }

/-- R717, R722 step 5: PS3 keeps the media, what the NOR device holds, local uptime and what only a device reset clears; the CXL link
goes down, and with its power gone the device forgets the rest. -/
def State.enterPs3 (s : State) : State :=
  let s := s.sleepPorts
  let h := s.host
  let u := s.startup
  let d := s.dict
  { s with pins := { s.pins with rails := { s.pins.rails with hd := false, pd := [false, false, false, false], ed := [false, false],
                                                              hbm := false, lpddr := false, nandIo := false,
                                                              converters := [false, false, false, false] } },
           power := { s.power with state := 3, entry := none },
           host := { h with speed := 0, width := 0, flit := 0, training := false, ide := 0, insecure := [] },
           startup := { u with phase := .off, cxlDone := false, running := none,
                               slotA := { u.slotA with state := if u.slotA.state == 3 then 2 else u.slotA.state },
                               slotB := { u.slotB with state := if u.slotB.state == 3 then 2 else u.slotB.state } },
           dict := { d with sessions := [], fails := [], lockouts := [], mctpEid := 0, i3cDynamic := none, spdm := [] },
           faults := { s.faults with queue := [], windows := [], transit := [] },
           media := s.media.unmount, regLog := {}, concealLog := {}, timingLog := {}, topology := [], roce := [], ingress := [],
           ingressPaused := [], mem := { s.mem with bufs := [], waiting := [] } }

/-! ### Wake (R725, R727, R730, R735, R736) -/

/-- R726, R735, R736: wake begins: from PS2 its steps are awaited, from PS3 the sequence of R691 runs after a link reset. -/
def State.beginWake (s : State) (causes : Nat) : State :=
  let p := { s.power with wakeCause := s.power.wakeCause ||| causes, wokeAt := s.uptime }
  if s.power.state == 2 then { s with power := { p with state := 5, wakeStep := 1 } }
  else if s.power.state == 3 then
    let s := ({ s with power := { p with state := 5, ps3Wake := true } } : State).linkReset
    { s with startup := { s.startup with phase := .step 1, began := s.uptime, trainedLocal := 0, fallbacks := 0 } }
  else s

/-- R725, R727, R728, R730: a wake event, by its bit of WakeCause: it wakes the device, is latched during an entry, joins the causes of
a wake under way, or returns PS1 to PS0. -/
def State.wakeBy (s : State) (bit_ : Nat) : State :=
  let p := s.power
  match p.state with
  | 1 => s.leavePs1
  | 2 => s.beginWake (2 ^ bit_)
  | 3 => s.beginWake (2 ^ bit_)
  | 4 => { s with power := { p with entry := p.entry.map fun e => { e with latched := e.latched ||| 2 ^ bit_ } } }
  | 5 => { s with power := { p with wakeCause := p.wakeCause ||| 2 ^ bit_ } }
  | _ => s

/-- R722 steps 2 to 4: the media go quiet, for PS3 crews are reset and health is written, and the pads are latched. -/
def State.quiesce (s : State) (target : Nat) : State :=
  let s := s.quietMedia (target == 3)
  (if target == 3 then s.emptyCrews else s).settle.latchPads

/-- R722 step 5: the power state is entered. -/
def State.enterSleep (s : State) (target : Nat) : State := if target == 3 then s.enterPs3 else s.enterPs2

/-- R722 steps 2 to 5, R725: the entry ends, and a wake event latched meanwhile wakes the device at once. -/
def State.finishEntry (s : State) (target latched : Nat) : State :=
  let s := (s.quiesce target).enterSleep target
  if latched == 0 then s else s.beginWake latched

/-- R719, R722, R730: a request for PS2 or PS3 that passed: entry begins; from PS2 the device enters PS3 directly. -/
def State.beginEntry (s : State) (target : Nat) : State :=
  let p := s.power
  match p.state with
  | 2 => if target == 3 then ({ s with power := { p with wakeCause := 0 } } : State).finishEntry 3 0 else s
  | 3 => s
  | 4 => { s with power := { p with entry := p.entry.map fun e => { e with target := target } } }
  | 5 => { s with power := { p with entry := some { target := target, latched := 0 } } }
  | _ => { s with power := { p with state := 4, wakeCause := 0, entry := some { target := target, latched := 0 } } }

/-- The rule of a request for PS2 or PS3: entry begins once the response has left. -/
def sleepRule (target : Nat) : WriteRule := { fail := State.requestFail, act := putNum, after := fun s _ => s.beginEntry target }

/-- POWER_REQUEST_PS2 (R722). -/
def execPowerRequestPs2 (m : DictMsg) (s : State) : Host.Outcome State Fault Refusal :=
  s.writeRow m (fun i v => i == 0x3000 && v == [2]) (sleepRule 2)

/-- POWER_REQUEST_PS3 (R722). -/
def execPowerRequestPs3 (m : DictMsg) (s : State) : Host.Outcome State Fault Refusal :=
  s.writeRow m (fun i v => i == 0x3000 && v == [3]) (sleepRule 3)

/-- POWER_REQUEST_PS0 (R719, R728, R730): in PS2, whatever WakeSources holds, a wake event of bit 5. -/
def execPowerRequestPs0 (m : DictMsg) (s : State) : Host.Outcome State Fault Refusal :=
  s.writeRow m (fun i v => i == 0x3000 && v == [0]) { act := putNum, after := fun s _ => s.wakeBy 5 }

/-! ### Entry (R722, R723) -/

/-- R722 step 1: no command is outstanding but the held REQUEST BATCHES of SUSPENDED crews. -/
def State.noneOutstanding (s : State) : Bool := s.host.cmds.all fun c => c.opc == 0x22 && s.jstate c.crew == 4

/-- R722: step 1 is over: the rest of the entry runs; an entry asked for during start-up waits for its end. -/
def State.entryQuiesced (s : State) : State :=
  match s.power.entry with
  | some e => if s.started && s.power.state == 4 && s.noneOutstanding then s.finishEntry e.target e.latched else s
  | none => s

/-- POWER_ENTRY_QUIESCED. -/
def execPowerEntryQuiesced (s : State) : Host.Outcome State Fault Refusal := .next s.entryQuiesced.settle

/-- R723: the entry is abandoned. -/
def State.entryAbandoned (s : State) : State :=
  if s.power.state == 4 && s.power.entry.isSome then
    { s with power := { s.power with state := 0, entry := none, entryAborts := (s.power.entryAborts + 1) % 4294967296 } }
  else s

/-- POWER_ENTRY_TIMEOUT. -/
def execPowerEntryTimeout (s : State) : Host.Outcome State Fault Refusal := .next s.entryAbandoned.settle

/-! ### PS1 (R718) -/

/-- R718: the device has been idle for PS1Delay. -/
def State.enterPs1 (s : State) : State :=
  let busy := s.crews.any fun c => c.state == 2 || c.state == 3
  if s.started && s.power.state == 0 && s.num 0x3002 0 == 1 && !busy && s.host.cmds.isEmpty then
    { s with power := { s.power with state := 1 } }
  else s

/-- PS1_ENTRY. -/
def execPs1Entry (s : State) : Host.Outcome State Fault Refusal := .next s.enterPs1.settle

/-- PS1_EXIT (R718). -/
def execPs1Exit (s : State) : Host.Outcome State Fault Refusal := .next s.leavePs1.settle

/-! ### Wake events and steps (R727, R733, R735) -/

/-- R727: is a comparator source enabled? A port can only fire within WakePortMask. -/
def State.sourceOn (s : State) (n : Nat) : Bool :=
  s.num 0x3004 0 / 2 ^ n % 2 == 1 && (n != 1 || s.num 0x3006 0 != 0)

/-- WAKE_EVENT (R727): a comparator, 0 to 3, fires. -/
def execWakeEvent (source : Nat) (s : State) : Host.Outcome State Fault Refusal :=
  .next (if source < 4 && s.sourceOn source then s.wakeBy source else s).settle

/-- WAKE_TIMER_EXPIRY (R727): WakeTimer of local uptime has passed since entry was complete. -/
def execWakeTimerExpiry (s : State) : Host.Outcome State Fault Refusal :=
  .next (if s.sourceOn 4 && s.num 0x3007 0 != 0 && (s.power.state == 2 || s.power.state == 3) then s.wakeBy 4 else s).settle

/-- R735 step 5: the ports begin to retrain; a fenced port stays so. -/
def State.wakePorts (s : State) : State :=
  ((s.ports.filter fun p => p.state != 4 && s.portMode p.n != 0).map (·.n)).foldl State.trainPort s

/-- R735 step 4, R733: PS0 is reached: a PadRelease write that was held takes effect, and an entry asked for meanwhile begins. -/
def State.reachPs0 (s : State) : State :=
  let p := s.power
  let release := p.releasePending && s.pins.padHold == some .entry
  let p := { p with state := if p.entry.isSome then 4 else 0, wakeCause := if p.entry.isSome then 0 else p.wakeCause,
                    wakeStep := 5, lastWakeTime := s.since p.wokeAt, releasePending := false }
  let s := { s with power := p }
  (if release then s.releasePads else s).wakePorts

/-- R735: the ready signal of a wake step. -/
def State.wakeReady (s : State) (step : Nat) : State :=
  let p := s.power
  let next (s : State) : State := { s with power := { s.power with wakeStep := step + 1 } }
  if step == 0 || p.wakeStep != step then s
  else match step with
    | 1 => next { s with pins := { s.pins with rails := { s.pins.rails with pd := [true, true, true, true], ed := [true, true] } } }
    | 2 => next s
    | 3 => next s
    | 4 => s.reachPs0
    | _ => if s.ports.any fun p => p.state == 1 then s else { s with power := { p with wakeStep := 0 } }

/-- WAKE_STEP_READY. -/
def execWakeStepReady (step : Nat) (s : State) : Host.Outcome State Fault Refusal := .next (s.wakeReady step).settle

/-! ### The pad hold (R731, R733, R734) -/

/-- R733, R734: a PadRelease write of 1: held from entry step 1 until PS0 is reached, else it releases a hold taken at entry. -/
def releaseWrite (s : State) (_ : DictWrite) : State :=
  let later : State := { s with power := { s.power with releasePending := true } }
  match s.power.state with
  | 4 => later
  | 5 => if s.pins.padHold == some .entry then later else s
  | 2 => if s.pins.padHold == some .entry then later else s
  | _ => if s.pins.padHold == some .entry then s.releasePads else s

/-- PAD_RELEASE. -/
def execPadRelease (m : DictMsg) (s : State) : Host.Outcome State Fault Refusal :=
  s.writeRow m (fun i _ => i == 0x300A) { act := releaseWrite }

/-! ### Throttling (R739 to R743) -/

/-- R743: the throttle step's change noted: an episode that begins raises the kind of its cause. -/
def State.episode (s : State) (before : Nat) (r : Raise) : State :=
  if before == 0 && s.power.throttle != 0 then
    ({ s with power := { s.power with throttleEvents := (s.power.throttleEvents + 1) % 4294967296 } } : State).raise r
  else s

/-- R689, R690: a sensor's reading in 0.1 °C with its SensorOffset in 0.01 °C. -/
def State.corrected (s : State) (n : Nat) (raw : Int) : Int := (10 * raw + sign16 (s.num 0x9001 (n + 1))) / 10

/-- R740, R743: a millisecond of the thermal step. -/
def State.thermalTick (s : State) (raw : List Int) : State :=
  let temps := (List.range 16).map fun n => s.corrected n (raw.getD n 0)
  let limit (n : Nat) : Int := sign16 (s.num 0x3800 (n + 1))
  let hot := (List.range 16).find? fun n => limit n ≤ temps.getD n 0
  let cool := (List.range 16).all fun n => temps.getD n 0 ≤ limit n - 20
  let p : Power := { s.power with temps := temps }
  let before := s.power.throttle
  match hot with
  | some n =>
    let s := { s with power := { p with thermalStep := min 12 (p.thermalStep + 1), coolMs := 0 } }
    s.episode before { unit := 0x2E0 + n, kind := 0x60, addr := word32 (temps.getD n 0) }
  | none =>
    if !cool then { s with power := { p with coolMs := 0 } }
    else if p.coolMs + 1 < 10 then { s with power := { p with coolMs := p.coolMs + 1 } }
    else { s with power := { p with thermalStep := p.thermalStep - 1, coolMs := 0 } }

/-- R764: the sensors of a device whose cox does not run: their readings say when it may restart. -/
def State.sense (s : State) (raw : List Int) : State :=
  if s.pins.aon then { s with power := { s.power with temps := (List.range 16).map fun n => s.corrected n (raw.getD n 0) } } else s

/-- THERMAL_THROTTLE_TICK. -/
def execThermalThrottleTick (raw : List Int) (s : State) : Host.Outcome State Fault Refusal :=
  .next (if s.coxUp then s.thermalTick raw else s.sense raw).settle

/-- R741, R743, R761: a measurement of package power, with the input voltage the converters watch. -/
def State.measured (s : State) (watts decivolts : Nat) : State :=
  let limit := s.num 0x300C 0
  let before := s.power.throttle
  let s := { s with pins := { s.pins with inputVoltage := decivolts } }
  let p : Power := { s.power with packagePower := watts }
  if limit < watts then
    let s := { s with power := { p with powerStep := min 12 (p.powerStep + 1), lowCount := 0 } }
    s.episode before { unit := 0x2D0, kind := 0x61, addr := watts }
  else if limit * 95 ≤ watts * 100 then { s with power := { p with lowCount := 0 } }
  else if p.lowCount + 1 < 100 then { s with power := { p with lowCount := p.lowCount + 1 } }
  else { s with power := { p with powerStep := p.powerStep - 1, lowCount := 0 } }

/-- POWER_MEASUREMENT. -/
def execPowerMeasurement (watts decivolts : Nat) (s : State) : Host.Outcome State Fault Refusal :=
  .next (if s.coxUp then s.measured watts decivolts else s).settle

end Sys2Proof.Machine
end

