-- ==== Sys2Proof/Machine/Dispatch.lean ====
section
/-!
DEFINITION. The dispatch of a command to its meaning: one arm per constructor of Instr.
-/
namespace Sys2Proof.Machine

def exec (i : Instr) (s : State) : Host.Outcome State Fault Refusal :=
  match i with
  | .vin48Rise decivolts => Sys2Proof.Machine.execVin48Rise decivolts s
  | .pwrokRise => Sys2Proof.Machine.execPwrokRise s
  | .pwrokFall reported => Sys2Proof.Machine.execPwrokFall reported s
  | .resetNFall pulseNs => Sys2Proof.Machine.execResetNFall pulseNs s
  | .resetNRise mgrSel => Sys2Proof.Machine.execResetNRise mgrSel s
  | .inputFault converter decivolts => Sys2Proof.Machine.execInputFault converter decivolts s
  | .inputRecovery decivolts => Sys2Proof.Machine.execInputRecovery decivolts s
  | .brownOut => Sys2Proof.Machine.execBrownOut s
  | .slowclkLoss => Sys2Proof.Machine.execSlowclkLoss s
  | .regulatorFault unit => Sys2Proof.Machine.execRegulatorFault unit s
  | .overTemperature sensor deciC => Sys2Proof.Machine.execOverTemperature sensor deciC s
  | .hwThermalTrip sensor => Sys2Proof.Machine.execHwThermalTrip sensor s
  | .startupStepReady step => Sys2Proof.Machine.execStartupStepReady step s
  | .memoryTrainingDone hbmFailed lpFailed hbmFellBack lpFellBack => Sys2Proof.Machine.execMemoryTrainingDone hbmFailed lpFailed hbmFellBack lpFellBack s
  | .cxlLinkTrained speed width flit fellBack => Sys2Proof.Machine.execCxlLinkTrained speed width flit fellBack s
  | .selfTestDone engines units => Sys2Proof.Machine.execSelfTestDone engines units s
  | .startupComplete => Sys2Proof.Machine.execStartupComplete s
  | .startupWatchdog => Sys2Proof.Machine.execStartupWatchdog s
  | .recoveryDownload payload => Sys2Proof.Machine.execRecoveryDownload payload s
  | .recoveryDownloadEnd payload => Sys2Proof.Machine.execRecoveryDownloadEnd payload s
  | .mountStepReady step geom => Sys2Proof.Machine.execMountStepReady step geom s
  | .adminQueueCreate => Sys2Proof.Machine.execAdminQueueCreate s
  | .adminQueueDelete => Sys2Proof.Machine.execAdminQueueDelete s
  | .deverrClear value setSameCycle => Sys2Proof.Machine.execDeverrClear value setSameCycle s
  | .sqtailDoorbell qid value => Sys2Proof.Machine.execSqtailDoorbell qid value s
  | .cqheadDoorbell qid value => Sys2Proof.Machine.execCqheadDoorbell qid value s
  | .sliceDoneDoorbell value => Sys2Proof.Machine.execSliceDoneDoorbell value s
  | .writeWindowWrite offset data => Sys2Proof.Machine.execWriteWindowWrite offset data s
  | .registerWrite bar offset size value => Sys2Proof.Machine.execRegisterWrite bar offset size value s
  | .tailLineSnoop line => Sys2Proof.Machine.execTailLineSnoop line s
  | .capsuleFetch capsule plist => Sys2Proof.Machine.execCapsuleFetch capsule plist s
  | .completionPost qid => Sys2Proof.Machine.execCompletionPost qid s
  | .transferReadyGrant qid cid first count => Sys2Proof.Machine.execTransferReadyGrant qid cid first count s
  | .grantTimeout qid cid => Sys2Proof.Machine.execGrantTimeout qid cid s
  | .dmaReadError purpose => Sys2Proof.Machine.execDmaReadError purpose s
  | .identify qid cid => Sys2Proof.Machine.execIdentify qid cid s
  | .getLog qid cid => Sys2Proof.Machine.execGetLog qid cid s
  | .getFeatures qid cid => Sys2Proof.Machine.execGetFeatures qid cid s
  | .firmwareDownload qid cid => Sys2Proof.Machine.execFirmwareDownload qid cid s
  | .firmwareCommit qid cid => Sys2Proof.Machine.execFirmwareCommit qid cid s
  | .queuePairCreate qid cid => Sys2Proof.Machine.execQueuePairCreate qid cid s
  | .queuePairDelete qid cid => Sys2Proof.Machine.execQueuePairDelete qid cid s
  | .abort qid cid sameCycle => Sys2Proof.Machine.execAbort qid cid sameCycle s
  | .ingestOpen qid cid => Sys2Proof.Machine.execIngestOpen qid cid s
  | .ingestClose qid cid => Sys2Proof.Machine.execIngestClose qid cid s
  | .ingestWrite qid cid => Sys2Proof.Machine.execIngestWrite qid cid s
  | .blockCompress stream => Sys2Proof.Machine.execBlockCompress stream s
  | .crewForm qid cid => Sys2Proof.Machine.execCrewForm qid cid s
  | .crewDissolve qid cid => Sys2Proof.Machine.execCrewDissolve qid cid s
  | .crewJoin qid cid => Sys2Proof.Machine.execCrewJoin qid cid s
  | .domainForm qid cid => Sys2Proof.Machine.execDomainForm qid cid s
  | .domainRegister qid cid => Sys2Proof.Machine.execDomainRegister qid cid s
  | .domainDissolve qid cid => Sys2Proof.Machine.execDomainDissolve qid cid s
  | .catalogueRegister qid cid => Sys2Proof.Machine.execCatalogueRegister qid cid s
  | .catalogueRemove qid cid => Sys2Proof.Machine.execCatalogueRemove qid cid s
  | .vocabularyLoad qid cid => Sys2Proof.Machine.execVocabularyLoad qid cid s
  | .vocabularyRemove qid cid => Sys2Proof.Machine.execVocabularyRemove qid cid s
  | .grammarLoad qid cid => Sys2Proof.Machine.execGrammarLoad qid cid s
  | .grammarRemove qid cid => Sys2Proof.Machine.execGrammarRemove qid cid s
  | .rolloutSinkOpen qid cid => Sys2Proof.Machine.execRolloutSinkOpen qid cid s
  | .rolloutSinkFlush qid cid => Sys2Proof.Machine.execRolloutSinkFlush qid cid s
  | .rolloutSinkClose qid cid => Sys2Proof.Machine.execRolloutSinkClose qid cid s
  | .queuePairSet qid cid => Sys2Proof.Machine.execQueuePairSet qid cid s
  | .queuePairRemove qid cid => Sys2Proof.Machine.execQueuePairRemove qid cid s
  | .read qid cid => Sys2Proof.Machine.execRead qid cid s
  | .write qid cid => Sys2Proof.Machine.execWrite qid cid s
  | .deallocate qid cid => Sys2Proof.Machine.execDeallocate qid cid s
  | .secureDeallocate qid cid => Sys2Proof.Machine.execSecureDeallocate qid cid s
  | .flush qid cid => Sys2Proof.Machine.execFlush qid cid s
  | .loadRecipe qid cid => Sys2Proof.Machine.execLoadRecipe qid cid s
  | .setTablesBuilt crew => Sys2Proof.Machine.execSetTablesBuilt crew s
  | .openEpoch qid cid => Sys2Proof.Machine.execOpenEpoch qid cid s
  | .requestBatches qid cid => Sys2Proof.Machine.execRequestBatches qid cid s
  | .suspend qid cid => Sys2Proof.Machine.execSuspend qid cid s
  | .suspendDrained crew => Sys2Proof.Machine.execSuspendDrained crew s
  | .resume qid cid => Sys2Proof.Machine.execResume qid cid s
  | .close qid cid => Sys2Proof.Machine.execClose qid cid s
  | .closeDrained crew => Sys2Proof.Machine.execCloseDrained crew s
  | .resetCrew qid cid => Sys2Proof.Machine.execResetCrew qid cid s
  | .dealPosition crew => Sys2Proof.Machine.execDealPosition crew s
  | .flashBlockArrive ctx => Sys2Proof.Machine.execFlashBlockArrive ctx s
  | .unitResultArrive ctx => Sys2Proof.Machine.execUnitResultArrive ctx s
  | .workCapAbort ctx => Sys2Proof.Machine.execWorkCapAbort ctx s
  | .crabBudgetExpiry ctx => Sys2Proof.Machine.execCrabBudgetExpiry ctx s
  | .sampleRelease ctx => Sys2Proof.Machine.execSampleRelease ctx s
  | .collectorAccept crew => Sys2Proof.Machine.execCollectorAccept crew s
  | .heatPackDone crew rank epoch heat => Sys2Proof.Machine.execHeatPackDone crew rank epoch heat s
  | .batchTransmitStart crew rank => Sys2Proof.Machine.execBatchTransmitStart crew rank s
  | .rdmaAckReceive lqpn psn => Sys2Proof.Machine.execRdmaAckReceive lqpn psn s
  | .cxlBatchWrite crew rank => Sys2Proof.Machine.execCxlBatchWrite crew rank s
  | .rnrNakReceive lqpn => Sys2Proof.Machine.execRnrNakReceive lqpn s
  | .transportTimeout lqpn => Sys2Proof.Machine.execTransportTimeout lqpn s
  | .deadlineDecision crew rank batch => Sys2Proof.Machine.execDeadlineDecision crew rank batch s
  | .parityError at_ => Sys2Proof.Machine.execParityError at_ s
  | .residentCopyGranule dset shard granule => Sys2Proof.Machine.execResidentCopyGranule dset shard granule s
  | .bufferAllocate use holder bytes => Sys2Proof.Machine.execBufferAllocate use holder bytes s
  | .bufferFree requester buffer => Sys2Proof.Machine.execBufferFree requester buffer s
  | .ownerAdd owner buffer => Sys2Proof.Machine.execOwnerAdd owner buffer s
  | .poolCacheRefill tier pool cls => Sys2Proof.Machine.execPoolCacheRefill tier pool cls s
  | .poolExhausted cls tier pool => Sys2Proof.Machine.execPoolExhausted cls tier pool s
  | .quarantineTestDone buffer passed => Sys2Proof.Machine.execQuarantineTestDone buffer passed s
  | .nandReadComplete space lmu stage => Sys2Proof.Machine.execNandReadComplete space lmu stage s
  | .pageProgramComplete seq => Sys2Proof.Machine.execPageProgramComplete seq s
  | .programFailure seq => Sys2Proof.Machine.execProgramFailure seq s
  | .wordLineTimeout group stream => Sys2Proof.Machine.execWordLineTimeout group stream s
  | .eraseComplete group sblk => Sys2Proof.Machine.execEraseComplete group sblk s
  | .eraseFailure group sblk member => Sys2Proof.Machine.execEraseFailure group sblk member s
  | .relocationStart group => Sys2Proof.Machine.execRelocationStart group s
  | .relocationCopyDone seq => Sys2Proof.Machine.execRelocationCopyDone seq s
  | .patrolRead group sblk page stage bits => Sys2Proof.Machine.execPatrolRead group sblk page stage bits s
  | .patrolPositionRecord => Sys2Proof.Machine.execPatrolPositionRecord s
  | .lunStatusTimeout channel pos => Sys2Proof.Machine.execLunStatusTimeout channel pos s
  | .lunFailure channel pos => Sys2Proof.Machine.execLunFailure channel pos s
  | .rebuildStripe group => Sys2Proof.Machine.execRebuildStripe group s
  | .rebuildProgressRecord => Sys2Proof.Machine.execRebuildProgressRecord s
  | .mediaFormat m => Sys2Proof.Machine.execMediaFormat m s
  | .mediaFormatDone => Sys2Proof.Machine.execMediaFormatDone s
  | .faultMessage f sameCycleRemoval => Sys2Proof.Machine.execFaultMessage f sameCycleRemoval s
  | .faultCoalesceFlush unit sub kind => Sys2Proof.Machine.execFaultCoalesceFlush unit sub kind s
  | .scoreHalving => Sys2Proof.Machine.execScoreHalving s
  | .fenceWindowExpiry crew => Sys2Proof.Machine.execFenceWindowExpiry crew s
  | .commonCauseWindowExpiry => Sys2Proof.Machine.execCommonCauseWindowExpiry s
  | .faultInterrupt => Sys2Proof.Machine.execFaultInterrupt s
  | .faultAck m => Sys2Proof.Machine.execFaultAck m s
  | .portModeWrite m => Sys2Proof.Machine.execPortModeWrite m s
  | .portRetrain m => Sys2Proof.Machine.execPortRetrain m s
  | .portTrainingComplete port r => Sys2Proof.Machine.execPortTrainingComplete port r s
  | .laneLoss port lanes => Sys2Proof.Machine.execLaneLoss port lanes s
  | .handshakeFlitReceive port flit => Sys2Proof.Machine.execHandshakeFlitReceive port flit s
  | .dataFlitReceive port flit => Sys2Proof.Machine.execDataFlitReceive port flit s
  | .idleFlitReceive port flit => Sys2Proof.Machine.execIdleFlitReceive port flit s
  | .nakFlitReceive port flit => Sys2Proof.Machine.execNakFlitReceive port flit s
  | .replayTimeout port => Sys2Proof.Machine.execReplayTimeout port s
  | .creditReturn port vc => Sys2Proof.Machine.execCreditReturn port vc s
  | .ryheroPacketReceive port vc => Sys2Proof.Machine.execRyheroPacketReceive port vc s
  | .transmitFrame port => Sys2Proof.Machine.execTransmitFrame port s
  | .frameOverheadExpiry port => Sys2Proof.Machine.execFrameOverheadExpiry port s
  | .shaperBurstWrite m => Sys2Proof.Machine.execShaperBurstWrite m s
  | .roceSendReceive p => Sys2Proof.Machine.execRoceSendReceive p s
  | .cePacketReceive lqpn => Sys2Proof.Machine.execCePacketReceive lqpn s
  | .cnpReceive lqpn => Sys2Proof.Machine.execCnpReceive lqpn s
  | .rateRecoveryTick lqpn => Sys2Proof.Machine.execRateRecoveryTick lqpn s
  | .pfcPauseReceive port pause release => Sys2Proof.Machine.execPfcPauseReceive port pause release s
  | .neighbourRequestReceive port frame => Sys2Proof.Machine.execNeighbourRequestReceive port frame s
  | .rolloutMessage => Sys2Proof.Machine.execRolloutMessage s
  | .rolloutFilter sink stream => Sys2Proof.Machine.execRolloutFilter sink stream s
  | .rolloutRecordWritten sink stream => Sys2Proof.Machine.execRolloutRecordWritten sink stream s
  | .sinkInterrupt sink => Sys2Proof.Machine.execSinkInterrupt sink s
  | .ideIntegrityFailure stream => Sys2Proof.Machine.execIdeIntegrityFailure stream s
  | .linkReset kind => Sys2Proof.Machine.execLinkReset kind s
  | .statusReportSend => Sys2Proof.Machine.execStatusReportSend s
  | .statusReportReceive => Sys2Proof.Machine.execStatusReportReceive s
  | .workerReportTimeout worker => Sys2Proof.Machine.execWorkerReportTimeout worker s
  | .workerProbationEnd worker => Sys2Proof.Machine.execWorkerProbationEnd worker s
  | .domainControlReceive => Sys2Proof.Machine.execDomainControlReceive s
  | .routeProbeReceive => Sys2Proof.Machine.execRouteProbeReceive s
  | .prepareRequestReceive => Sys2Proof.Machine.execPrepareRequestReceive s
  | .preparedSampleReceive => Sys2Proof.Machine.execPreparedSampleReceive s
  | .exchangeDataReceive => Sys2Proof.Machine.execExchangeDataReceive s
  | .shardCopyDone dset shard => Sys2Proof.Machine.execShardCopyDone dset shard s
  | .managerOpenTimeout crew => Sys2Proof.Machine.execManagerOpenTimeout crew s
  | .powerRequestPs2 m => Sys2Proof.Machine.execPowerRequestPs2 m s
  | .powerRequestPs3 m => Sys2Proof.Machine.execPowerRequestPs3 m s
  | .powerRequestPs0 m => Sys2Proof.Machine.execPowerRequestPs0 m s
  | .powerEntryQuiesced => Sys2Proof.Machine.execPowerEntryQuiesced s
  | .powerEntryTimeout => Sys2Proof.Machine.execPowerEntryTimeout s
  | .ps1Entry => Sys2Proof.Machine.execPs1Entry s
  | .ps1Exit => Sys2Proof.Machine.execPs1Exit s
  | .wakeEvent source => Sys2Proof.Machine.execWakeEvent source s
  | .wakeTimerExpiry => Sys2Proof.Machine.execWakeTimerExpiry s
  | .wakeStepReady step => Sys2Proof.Machine.execWakeStepReady step s
  | .padRelease m => Sys2Proof.Machine.execPadRelease m s
  | .thermalThrottleTick raw => Sys2Proof.Machine.execThermalThrottleTick raw s
  | .powerMeasurement watts decivolts => Sys2Proof.Machine.execPowerMeasurement watts decivolts s
  | .dictionaryRead m => Sys2Proof.Machine.execDictionaryRead m s
  | .dictionaryWrite m => Sys2Proof.Machine.execDictionaryWrite m s
  | .dictionaryOpen m => Sys2Proof.Machine.execDictionaryOpen m s
  | .dictionaryProve m => Sys2Proof.Machine.execDictionaryProve m s
  | .dictionaryClose m => Sys2Proof.Machine.execDictionaryClose m s
  | .proveTimeout sid => Sys2Proof.Machine.execProveTimeout sid s
  | .sessionTimeout sid => Sys2Proof.Machine.execSessionTimeout sid s
  | .octsSegmentTimeout sid => Sys2Proof.Machine.execOctsSegmentTimeout sid s
  | .authLockoutExpiry t => Sys2Proof.Machine.execAuthLockoutExpiry t s
  | .deviceClaim m => Sys2Proof.Machine.execDeviceClaim m s
  | .keySlotWrite m => Sys2Proof.Machine.execKeySlotWrite m s
  | .dictionaryDefaults m => Sys2Proof.Machine.execDictionaryDefaults m s
  | .dictionaryUnclaim m => Sys2Proof.Machine.execDictionaryUnclaim m s
  | .calibrationWrite m => Sys2Proof.Machine.execCalibrationWrite m s
  | .licenceInstall m => Sys2Proof.Machine.execLicenceInstall m s
  | .licenceRemove m => Sys2Proof.Machine.execLicenceRemove m s
  | .deviceResetWrite m => Sys2Proof.Machine.execDeviceResetWrite m s
  | .spdmRequest t r => Sys2Proof.Machine.execSpdmRequest t r s
  | .powerLoss => Sys2Proof.Machine.execPowerLoss s
  | .slowclkReturn => Sys2Proof.Machine.execSlowclkReturn s
  | .electricalIdleExit => Sys2Proof.Machine.execElectricalIdleExit s
  | .interruptDelayExpiry qid => Sys2Proof.Machine.execInterruptDelayExpiry qid s
  | .setEndpointId eid => Sys2Proof.Machine.execSetEndpointId eid s
  | .dynamicAddressAssignment addr => Sys2Proof.Machine.execDynamicAddressAssignment addr s
  | .missingResponse ctx => Sys2Proof.Machine.execMissingResponse ctx s
  | .nakRepeat port => Sys2Proof.Machine.execNakRepeat port s
  | .pfcPauseExpiry port prio => Sys2Proof.Machine.execPfcPauseExpiry port prio s

end Sys2Proof.Machine
end

