-- ==== Sys2Proof/Machine/Step.lean ====
section
/-!
DEFINITION. One step: the command at the front of the queue, or the idle step.
-/
namespace Sys2Proof.Machine

/-- The idle step: one period of SLOWCLK_IN passes, counted by the local uptime while the always-on domain runs and
SLOWCLK_IN has edges (R431, R752). -/
def State.idle (s : State) : State :=
  if s.pins.aon && s.pins.slowclk then { s with uptime := (s.uptime + 1) % 18446744073709551616 } else s

/-- Take the command at the front of the queue and run it on the state whose queue is the rest; on an empty queue idle. -/
def step (s : State) : Host.Outcome State Fault Refusal :=
  match s.pending with
  | [] => .next s.idle
  | c :: rest => exec c { s with pending := rest }

/-- The state with the command that a word spells put at the front of the queue; unchanged where it spells none. -/
def State.withFetchWord (s : State) (nbits w : Nat) : State :=
  match decodeTableWord nbits w with
  | some c => { s with pending := c :: s.pending }
  | none => s

end Sys2Proof.Machine
end

