-- ==== Sys2Proof/Machine/DramOps.lean ====
section
/-!
DEFINITION. The lines of the two DRAM tiers (R435, R436, R441): their layout, their parity and what they hold as the buffers' holders
wrote them.
-/
namespace Sys2Proof.Machine

/-! ### Lines (R435) -/

/-- R435: the line of a device data address. -/
def lineOf (a : Nat) : Nat := a / 64

/-- R435: the byte of its line at which a device data address lies. -/
def lineByte (a : Nat) : Nat := a % 64

/-- R435: the parity bit of a data byte: set so that the byte and the bit together hold an odd number of 1 bits. -/
def parityBit (b : Byte) : Bool := ((List.range 8).filter fun i => b.getLsbD i).length % 2 == 0

/-- R435: parity byte i of a line, over its data bytes 8i to 8i + 7. -/
def parityByte (data : Bytes) (i : Nat) : Byte := byteOf ((List.range 8).map fun j => bit (parityBit (data.getD (8 * i + j) 0)) j).sum

/-- R435, R436: a line as its writer puts it: 64 data bytes, then the 8 parity bytes. -/
def dramLine (data : Bytes) : Bytes :=
  let d := fitTo 64 data
  d ++ (List.range 8).map (parityByte d)

/-- R435, R436: does data byte k of a line agree with its parity bit? -/
def byteGood (line : Bytes) (k : Nat) : Bool := (line.getD (64 + k / 8) 0).getLsbD (k % 8) == parityBit (line.getD k 0)

/-- R436: what a reader takes of data byte k of a line; none on a mismatch, since the data are then never used (R438). -/
def dramLineRead (line : Bytes) (k : Nat) : Option Byte := if byteGood line k then some (line.getD k 0) else none

/-! ### What the lines hold -/

/-- What a buffer's holder has written into it, from its first byte: a batch image (R236), a vocabulary or grammar (R302, R325), a rollout
record (R329). The spec gives the other uses no layout. -/
def State.bufData (s : State) (b : Buf) : Bytes :=
  match b.ref with
  | .batch crew rank k => match (s.run crew).bind fun r => r.job.batch rank k with
    | some x => batchImage x
    | none => []
  | r =>
    match s.vocabs.find? fun v => vocabRef v.num == r with
    | some v => v.image
    | none => match s.grammars.find? fun v => grammarRef v.num == r with
      | some v => v.image
      | none => match s.streams.find? fun t => recordRef t.sink t.num == r with
        | some t => t.body
        | none => []

/-- The offset in a live buffer or chain of the device data address of a tier, where it lies in it. -/
def Pools.offsetIn (m : Pools) (b : Buf) (tier a : Nat) : Option Nat :=
  if b.tier != tier then none
  else (b.parts.findIdx? fun x => m.holds tier a x).map fun i =>
    let x := b.parts.getD i (0, 0)
    chainBytes (b.parts.take i) + (a - m.base tier x.1 - x.2 * poolSize x.1)

/-- R441: does an address lie in a buffer that no request has taken from its ring since the pools were carved? -/
def Pools.untouched (m : Pools) (tier a : Nat) : Bool :=
  m.pools.any fun p => p.tier == tier &&
    let first := m.base tier p.n
    first + p.fresh * poolSize p.n ≤ a && a < first + p.total * poolSize p.n

/-- R435, R441: the byte at a device data address of a tier: what its holder wrote; zero where nothing was written since the pools were
carved; any other byte is what the line last held, which the spec leaves undefined. -/
def State.dramByte (s : State) (tier a : Nat) : Byte :=
  match s.mem.bufs.findSome? fun b => (s.mem.offsetIn b tier a).map fun o => (b, o) with
  | some (b, o) => (s.bufData b).getD o (Config.dramOld tier a)
  | none => if s.mem.untouched tier a then 0 else Config.dramOld tier a

/-- R435: line `l` of a tier as it stands in the array. -/
def State.dramLineAt (s : State) (tier l : Nat) : Bytes := dramLine ((List.range 64).map fun i => s.dramByte tier (64 * l + i))

/-- R436, R438: a read of the byte at a device data address. -/
def State.dramRead (s : State) (tier a : Nat) : Option Byte := dramLineRead (s.dramLineAt tier (lineOf a)) (lineByte a)

end Sys2Proof.Machine
end

