-- ==== Sys2Proof/Safety.lean ====
section
/-!
DEFINITION. What counts as a sound state, and what the effect of a command leaves alone, in the terms the statements use.
-/
namespace Sys2Proof.Machine

/-- R745, R740, R741: the power state and the two throttle steps stay within the values the spec gives them. -/
def Power.legal (p : Power) : Prop := p.state ≤ 5 ∧ p.thermalStep ≤ 12 ∧ p.powerStep ≤ 12

/-- The parts of the state that most effects leave alone: the fuses, the queue of commands, the local uptime, the lands and
supplies, the power record, the write window's bytes (R557) and the BAR bytes (R580). -/
structure Kernel where
  /-- Fuses. -/
  fuses : Fuses
  /-- Commands that wait. -/
  pending : List Instr
  /-- R431: local uptime. -/
  uptime : Nat
  /-- Lands and supplies. -/
  pins : Pins
  /-- Power states, wake and throttling. -/
  power : Power
  /-- Bytes of the write window. -/
  window : List (Nat × Byte)
  /-- BAR bytes. -/
  bars : List (Nat × Byte)

/-- The kernel of a state. -/
def State.kernel (s : State) : Kernel :=
  { fuses := s.fuses, pending := s.pending, uptime := s.uptime, pins := s.pins, power := s.power,
    window := s.host.window, bars := s.host.barBytes }

/-- A sound kernel: the power state is a legal one, and both sparse stores are in their canonical form. -/
def Kernel.sound (k : Kernel) : Prop :=
  k.power.legal ∧ cellsWf (fun _ => 0) k.window = true ∧ cellsWf barDefault k.bars = true

/-- A sound state. -/
def State.sound (s : State) : Prop := s.kernel.sound

/-- No fault message is on its way to the collector: the state between two commands (R631). -/
abbrev State.quiet (s : State) : Prop := s.faults.transit = []

/-- What every effect keeps: the fuses and the queue as they are, and a sound state sound. -/
def Kernel.keeps (k l : Kernel) : Prop := l.fuses = k.fuses ∧ l.pending = k.pending ∧ (k.sound → l.sound)

/-! ### Dictionary requests, as the statements speak of them -/

/-- R667 checks 1 and 2: a request that the dictionary takes up. -/
def State.takesUp (s : State) (m : DictMsg) : Prop :=
  s.hears m = true ∧ 32 ≤ m.msg.length ∧ dmMagic m = 0xC4A5D33B ∧ dmVer m = 1 ∧ dmRangesOk m = true

/-- R667 checks 1 to 3: a WRITE of a session that is open, with its signature good. -/
def State.signs (s : State) (m : DictMsg) (x : Session) : Prop :=
  s.takesUp m ∧ dmOp m = 2 ∧ dmSid m ≠ 0 ∧ s.openSession m = some x ∧ s.signatureOk m x = true

/-- The WRITE that a message asks for in a session, when it carries its value whole. -/
def askedBy (m : DictMsg) (x : Session) : DictWrite := { role := x.role, idx := dmIdx m, sub := dmSub m, value := dmValue m }

/-- R667 checks 1 to 6: a WRITE that carries its value whole, of an object its session's role may write, within the object's range. -/
def State.writes (s : State) (m : DictMsg) (x : Session) (r : ObjRow) : Prop :=
  s.signs m x ∧ findObject m x.role true = .inr r ∧ s.writeInRange (askedBy m x) r = true ∧ (r.ty = .octs → dmOff m = 0 ∧ dmLast m = true)

/-- R677, R665, R718: a WRITE is judged: PS1 ends, its SEQ counts, and a value that is a byte string replaces the segments held. -/
def State.accepted (s : State) (m : DictMsg) (x : Session) (r : ObjRow) : State :=
  let t := s.leavePs1.modSession x.sid fun y => { y with seq := dmSeq m, wrote := true }
  if r.ty = .octs then t.modSession x.sid fun y => { y with octs := none } else t

/-- R682, R683: the audit entry of a WRITE in a state before its effect. -/
def State.entryOf (s : State) (m : DictMsg) (x : Session) (r : ObjRow) (kind : Nat) : Audit :=
  { kind := kind, role := x.role, transport := transportCode m.transport, hash := s.sessionHash x, idx := dmIdx m, sub := dmSub m,
    ty := r.ty.code, old := s.dictValue (dmIdx m) (dmSub m) r, new := dmValue m, time := dmTime m }

/-- R663, R682: a WRITE that took effect is audited and answered with Success and the entry's JSEQ. -/
def State.recorded (s : State) (m : DictMsg) (r : ObjRow) (e : Audit) : State :=
  (s.audit e).respond m { status := 0x00, ty := r.ty.code, jseq := s.dict.jseq }

end Sys2Proof.Machine
end

