-- ==== Sys2Proof/WellFormed.lean ====
section
/-!
DEFINITION. When a command is well formed: every operand lies in the range the spec's field for it has. One named check
for each kind of operand; `Instr.wf` names the checks of each command.
-/
namespace Sys2Proof
namespace WF

/-- R532: queue pair number. -/
def qid (n : Nat) : Bool := n < 256
/-- R539: command id, 16 bits. -/
def cid (n : Nat) : Bool := n < 65536
/-- R599: crew number. -/
def crew (n : Nat) : Bool := n < 64
/-- R19: context number. -/
def ctx (n : Nat) : Bool := n < 16384
/-- R341: port number. -/
def port (n : Nat) : Bool := n < 36
/-- R377: local queue pair number, 24 bits. -/
def lqpn (n : Nat) : Bool := n < 16777216
/-- R390: packet sequence number, 24 bits. -/
def psn (n : Nat) : Bool := n < 16777216
/-- R355: a flit is 256 bytes. -/
def flit (b : Bytes) : Bool := b.length == 256
/-- R539: a capsule is 64 bytes. -/
def capsule (b : Bytes) : Bool := b.length == 64
/-- R582: a BAR0 register value of 32 bits. -/
def u32 (n : Nat) : Bool := n < 4294967296
/-- R310: sink number. -/
def sink (n : Nat) : Bool := n < 64
/-- R465: NAND channel number. -/
def channel (n : Nat) : Bool := n < 32
/-- R40: dataset number. -/
def dset (n : Nat) : Bool := 1 ≤ n && n < 65536
/-- R27: sensor number, 0 to 15. -/
def sensor (n : Nat) : Bool := n < 16
/-- R676: a transport address is 8 bytes. -/
def msg (m : DictMsg) : Bool := m.addr.length == 8
/-- R731: the values of a sensor reading of the sixteen sensors. -/
def readings (l : List Int) : Bool := l.length == 16
/-- R556: a grant's slices, 1 to 16 of the 16,384. -/
def slices (first count : Nat) : Bool := 1 ≤ count && count ≤ 16 && first + count ≤ 16384
/-- R440: a tier and a pool of it. -/
def pool (tier n : Nat) : Bool := tier < 2 && n < 6
/-- R444: requester class. -/
def cls (n : Nat) : Bool := n < 7
/-- R631: a fault message's fields within their widths. -/
def fault (f : FaultIn) : Bool := f.unit < 4096 && f.sub < 16 && f.kind < 256 && f.phys < 4096 && f.count < 65536
/-- R387: an IEEE 802.1Qbb priority. -/
def prio (n : Nat) : Bool := n < 8
/-- R369: a device id, 12 bits. -/
def device (n : Nat) : Bool := n < 4096
/-- R365: a virtual channel. -/
def vc (n : Nat) : Bool := n < 4

end WF

/-- Every operand of the command is in range. -/
def Instr.wf (i : Instr) : Bool :=
  match i with
  | .vin48Rise d => WF.u32 d
  | .pwrokRise => true
  | .pwrokFall _ => true
  | .resetNFall ns => WF.u32 ns
  | .resetNRise _ => true
  | .inputFault c d => c < 4 && WF.u32 d
  | .inputRecovery d => WF.u32 d
  | .brownOut => true
  | .slowclkLoss => true
  | .regulatorFault u => u < 4096
  | .overTemperature n _ => WF.sensor n
  | .hwThermalTrip n => WF.sensor n
  | .startupStepReady n => n.step ≤ 10
  | .memoryTrainingDone _ _ _ _ => true
  | .cxlLinkTrained _ w f _ => w ≤ 16 && f ≤ 3
  | .selfTestDone _ _ => true
  | .startupComplete => true
  | .startupWatchdog => true
  | .recoveryDownload _ => true
  | .recoveryDownloadEnd _ => true
  | .mountStepReady n _ => n ≤ 8
  | .adminQueueCreate => true
  | .adminQueueDelete => true
  | .deverrClear _ _ => true
  | .sqtailDoorbell q v => WF.qid q && WF.u32 v
  | .cqheadDoorbell q v => WF.qid q && WF.u32 v
  | .sliceDoneDoorbell v => WF.u32 v
  | .writeWindowWrite o d => o + d.length ≤ 1073741824
  | .registerWrite b _ n _ => b < 5 && n ≤ 8
  | .tailLineSnoop _ => true
  | .capsuleFetch c _ => WF.capsule c
  | .completionPost q => WF.qid q
  | .transferReadyGrant q c f n => WF.qid q && WF.cid c && WF.slices f n
  | .grantTimeout q c => WF.qid q && WF.cid c
  | .dmaReadError _ => true
  | .identify q c => WF.qid q && WF.cid c
  | .getLog q c => WF.qid q && WF.cid c
  | .getFeatures q c => WF.qid q && WF.cid c
  | .firmwareDownload q c => WF.qid q && WF.cid c
  | .firmwareCommit q c => WF.qid q && WF.cid c
  | .queuePairCreate q c => WF.qid q && WF.cid c
  | .queuePairDelete q c => WF.qid q && WF.cid c
  | .abort q c _ => WF.qid q && WF.cid c
  | .ingestOpen q c => WF.qid q && WF.cid c
  | .ingestClose q c => WF.qid q && WF.cid c
  | .ingestWrite q c => WF.qid q && WF.cid c
  | .blockCompress _ => true
  | .crewForm q c => WF.qid q && WF.cid c
  | .crewDissolve q c => WF.qid q && WF.cid c
  | .crewJoin q c => WF.qid q && WF.cid c
  | .domainForm q c => WF.qid q && WF.cid c
  | .domainRegister q c => WF.qid q && WF.cid c
  | .domainDissolve q c => WF.qid q && WF.cid c
  | .catalogueRegister q c => WF.qid q && WF.cid c
  | .catalogueRemove q c => WF.qid q && WF.cid c
  | .vocabularyLoad q c => WF.qid q && WF.cid c
  | .vocabularyRemove q c => WF.qid q && WF.cid c
  | .grammarLoad q c => WF.qid q && WF.cid c
  | .grammarRemove q c => WF.qid q && WF.cid c
  | .rolloutSinkOpen q c => WF.qid q && WF.cid c
  | .rolloutSinkFlush q c => WF.qid q && WF.cid c
  | .rolloutSinkClose q c => WF.qid q && WF.cid c
  | .queuePairSet q c => WF.qid q && WF.cid c
  | .queuePairRemove q c => WF.qid q && WF.cid c
  | .read q c => WF.qid q && WF.cid c
  | .write q c => WF.qid q && WF.cid c
  | .deallocate q c => WF.qid q && WF.cid c
  | .secureDeallocate q c => WF.qid q && WF.cid c
  | .flush q c => WF.qid q && WF.cid c
  | .loadRecipe q c => WF.qid q && WF.cid c
  | .setTablesBuilt w => WF.crew w
  | .openEpoch q c => WF.qid q && WF.cid c
  | .requestBatches q c => WF.qid q && WF.cid c
  | .suspend q c => WF.qid q && WF.cid c
  | .suspendDrained w => WF.crew w
  | .resume q c => WF.qid q && WF.cid c
  | .close q c => WF.qid q && WF.cid c
  | .closeDrained w => WF.crew w
  | .resetCrew q c => WF.qid q && WF.cid c
  | .dealPosition w => WF.crew w
  | .flashBlockArrive c => WF.ctx c
  | .unitResultArrive c => WF.ctx c
  | .workCapAbort c => WF.ctx c
  | .crabBudgetExpiry c => WF.ctx c
  | .sampleRelease c => WF.ctx c
  | .collectorAccept w => WF.crew w
  | .heatPackDone w _ _ _ => WF.crew w
  | .batchTransmitStart w _ => WF.crew w
  | .rdmaAckReceive l p => WF.lqpn l && WF.psn p
  | .cxlBatchWrite w _ => WF.crew w
  | .rnrNakReceive l => WF.lqpn l
  | .transportTimeout l => WF.lqpn l
  | .deadlineDecision w _ _ => WF.crew w
  | .parityError _ => true
  | .residentCopyGranule d _ _ => WF.dset d
  | .bufferAllocate _ _ _ => true
  | .bufferFree _ _ => true
  | .ownerAdd _ _ => true
  | .poolCacheRefill t p c => WF.pool t p && WF.cls c
  | .poolExhausted c t p => WF.pool t p && WF.cls c
  | .quarantineTestDone _ _ => true
  | .nandReadComplete _ _ _ => true
  | .pageProgramComplete _ => true
  | .programFailure _ => true
  | .wordLineTimeout _ s => s < 3
  | .eraseComplete _ _ => true
  | .eraseFailure _ _ m => m < 16
  | .relocationStart _ => true
  | .relocationCopyDone _ => true
  | .patrolRead _ _ _ _ _ => true
  | .patrolPositionRecord => true
  | .lunStatusTimeout ch _ => WF.channel ch
  | .lunFailure ch _ => WF.channel ch
  | .rebuildStripe _ => true
  | .rebuildProgressRecord => true
  | .mediaFormat m => WF.msg m
  | .mediaFormatDone => true
  | .faultMessage f _ => WF.fault f
  | .faultCoalesceFlush u s k => u.unit < 4096 && s < 16 && k < 256 && u.phys < 4096
  | .scoreHalving => true
  | .fenceWindowExpiry w => WF.crew w
  | .commonCauseWindowExpiry => true
  | .faultInterrupt => true
  | .faultAck m => WF.msg m
  | .portModeWrite m => WF.msg m
  | .portRetrain m => WF.msg m
  | .portTrainingComplete p _ => WF.port p
  | .laneLoss p l => WF.port p && l < 16
  | .handshakeFlitReceive p f => WF.port p && WF.flit f.flit
  | .dataFlitReceive p f => WF.port p && WF.flit f.flit
  | .idleFlitReceive p f => WF.port p && WF.flit f.flit
  | .nakFlitReceive p f => WF.port p && WF.flit f.flit
  | .replayTimeout p => WF.port p
  | .creditReturn p v => WF.port p && WF.vc v
  | .ryheroPacketReceive p v => WF.port p && WF.vc v
  | .transmitFrame p => WF.port p
  | .frameOverheadExpiry p => WF.port p
  | .shaperBurstWrite m => WF.msg m
  | .roceSendReceive p => WF.port p.port && WF.lqpn p.lqpn && WF.psn p.psn
  | .cePacketReceive l => WF.lqpn l.lqpn
  | .cnpReceive l => WF.lqpn l.lqpn
  | .rateRecoveryTick l => WF.lqpn l
  | .pfcPauseReceive p a b => WF.port p && a.all WF.prio && b.all WF.prio
  | .neighbourRequestReceive p _ => WF.port p
  | .rolloutMessage => true
  | .rolloutFilter n _ => WF.sink n
  | .rolloutRecordWritten n _ => WF.sink n
  | .sinkInterrupt n => WF.sink n
  | .ideIntegrityFailure _ => true
  | .linkReset _ => true
  | .statusReportSend => true
  | .statusReportReceive => true
  | .workerReportTimeout w => WF.device w
  | .workerProbationEnd w => WF.device w
  | .domainControlReceive => true
  | .routeProbeReceive => true
  | .prepareRequestReceive => true
  | .preparedSampleReceive => true
  | .exchangeDataReceive => true
  | .shardCopyDone d _ => WF.dset d
  | .managerOpenTimeout w => WF.crew w
  | .powerRequestPs2 m => WF.msg m
  | .powerRequestPs3 m => WF.msg m
  | .powerRequestPs0 m => WF.msg m
  | .powerEntryQuiesced => true
  | .powerEntryTimeout => true
  | .ps1Entry => true
  | .ps1Exit => true
  | .wakeEvent n => n < 4
  | .wakeTimerExpiry => true
  | .wakeStepReady n => 1 ≤ n && n ≤ 5
  | .padRelease m => WF.msg m
  | .thermalThrottleTick l => WF.readings l
  | .powerMeasurement w d => w < 65536 && d < 65536
  | .dictionaryRead m => WF.msg m
  | .dictionaryWrite m => WF.msg m
  | .dictionaryOpen m => WF.msg m
  | .dictionaryProve m => WF.msg m
  | .dictionaryClose m => WF.msg m
  | .proveTimeout n => WF.u32 n
  | .sessionTimeout n => WF.u32 n
  | .octsSegmentTimeout n => WF.u32 n
  | .authLockoutExpiry _ => true
  | .deviceClaim m => WF.msg m
  | .keySlotWrite m => WF.msg m
  | .dictionaryDefaults m => WF.msg m
  | .dictionaryUnclaim m => WF.msg m
  | .calibrationWrite m => WF.msg m
  | .licenceInstall m => WF.msg m
  | .licenceRemove m => WF.msg m
  | .deviceResetWrite m => WF.msg m
  | .spdmRequest _ _ => true
  | .powerLoss => true
  | .slowclkReturn => true
  | .electricalIdleExit => true
  | .interruptDelayExpiry q => WF.qid q
  | .setEndpointId n => n < 256
  | .dynamicAddressAssignment n => n < 128
  | .missingResponse c => WF.ctx c
  | .nakRepeat p => WF.port p
  | .pfcPauseExpiry p n => WF.port p && WF.prio n

end Sys2Proof
end

