-- ==== Sys2Proof/Certificates/Slice0/Obligations.lean ====
section
/-!
DEFINITION. The statements for the provers: what the commands do, what they leave unchanged, and what every step keeps.
-/
open Sys2Proof Sys2Proof.Machine

/-- VIN48, PWROK and RESET_N rising, the input in range again and SLOWCLK_IN returning. In any state between two commands: VIN48
rising to 40 V or more starts the always-on domain and VAUX18 and latches the NAND pads; PWROK rising, RESET_N rising (which
samples MGR_SEL) and VIN48 back between 39.0 V and 60.0 V begin step 1 of the start-up sequence when everything else it needs
is there; SLOWCLK_IN edges return. Nothing else of the state changes. (21_package.md, 19_startup.md, R691, R756) -/
def Obligations.SupplyEventsStart : Prop :=
  (∀ (s : State) (dv : Nat), s.quiet → s.pins.vin48 = false → 400 ≤ dv →
    exec (.vin48Rise dv) s = .next { s with pins := { s.pins with
      vin48 := true, aon := true, vaux18 := true, padHold := some .powerUp, inputVoltage := dv } }) ∧
  (∀ s : State, s.quiet → s.pins.vin48 = true → s.pins.pwrok = false → s.pins.resetN = true → s.pins.inputBad = false →
    s.pins.hwTrip = false → s.startup.phase = .off →
    exec .pwrokRise s = .next { s with
      pins := { s.pins with pwrok := true, alertTemp := false }
      startup := { s.startup with phase := .step 1, began := s.uptime } }) ∧
  (∀ (s : State) (m : Bool), s.quiet → s.pins.vin48 = true → s.pins.pwrok = true → s.pins.inputBad = false →
    s.pins.hwTrip = false → s.startup.phase = .off →
    exec (.resetNRise m) s = .next { s with
      pins := { s.pins with resetN := true, mgrSel := m, alertTemp := false }
      startup := { s.startup with phase := .step 1, began := s.uptime } }) ∧
  (∀ (s : State) (dv : Nat), s.quiet → s.pins.inputBad = true → 390 ≤ dv → dv ≤ 600 → s.pins.vin48 = true →
    s.pins.pwrok = true → s.pins.resetN = true → s.pins.hwTrip = false → s.startup.phase = .off →
    exec (.inputRecovery dv) s = .next { s with
      pins := { s.pins with inputBad := false, inputVoltage := dv, alertTemp := false }
      startup := { s.startup with phase := .step 1, began := s.uptime } }) ∧
  (∀ s : State, s.quiet → exec .slowclkReturn s = .next { s with pins := { s.pins with slowclk := true } })

/-- What the device loses and keeps when power goes, PWROK or RESET_N falls, or a thermal trip or brown-out comes. A loss of
VIN48, a brown-out, a fall of PWROK, a low pulse of RESET_N of 10 µs or more, VIN48 out of range, SLOWCLK_IN without edges in
a running device and the hardware thermal trip each leave a device with no crew, context, command, queue pair, session or
fault entry, whose fuses, catalogue, vocabularies, grammars, written object values, audit journal, licences and waiting
commands are as before; StartupCause, the pads and the counter of the event are as the rules give them. (19_startup.md,
20_power.md, 21_package.md, R738, R758, R759, R761, R764) -/
def Obligations.PowerEventsLoseVolatileState : Prop :=
  let lost (s t : State) : Prop := t.crews = [] ∧ t.contexts = [] ∧ t.sinks = [] ∧ t.host.cmds = [] ∧ t.host.qps = [] ∧
    t.dict.sessions = [] ∧ t.faults.queue = [] ∧ t.roce = [] ∧ t.power.state = 0 ∧
    t.fuses = s.fuses ∧ t.catalogue = s.catalogue ∧ t.vocabs = s.vocabs ∧ t.grammars = s.grammars ∧
    t.dict.values = s.dict.values ∧ t.dict.journal = s.dict.journal ∧ t.startup.licences = s.startup.licences ∧
    t.pending = s.pending
  (∀ s : State, s.pins.vin48 = true → ∃ t, exec .powerLoss s = .next t ∧ lost s t ∧ t.uptime = 0 ∧ t.startup.cause = 0 ∧
    t.pins.vin48 = false ∧ t.pins.aon = false ∧ t.pins.pwrok = false) ∧
  (∀ s : State, s.pins.aon = true → ∃ t, exec .brownOut s = .next t ∧ lost s t ∧ t.uptime = 0 ∧ t.startup.cause = 2 ∧
    t.pins.padHold = some .brownOut ∧ t.power.brownOuts = (s.power.brownOuts + 1) % 4294967296) ∧
  (∀ (s : State) (l : List Nat), s.pins.pwrok = true → ∃ t, exec (.pwrokFall l) s = .next t ∧ lost s t ∧
    t.uptime = s.uptime ∧ t.startup.cause = 1 ∧ t.pins.pwrok = false ∧ t.pins.padHold = some .pwrok ∧ t.pins.rails = {}) ∧
  (∀ (s : State) (ns : Nat), s.pins.resetN = true → 10000 ≤ ns → ∃ t, exec (.resetNFall ns) s = .next t ∧ lost s t ∧
    t.uptime = s.uptime ∧ t.startup.cause = 1 ∧ t.pins.resetN = false) ∧
  (∀ (s : State) (c dv : Nat), s.pins.vin48 = true → s.pins.inputBad = false → c < 4 → 200 ≤ dv → dv < 380 ∨ 620 < dv →
    ∃ t, exec (.inputFault c dv) s = .next t ∧ lost s t ∧ t.startup.cause = 2 ∧ t.pins.inputBad = true ∧
      t.pins.inputFaults = (s.pins.inputFaults + 1) % 4294967296 ∧
      t.startup.heldFaults = s.startup.heldFaults ++ [0x2D0 + c]) ∧
  (∀ s : State, s.pins.aon = true → s.startup.phase = .complete → ∃ t, exec .slowclkLoss s = .next t ∧ lost s t ∧
    t.pins.slowclk = false ∧ t.startup.cause = 2) ∧
  (∀ (s : State) (n : Nat), n < 16 → s.pins.aon = true → ∃ t, exec (.hwThermalTrip n) s = .next t ∧ lost s t ∧
    t.pins.rails = {} ∧ t.pins.alertTemp = true ∧ t.pins.hwTrip = true ∧ t.pins.hwTrips = (s.pins.hwTrips + 1) % 4294967296)

/-- What a regulator fault and an over-temperature stop switch off. While the cox runs, a fault of a second-stage regulator
leaves that regulator off (the domains' ones by their units 0x2D4 to 0x2D7, HD 0x2D8, the engine domains 0x2D9 and 0x2DA,
HBM3E 0x2DB, LPDDR5X 0x2DC, NAND I/O 0x2DD) and the other lands as they were; a sensor at or above its trip point holds
ALERT_N low, takes the rails of PD0 to PD3, ED0, ED1, HBM3E and LPDDR5X off and leaves the sensor's reading in its object.
Neither changes the fuses, the uptime or the waiting commands. (20_power.md, 21_package.md, R762, R763) -/
def Obligations.RegulatorAndTemperatureStops : Prop :=
  (∀ (s : State) (u : Nat), s.coxUp = true → 0x2D4 ≤ u → u ≤ 0x2DD → ∃ t, exec (.regulatorFault u) s = .next t ∧
    t.fuses = s.fuses ∧ t.uptime = s.uptime ∧ t.pending = s.pending ∧ t.power = s.power ∧
    ∃ r : Rails, t.pins = { s.pins with rails := r } ∧ r.converters = s.pins.rails.converters ∧
      r.pd = (if u ≤ 0x2D7 then s.pins.rails.pd.set (u - 0x2D4) false else s.pins.rails.pd) ∧
      r.ed = (if 0x2D9 ≤ u ∧ u ≤ 0x2DA then s.pins.rails.ed.set (u - 0x2D9) false else s.pins.rails.ed) ∧
      r.hd = (if u = 0x2D8 then false else s.pins.rails.hd) ∧ r.hbm = (if u = 0x2DB then false else s.pins.rails.hbm) ∧
      r.lpddr = (if u = 0x2DC then false else s.pins.rails.lpddr) ∧ r.nandIo = (if u = 0x2DD then false else s.pins.rails.nandIo)) ∧
  (∀ (s : State) (n : Nat) (c : Int), s.coxUp = true → n < 16 → tripOf n ≤ c →
    ∃ t, exec (.overTemperature n c) s = .next t ∧
    t.fuses = s.fuses ∧ t.uptime = s.uptime ∧ t.pending = s.pending ∧
    t.pins = { s.pins with alertTemp := true, rails := { s.pins.rails with pd := [false, false, false, false], ed := [false, false],
                                                                           hbm := false, lpddr := false } } ∧
    t.power = { s.power with temps := s.power.temps.set n c })

/-- Steps 1 to 4 of the start-up sequence. In a state between two commands whose start-up awaits the ready signal: HD power good
(with SLOWCLK_IN running) leads to step 2, PLL lock to step 3, the fuses read to step 4 with the disabled-unit map as the
fuses give it, and at step 4 a committed slot whose image verifies at or above the security counter is taken (else, with no
commit and no fallback, the slot that last reached start-up complete, when it verifies) and the cox firmware starts in it:
step 5. Nothing else changes. The ready signal of a step the start-up does not await changes nothing. (19_startup.md, R691,
R696, R698) -/
def Obligations.StartupStepsFollow : Prop :=
  (∀ (s : State) (f : Nat), s.quiet → s.startup.phase = .step 1 → s.pins.slowclk = true → exec (.startupStepReady ⟨1, f⟩) s = .next { s with
    pins := { s.pins with rails := { s.pins.rails with converters := [true, true, true, true], hd := true } }
    startup := { s.startup with phase := .step 2 } }) ∧
  (∀ (s : State) (f : Nat), s.quiet → s.startup.phase = .step 2 →
    exec (.startupStepReady ⟨2, f⟩) s = .next { s with startup := { s.startup with phase := .step 3 } }) ∧
  (∀ (s : State) (f : Nat), s.quiet → s.startup.phase = .step 3 → exec (.startupStepReady ⟨3, f⟩) s = .next { s with
    faults := { s.faults with disabledEngines := s.fuses.engines, disabledEights := s.fuses.eights }
    startup := { s.startup with phase := .step 4 } }) ∧
  (∀ (s : State) (n f : Nat), s.quiet → s.startup.phase = .step 4 → s.startup.pending = some n → n < 2 → s.judgeSlot n = 3 →
    exec (.startupStepReady ⟨4, f⟩) s = .next { s with startup := { s.startup with
      pending := none, takeNext := none, running := some n, fromCommit := true, phase := .step 5
      slotA := if n = 0 then { s.startup.slotA with state := 3 } else s.startup.slotA
      slotB := if n = 1 then { s.startup.slotB with state := 3 } else s.startup.slotB } }) ∧
  (∀ (s : State) (n f : Nat), s.quiet → s.startup.phase = .step 4 → s.startup.pending = none → s.startup.takeNext = none →
    s.startup.lastGood = n → n < 2 → s.judgeSlot n = 3 →
    exec (.startupStepReady ⟨4, f⟩) s = .next { s with startup := { s.startup with
      running := some n, fromCommit := false, phase := .step 5
      slotA := if n = 0 then { s.startup.slotA with state := 3 } else s.startup.slotA
      slotB := if n = 1 then { s.startup.slotB with state := 3 } else s.startup.slotB } }) ∧
  (∀ (s : State) (n f : Nat), s.quiet → s.startup.phase ≠ .step n → exec (.startupStepReady ⟨n, f⟩) s = .next s)

/-- The memories trained, the CXL link trained and the self-test done. At step 7 the end of memory training leaves out the stacks
0 to 7 and packages 0 to 17 that failed, each of whose score goes to 1,023, notes the fallbacks and leads to step 8. A CXL
link in training that trains at ×16, ×8 or ×4 shows its speed, width and flit mode and lets start-up complete; one of width 0
is down and lets start-up complete; one narrower than ×4 trains once more, and the second time is left down with a fault of
unit 0x2C0, kind 0x26, naming its width. At step 9 self-test fences each failing engine and unit, forms the logical unit map
from the eights each die carries, and leads to step 10. Saved settings not used are noted as fallbacks. (19_startup.md,
15_cxl.md, 01_architecture.md, R578, R691, R700, R701, R702, R703, R705, R708, R768) -/
def Obligations.MemoryTrainedAndLinkTrained : Prop :=
  (∀ (s : State) (hbm lp : List Nat) (a b : Bool), s.startup.phase = .step 7 →
    let out : State := { s with mem := { s.mem with hbmOut := ascending 8 hbm, lpOut := ascending 18 lp } }
    let u := (ascending 8 hbm).foldl (fun s n => s.failUnit (.other (0x240 + n)) { unit := 0x240 + n, kind := 0x04 })
      ((out.trainedBy 0 a).trainedBy 1 b)
    let w := (ascending 18 lp).foldl (fun s n => s.failUnit (.other (0x250 + n)) { unit := 0x250 + n, kind := 0x04 }) u
    exec (.memoryTrainingDone hbm lp a b) s = .next ({ w with startup := { w.startup with phase := .step 8 } } : State).settle) ∧
  (∀ (s : State) (u : UnitRef) (r : Raise), (s.failUnit u r).faults.score u = 1023) ∧
  (∀ (s : State) (n : Nat) (b : Bool),
    let own := s.num 0x8003 0 = 1
    let saved := s.startup.savedSettings / 2 ^ n % 2 = 1
    (own → s.trainedBy n b = { s with startup := { s.startup with trainedLocal := s.startup.trainedLocal ||| 2 ^ n } }) ∧
    (¬own → saved → b = false → s.trainedBy n b = s) ∧
    (¬own → (¬saved ∨ b = true) → s.trainedBy n b = { s with startup := { s.startup with
      fallbacks := s.startup.fallbacks ||| 2 ^ n, trainedLocal := s.startup.trainedLocal ||| 2 ^ n } })) ∧
  (∀ (s : State) (v w f : Nat) (b : Bool), s.host.training = true →
    let t := s.trainedBy 2 b
    let done : Startup := { t.startup with cxlDone := true }
    (w = 16 ∨ w = 8 ∨ w = 4 → exec (.cxlLinkTrained v w f b) s = .next (({ t with
      host := { s.host with speed := v, width := w, flit := f, training := false }, startup := done } : State).recheckTimed).settle) ∧
    (w = 0 → exec (.cxlLinkTrained v w f b) s = .next ({ t with
      host := { s.host with speed := 0, width := 0, flit := 0, training := false }, startup := done } : State).settle) ∧
    (w ≠ 16 → w ≠ 8 → w ≠ 4 → w ≠ 0 → s.host.narrowTried = false → exec (.cxlLinkTrained v w f b) s = .next ({ t with
      host := { s.host with speed := 0, width := 0, flit := 0, narrowTried := true } } : State).settle) ∧
    (w ≠ 16 → w ≠ 8 → w ≠ 4 → w ≠ 0 → s.host.narrowTried = true → exec (.cxlLinkTrained v w f b) s = .next ((({ t with
      host := { s.host with speed := 0, width := 0, flit := 0, leftDown := true, training := false }, startup := done } : State).raise
        { unit := 0x2C0, kind := 0x26, addr := w }).settle))) ∧
  (∀ (s : State) (engines : List Nat) (units : List (Nat × Nat)), s.startup.phase = .step 9 →
    let t := (ascending 612 engines).foldl (fun s p => (s.failUnit (.engine p) (s.engineReport p)).fence (.engine p)) s
    let w := ((units.filter fun u => u.1 < 68 && u.2 < 6).eraseDups).foldl (fun s u =>
      (s.failUnit (.eightUnit u.1 u.2) (s.unitReport u.1 u.2)).fence (.eightUnit u.1 u.2)) t
    exec (.selfTestDone engines units) s = .next ({ w.formMap with startup := { w.formMap.startup with phase := .step 10 } } : State).settle) ∧
  (∀ (s : State) (i : Nat), i < 64 →
    s.formMap.faults.lmap[i]? = some (((s.carriers (i / 16))[i % 16]?).map fun p => (p, s.laneMap p)))

/-- Start-up complete, and the watchdog's fall back to a slot. At step 11 with the CXL link trained or given up, start-up
completes: the phase is complete, the running slot is the one that last reached it, a commit is no longer on trial and the
time it took is shown. The watchdog of a start under way is a device reset of cause 4 when the image came from a commit and 5
otherwise, which takes the other slot, and counts a firmware fallback, in the first case, and the same slot in the second;
the queue of commands, the fuses and the catalogue stay. (19_startup.md, 11_repeatability.md, R691, R696, R697, R698, R716) -/
def Obligations.StartupEndsAndFallsBack : Prop :=
  (∀ s : State, s.startup.phase = .finishing → s.startup.cxlDone = true → s.startup.aenHeld = false → s.power.ps3Wake = false →
    s.crews = [] → (∀ p ∈ s.ports, p.state ≠ 3 ∧ p.state ≠ 4) → s.quiet → ∃ t, exec .startupComplete s = .next t ∧
    t.startup.phase = .complete ∧ t.startup.lastGood = s.startup.running.getD s.startup.lastGood ∧ t.startup.fromCommit = false ∧
    t.startup.lastTime = periodsUs (s.uptime - s.startup.began) ∧ t.host = s.host ∧ t.media = s.media ∧ t.ports = s.ports ∧
    t.pins = s.pins ∧ t.power = s.power ∧ t.catalogue = s.catalogue ∧ t.mem = s.mem) ∧
  (∀ s : State, s.startup.phase = .finishing → ∃ t, exec .startupWatchdog s = .next t ∧
    t.startup.cause = (if s.startup.fromCommit then 4 else 5) ∧
    t.startup.takeNext = some (if s.startup.fromCommit then 1 - s.startup.running.getD s.startup.lastGood
                               else s.startup.running.getD s.startup.lastGood) ∧
    t.startup.fwFallbacks = (if s.startup.fromCommit then (s.startup.fwFallbacks + 1) % 4294967296 else s.startup.fwFallbacks) ∧
    t.crews = [] ∧ t.pending = s.pending ∧ t.fuses = s.fuses ∧ t.catalogue = s.catalogue ∧ t.uptime = s.uptime)

/-- The recovery download and the steps of the mount. In the recovery state a download payload of an offset that is a multiple of
4,096 and bytes within slot A is written there, any other changes nothing, and its end starts an image that verifies at or
above the security counter in slot A: the start-up goes on at step 5. The mount's first step identifies the flash: one not
supported stops it, one not formatted ends it, the known one leads to step 2. Steps 2 to 4 build the forward map from the
summaries, from all tags, and with the trims, dropping what was not sealed; step 5 ends the mount. The pads held, or a step
that is not awaited, stop them. (19_startup.md, 13_media.md, R498, R499, R506, R691, R699, R732) -/
def Obligations.RecoveryAndMountSteps : Prop :=
  (∀ (s : State) (b : Bytes), s.quiet → s.startup.phase = .recovery → 4 < b.length →
    (field b 0 4 % 4096 = 0 → field b 0 4 + (b.length - 4) ≤ 25165824 → exec (.recoveryDownload b) s = .next { s with startup := { s.startup with
      slotA := { image := overlay s.startup.slotA.image (field b 0 4) (b.drop 4), state := 1 } } }) ∧
    (field b 0 4 % 4096 ≠ 0 ∨ 25165824 < field b 0 4 + (b.length - 4) → exec (.recoveryDownload b) s = .next s)) ∧
  (∀ (s : State) (b : Bytes), s.quiet → s.startup.phase = .recovery → b.length = 4 → s.judgeSlot 0 = 3 →
    exec (.recoveryDownloadEnd b) s = .next { s with startup := { s.startup with
      slotA := { s.startup.slotA with state := 3 }, running := some 0, fromCommit := false, phase := .step 5 } }) ∧
  (∀ (s : State) (g : NandGeometry), s.quiet → s.pins.padHold = none → s.media.mountStep = 1 →
    (geomSupported g = false → exec (.mountStepReady 1 g) s = .next { s with media := { s.media with state := 4, mountStep := 0 } }) ∧
    (geomSupported g = true → s.media.formatted = true → g ≠ s.media.geom → exec (.mountStepReady 1 g) s = .next s) ∧
    (geomSupported g = true → s.media.formatted = true → g = s.media.geom → exec (.mountStepReady 1 g) s = .next { s with media := { s.media with
      iface := .nvLpddr4, bus := identifyOps g ++ s.media.bus, mountStep := 2 } }) ∧
    (geomSupported g = true → s.media.formatted = false → exec (.mountStepReady 1 g) s = .next { s with media := { s.media with
      geom := g, iface := .nvLpddr4, bus := identifyOps g ++ s.media.bus, state := 3, mountStep := 0, lastMount := s.since s.media.mountBegan } })) ∧
  (∀ (s : State) (g : NandGeometry), s.quiet → s.pins.padHold = none →
    (s.media.mountStep = 2 → exec (.mountStepReady 2 g) s =
      .next { s with media := { s.media.buildMap s.media.summarized false with mountStep := 3 } }) ∧
    (s.media.mountStep = 3 → exec (.mountStepReady 3 g) s =
      .next { s with media := { s.media.buildMap (fun _ => true) false with mountStep := 4 } }) ∧
    (s.media.mountStep = 4 → exec (.mountStepReady 4 g) s =
      .next { s with media := { (s.media.buildMap (fun _ => true) true).dropUnsealed with mountStep := 5 } })) ∧
  (∀ (s : State) (g : NandGeometry), s.pins.padHold = none → s.media.mountStep = 5 →
    exec (.mountStepReady 5 g) s = .next (s.mountEnd).settle) ∧
  (∀ (s : State) (g : NandGeometry) (n : Nat), s.quiet → s.pins.padHold ≠ none ∨ s.media.mountStep ≠ n →
    exec (.mountStepReady n g) s = .next s)

/-- What writing AEN creates, refuses, holds and deletes. On a link that is up, an AEN write of 1 after start-up, with no queue
pair 0, sets AEN and either creates queue pair 0 from the admin context (a fresh pair at the front of the list, its tail line
watched where TAILMODE is 0) with ACERR 0, or, where a field of the context does not hold, sets ACERR and creates none;
before start-up completes it is held. An AEN write of 0 with no queue pair 0 clears AEN, ACERR and a held write; with one
that has no command and no held entry, it goes too. Nothing else changes. (15_cxl.md, 14_commands.md, R530, R532, R582, R583) -/
def Obligations.AdminQueueEnable : Prop :=
  (∀ s : State, s.quiet → s.hostUp = true → s.started = true → s.qp 0 = none →
    ctxBad s.host.adminCtx (field s.host.adminCtx 1 1 == 0) = none → ∃ w, exec .adminQueueCreate s = .next { s with host := { s.host with
      aen := true, acerr := false, qps := { qid := 0, ctx := s.host.adminCtx } :: s.host.qps, watched := w } } ∧
      w = if bits s.host.adminCtx 16 16 = 0 then s.host.watched ++ [0] else s.host.watched) ∧
  (∀ (s : State) (o : Nat), s.quiet → s.hostUp = true → s.started = true → s.qp 0 = none →
    ctxBad s.host.adminCtx (field s.host.adminCtx 1 1 == 0) = some o →
    exec .adminQueueCreate s = .next { s with host := { s.host with aen := true, acerr := true } }) ∧
  (∀ s : State, s.quiet → s.hostUp = true → s.started = false →
    exec .adminQueueCreate s = .next { s with startup := { s.startup with aenHeld := true } }) ∧
  (∀ s : State, s.quiet → s.hostUp = true → s.qp 0 = none → exec .adminQueueDelete s = .next { s with
    host := { s.host with aen := false, acerr := false }, startup := { s.startup with aenHeld := false } }) ∧
  (∀ (s : State) (p : QueuePair), s.quiet → s.hostUp = true → s.qp 0 = some p → p.held = [] → (∀ c ∈ s.host.cmds, c.qid ≠ 0) →
    exec .adminQueueDelete s = .next { s with
      host := { s.host with aen := false, acerr := false, qps := s.host.qps.filter fun x => x.qid != 0
                            watched := s.host.watched.filter fun w => w != 0 }
      startup := { s.startup with aenHeld := false } })

/-- The write-1-to-clear flag DEVERR: a set event in the same cycle wins, and clearing a clear flag counts nothing. On a link
that is up, a write of 1 to DEVERR in the same cycle as a set event leaves the flag set (and the companion counter DEVERR_CNT
one higher, modulo 2^32); a write of 1 with no set event leaves it clear and the counter as it was; a write of 0 leaves flag
and counter as they are unless a set event comes, which sets the flag and counts one. Nothing else changes. (R10, R12) -/
def Obligations.DeverrWriteOneToClear : Prop :=
  ∀ (s : State) (v : BitVec 32), s.quiet → s.hostUp = true →
    (v.getLsbD 2 = true → exec (.deverrClear v true) s = .next { s with host := { s.host with
      deverr := true, deverrCnt := (s.host.deverrCnt + 1) % 4294967296 } }) ∧
    (v.getLsbD 2 = true → exec (.deverrClear v false) s = .next { s with host := { s.host with deverr := false } }) ∧
    (v.getLsbD 2 = false → exec (.deverrClear v true) s = .next { s with host := { s.host with
      deverr := true, deverrCnt := (s.host.deverrCnt + 1) % 4294967296 } }) ∧
    (v.getLsbD 2 = false → exec (.deverrClear v false) s = .next s)

/-- Tail and head indexes by doorbell and by tail line. On a link that is up, the doorbells of a queue pair of TAILMODE 1 without
an error take a tail below DEPTH as the new tail and a head that does not pass the last posted entry as the new head; the
tail line of one of TAILMODE 0 read again gives both and is held by the cache again; a sink's consumer line gives its
consumer index. A tail at or above DEPTH puts the pair in its error state with a fault of unit 0x2C0, kind 0x29, naming it.
Nothing else changes. (14_commands.md, 15_cxl.md, R533, R534, R537, R582, R586, R590) -/
def Obligations.QueueIndexesArrive : Prop :=
  (∀ (s : State) (p : QueuePair) (q v : Nat), s.quiet → s.hostUp = true → q < 256 → s.qp q = some p → p.tailmode = 1 →
    p.err = false → v < 4294967296 → v < p.depth →
    exec (.sqtailDoorbell q v) s = .next (s.modQp q fun x => { x with sqTail := v })) ∧
  (∀ (s : State) (p : QueuePair) (q v : Nat), s.hostUp = true → q < 256 → s.qp q = some p → p.tailmode = 1 →
    p.err = false → v < 4294967296 → p.depth ≤ v →
    exec (.sqtailDoorbell q v) s =
      .next (((s.modQp q fun x => { x with err := true }).raise { unit := 0x2C0, kind := 0x29, addr := q }).settle)) ∧
  (∀ (s : State) (p p' : QueuePair) (q v : Nat), s.quiet → s.hostUp = true → q < 256 → s.qp q = some p → p.tailmode = 1 →
    p.err = false → v < 4294967296 → p.takeHead v = some p' →
    exec (.cqheadDoorbell q v) s = .next (s.modQp q fun _ => { p with cqHead := v })) ∧
  (∀ (s : State) (p p' : QueuePair) (q tail head : Nat), s.quiet → s.hostUp = true → s.power.state ≤ 1 → s.qp q = some p →
    p.tailmode = 0 → p.err = false → p.takeHead head = some p' → tail < p.depth → s.host.watched.contains q = true →
    ∃ t, exec (.tailLineSnoop (.queue q tail head)) s = .next t ∧ t.qp q = some { p with cqHead := head, sqTail := tail } ∧
      (∀ n, n ≠ q → t.qp n = s.qp n) ∧ t = { s with host := { s.host with qps := t.host.qps } }) ∧
  (∀ (s : State) (k : Sink) (n c : Nat), s.quiet → s.hostUp = true → s.power.state ≤ 1 → s.sink n = some k →
    s.host.watched.contains (256 + n) = true →
    exec (.tailLineSnoop (.sink n c)) s = .next (s.modSink n fun x => { x with consumer := c }))

/-- A write into the write window reaches the granted slices only. On a link that is up, a write within the window leaves every
byte of a slice under a grant with the value written and every other byte of the window, in a slice not granted or outside
the write, as it was; it counts in StrayWindowWrites and changes nothing else. (14_commands.md, 15_cxl.md, R557, R580) -/
def Obligations.WriteWindowKeepsTheRest : Prop :=
  ∀ (s : State) (off : Nat) (data : Bytes), s.quiet → s.hostUp = true → off + data.length ≤ windowSize →
    ∃ w n, exec (.writeWindowWrite off data) s = .next { s with host := { s.host with window := w, strayWrites := n } } ∧
      (∀ i b, data[i]? = some b → s.sliceGranted ((off + i) / 65536) = true → getCell (fun _ => 0) w (off + i) = b) ∧
      (∀ a, a < off ∨ off + data.length ≤ a ∨ s.sliceGranted (a / 65536) = false →
        getCell (fun _ => 0) w a = getCell (fun _ => 0) s.host.window a)

/-- Writes of BAR0: the admin context, the capability bytes and the slice-done doorbell's range. On a link that is up, an aligned
4-byte write of BAR0 to the admin context replaces those four bytes of it, below 0x2_0000 it replaces the four bytes kept
there (and every other kept byte of the BARs reads as before), and an unaligned one changes nothing; a slice-done value of
16,384 or more is discarded and counted in StrayWindowWrites. Nothing else changes. (15_cxl.md, R557, R580, R582) -/
def Obligations.RegisterWindowWrites : Prop :=
  (∀ (s : State) (o v : Nat), s.quiet → s.hostUp = true → 0x20000 ≤ o → o < 0x20040 → o % 4 = 0 →
    let b := s.host.adminCtx.take (o - 0x20000) ++ leBytes 4 (v % 4294967296) ++ s.host.adminCtx.drop (o - 0x20000 + 4)
    exec (.registerWrite 0 o 4 v) s = .next { s with host := { s.host with adminCtx := b } }) ∧
  (∀ (s : State) (o v : Nat), s.quiet → s.hostUp = true → o < 0x20000 → o % 4 = 0 →
    ∃ b, exec (.registerWrite 0 o 4 v) s = .next { s with host := { s.host with barBytes := b } } ∧
      (∀ i x, (leBytes 4 (v % 4294967296))[i]? = some x → getCell barDefault b (o + i) = x) ∧
      (∀ a, a < o ∨ o + 4 ≤ a → getCell barDefault b a = getCell barDefault s.host.barBytes a)) ∧
  (∀ (s : State) (o v : Nat), s.quiet → o % 4 ≠ 0 → exec (.registerWrite 0 o 4 v) s = .next s) ∧
  (∀ (s : State) (v : Nat), s.quiet → s.hostUp = true → 16384 ≤ v → v < 4294967296 →
    exec (.sliceDoneDoorbell v) s = .next { s with host := { s.host with strayWrites := (s.host.strayWrites + 1) % 4294967296 } })

/-- A capsule fetched becomes the newest outstanding command, and completes at once where a check refuses it. With the device
fetching and a queue pair whose turn it is, a capsule whose CID is not outstanding in the pair becomes the newest outstanding
command: in its queue pair, with the CID of its bytes 2 and 3 and the next place in fetch order, waiting for its data where
it takes data and ready otherwise; a FLUSH notes the host pages not yet on the media; the pair's head moves on by one entry
modulo DEPTH, and the device is in PS0. Where a check refuses it, it completes with that reason. Lands, fuses, crews, media
and pools stay. (14_commands.md, R535, R539, R540, R555) -/
def Obligations.FetchedCapsuleWaits : Prop :=
  ∀ (s : State) (b l : Bytes) (p : QueuePair) (f : Bool), s.quiet → s.fetches = true → s.nextQp = some (p, f) → s.qp p.qid = some p →
    s.cmd p.qid (field b 2 2) = none →
    ∃ (t : State) (c : Cmd), exec (.capsuleFetch b l) s = .next (match t.refuse c with | some r => t.complete c r | none => t) ∧
      t.host.cmds = s.host.cmds ++ [c] ∧ c.qid = p.qid ∧ c.cid = field b 2 2 ∧ c.capsule = fitTo 64 b ∧ c.order = s.host.fetches ∧
      c.wait = (if c.takesData then .data else .ready) ∧ c.granted = 0 ∧ c.parts = [] ∧ c.plist = (if c.usesList then l else []) ∧
      c.seqs = (if c.opc = 0x14 then s.media.cached else []) ∧ t.power = { s.power with state := 0 } ∧
      t.host.fetches = s.host.fetches + 1 ∧ t.host.turn = p.qid ∧
      (∃ x, t.qp p.qid = some x ∧ x.sqHead = (p.sqHead + 1) % max 1 p.depth ∧ x.held = p.held ∧ x.sqTail = p.sqTail) ∧
      t.pins = s.pins ∧ t.fuses = s.fuses ∧ t.crews = s.crews ∧ t.media = s.media ∧ t.mem = s.mem ∧ t.contexts = s.contexts ∧
      t.sent = s.sent ∧ t.pending = s.pending

/-- A completion is held, then posted, and the interrupt follows it. Completing a command in any state removes every outstanding
command of its queue pair and id, appends one entry with its id, status, RES0 and JSTATE to those held for that pair, and
changes nothing else. On a link that may be sent on, a queue pair with room and a held entry writes it at the ring entry the
completion tail names, before any MSI-X message that signals it; the tail moves on, PHASE turns at the ring's end, and the
message goes (or its pending bit is set where the vector is masked) when CCOUNT entries wait or CTIME is 0, else the entry
counts as not signalled. A full ring posts nothing. After CTIME with entries not signalled, the message goes and none count.
(14_commands.md, R532, R536, R541, R575) -/
def Obligations.CompletionPosted : Prop :=
  (∀ (s : State) (q : Nat) (p : QueuePair) (e : Posting) (es : List Posting), s.quiet → s.mayPost = true → s.qp q = some p →
    p.held = e :: es → p.full = false →
    let due := p.ctime = 0 ∨ p.ccount ≤ p.unsignalled + 1
    let last := p.cqTail + 1 = p.depth
    let w := (s.send (.dmaWrite (p.cqbase + 16 * p.cqTail) (e.encode p) false)).modQp q fun x => { x with
      held := es, cqTail := if last then 0 else p.cqTail + 1, phase := if last then !x.phase else x.phase
      unsignalled := if due then 0 else x.unsignalled + 1 }
    (∀ x ∈ s.host.qps, x.qid = q → x = p) →
    exec (.completionPost q) s = .next (if due then w.signal p.vector else w)) ∧
  (∀ (s : State) (q : Nat) (p : QueuePair), s.quiet → s.qp q = some p → p.full = true → exec (.completionPost q) s = .next s) ∧
  (∀ (s : State) (q : Nat) (p : QueuePair), s.quiet → s.mayPost = true → s.qp q = some p → p.unsignalled ≠ 0 → p.ctime ≠ 0 →
    exec (.interruptDelayExpiry q) s = .next ((s.modQp q fun x => { x with unsignalled := 0 }).signal p.vector)) ∧
  (∀ (s : State) (v : Nat), s.masked v = false → s.signal v = { s with sent := .msix v :: s.sent }) ∧
  (∀ (s : State) (c : Cmd) (r : Result), (s.complete c r).cmd c.qid c.cid = none ∧
    (∀ q i, ¬(q = c.qid ∧ i = c.cid) → (s.complete c r).cmd q i = s.cmd q i) ∧
    (∀ p, s.qp c.qid = some p → ∃ e : Posting, (s.complete c r).qp c.qid = some { p with held := p.held ++ [e] } ∧
      e.kind = 0 ∧ e.cid = c.cid ∧ e.status = r.status ∧ e.res0 = r.res0 % 4294967296 ∧
      (∀ n, r.crew = some n → e.jstate = s.jstate n ∧ e.res1 = n)) ∧
    (∀ q, q ≠ c.qid → (s.complete c r).qp q = s.qp q) ∧
    ∃ l m, s.complete c r = { s with host := { s.host with qps := l, cmds := m } })

/-- A transfer-ready grant, its slices done, its timeout and a read that fails. A command that waits for its data takes a grant
of slices that are free and not held, with room in the pools: the grant is recorded and its transfer-ready entry is held for
posting. Its slices done give the command the bytes of its slices and free them, and the command is ready once all its data
are there. A grant whose doorbell does not come in 10 s ends the command with Invalid field and RES0 0xFFFF_FFFF, its slices
withdrawn; a failed read of a command's data counts and ends it with Invalid field at capsule offset 8. (14_commands.md,
15_cxl.md, R556, R557, R559, R579) -/
def Obligations.GrantsGiveAndEnd : Prop :=
  (∀ (s s' : State) (c : Cmd) (q i f n : Nat), s.quiet → s.cmd q i = some c → c.wait = .data →
    let len := min (n * 65536) (c.dlen - c.granted)
    len ≠ 0 → 1 ≤ n → n ≤ 16 → n = ceilDiv len 65536 → f + n ≤ 16384 →
    (s.host.grants.filter fun g => g.qid == q && g.cid == i).length < 4 →
    (∀ k, k < n → s.sliceGranted (f + k) = false ∧ s.sliceHeld (f + k) = false) →
    s.alloc .writeWindow (.window q i f) len [ownerId 3 q] = (true, s') →
    let g : Grant := { qid := q, cid := i, first := f, count := n, offset := c.granted, len := len }
    let w : State := { s' with host := { s'.host with grants := s'.host.grants ++ [g] } }
    exec (.transferReadyGrant q i f n) s = .next (((w.modCmd q i fun x => { x with granted := x.granted + len }).hold q
        { kind := 1, cid := i, res0 := f + n * 16384, status := 0, jstate := 7, res1 := c.granted / 65536 }).settle)) ∧
  (∀ (s : State) (g : Grant), s.hostUp = true → s.host.grants.find? (fun x => x.first == g.first) = some g → g.first < 16384 →
    ∃ t : State, exec (.sliceDoneDoorbell g.first) s = .next t.settle ∧ t.host.grants = s.host.grants.erase g ∧
      t.host.window = s.host.window ∧ t.host.qps = s.host.qps ∧ t.media = s.media ∧ t.crews = s.crews ∧ t.faults = s.faults ∧
      ∀ c, s.cmd g.qid g.cid = some c → t.cmd g.qid g.cid = some { c with
        parts := c.parts ++ [(g.offset, getCells (fun _ => 0) s.host.window (65536 * g.first) g.len)]
        wait := if c.dlen ≤ ((c.parts ++ [(g.offset, getCells (fun _ => 0) s.host.window (65536 * g.first) g.len)]).map fun p => p.2.length).sum
                then .ready else c.wait }) ∧
  (∀ (s : State) (c : Cmd) (g : Grant) (q i : Nat), s.cmd q i = some c → g ∈ s.host.grants → g.qid = q → g.cid = i →
    exec (.grantTimeout q i) s = .next (((s.endGrants q i).complete c { status := 0x02, res0 := 0xFFFFFFFF }).settle)) ∧
  (∀ (s : State) (c : Cmd) (q i : Nat), s.hostUp = true → s.cmd q i = some c →
    let w : State := { s with host := { s.host with dmaErrors := (s.host.dmaErrors + 1) % 4294967296 } }
    exec (.dmaReadError (.data q i)) s = .next (((w.endGrants q i).complete c { status := 0x02, res0 := 8 }).settle)) ∧
  (∀ (s : State) (p : QueuePair) (q : Nat), s.hostUp = true → s.qp q = some p → p.err = false →
    let w : State := { s with host := { s.host with dmaErrors := (s.host.dmaErrors + 1) % 4294967296 } }
    exec (.dmaReadError (.ring q)) s =
      .next (((w.modQp q fun x => { x with err := true }).raise { unit := 0x2C0, kind := 0x29, addr := q }).settle))

/-- What a link reset, an electrical-idle exit and an IDE integrity failure do to the host interface. A link reset while the cox
runs, with no crew and no sink, deletes every queue pair, command, grant and ingest stream, zeroes the admin context with AEN
and ACERR, forgets the watched lines and counts in LinkResets; all kinds but FLR take the link down, and a conventional reset
trains it again. An electrical-idle exit of a device in PS0 or PS1 that has been through start-up step 6 and whose link is
down, and not left down, trains it. An IDE integrity failure makes IDE insecure with that stream named and raises a fault of
unit 0x2C0, kind 0x27. (15_cxl.md, 19_startup.md, R578, R596, R597, R705) -/
def Obligations.LinkEvents : Prop :=
  (∀ (s : State) (k : LinkResetKind), s.quiet → s.coxUp = true → s.crews = [] → s.sinks = [] →
    (∀ c ∈ s.host.cmds, (s.qp c.qid).isSome) → ∃ t, exec (.linkReset k) s = .next t ∧
    t.host.qps = [] ∧ t.host.cmds = [] ∧ t.host.grants = [] ∧ t.host.ingests = [] ∧ t.host.watched = [] ∧
    t.host.adminCtx = List.replicate 64 0 ∧ t.host.aen = false ∧ t.host.acerr = false ∧
    t.host.linkResets = (s.host.linkResets + 1) % 4294967296 ∧ t.host.deverr = s.host.deverr ∧
    t.host.speed = (if k = .flr then s.host.speed else 0) ∧ (k = .conventional → t.host.training = true ∧ t.host.leftDown = false) ∧
    t.pins = s.pins ∧ t.power = s.power ∧ t.media = s.media ∧ t.catalogue = s.catalogue ∧ t.faults = s.faults ∧ t.ports = s.ports) ∧
  (∀ s : State, s.quiet → s.startup.cxlDone = true → s.power.state ≤ 1 → s.host.speed = 0 → s.host.leftDown = false →
    exec .electricalIdleExit s = .next { s with host := { s.host with training := true } }) ∧
  (∀ (s : State) (n : Nat), s.hostUp = true → s.host.ide ≠ 0 → n ∉ s.host.insecure →
    let w : State := { s with host := { s.host with ide := 2, insecure := s.host.insecure ++ [n] } }
    exec (.ideIntegrityFailure n) s = .next ((w.raise { unit := 0x2C0, kind := 0x27, addr := n }).settle))

/-- IDENTIFY, GET LOG, GET FEATURES and the two firmware commands. A ready admin command in a state between two commands
completes with Success: IDENTIFY of 4,096 bytes negotiates the lower of FID and version 1 and writes the identity structure;
GET LOG writes the page's bytes from OFFSET, at most DLEN, and RES0 counts them; GET FEATURES of a queue pair writes its
context; FIRMWARE DOWNLOAD over the mailbox's session writes the bytes into the slot that does not run, which then reads
loaded; FIRMWARE COMMIT of a verifying image enters the audit journal and leaves the slot verified, pending where the action
is 0. GET FEATURES of another feature completes with Invalid field at offset 20. (14_commands.md, R544, R545, R546, R548,
R549, R552, R553, R687, R698) -/
def Obligations.AdminCommandsAnswer : Prop :=
  (∀ (s : State) (q i : Nat) (c : Cmd), s.quiet → s.readyCmd q i 0x01 none = some c → 4096 ≤ c.dlen →
    let w : State := { s with host := { s.host with negotiated := min c.fid 1 } }
    exec (.identify q i) s = .next ((w.toHost c w.identity).complete c (.ok (min c.fid 1)))) ∧
  (∀ (s : State) (q i : Nat) (c : Cmd), s.quiet → s.readyCmd q i 0x02 none = some c →
    let b := slice (s.logBytes c.fid c.crew) c.fval c.dlen
    exec (.getLog q i) s = .next ((s.toHost c b).complete c (.ok b.length))) ∧
  (∀ (s : State) (q i : Nat) (c : Cmd) (p : QueuePair), s.quiet → s.readyCmd q i 0x03 none = some c → c.fid = 0x01 →
    s.qp c.fval = some p → 64 ≤ c.dlen →
    exec (.getFeatures q i) s = .next ((s.toHost c (fitTo 64 p.ctx)).complete c (.ok 64))) ∧
  (∀ (s : State) (q i : Nat) (c : Cmd), s.quiet → s.readyCmd q i 0x03 none = some c → c.fid ≠ 0x01 →
    exec (.getFeatures q i) s = .next (s.complete c { status := 0x02, res0 := 20 })) ∧
  (∀ (s : State) (q i : Nat) (c : Cmd) (x : Session), s.quiet → s.readyCmd q i 0x05 none = some c → s.startup.running ≠ some c.fwSlot →
    c.fval + c.dlen ≤ 25165824 → s.mailboxSession = some x → c.dlen ≠ 0 →
    exec (.firmwareDownload q i) s = .next ((s.setSlot c.fwSlot fun y =>
      { image := overlay y.image c.fval (c.data.take c.dlen), state := 1 }).complete c .ok)) ∧
  (∀ (s : State) (q i : Nat) (c : Cmd) (x : Session), s.quiet → s.readyCmd q i 0x06 none = some c → s.mailboxSession = some x →
    s.auditRefuses = false → (s.audit (s.auditOf x 4 3)).judgeSlot c.fwSlot = 3 →
    let w := (s.audit (s.auditOf x 4 3)).setSlot c.fwSlot fun y => { y with state := if y.state = 3 then 3 else 2 }
    let u : State := if c.action = 0 then { w with startup := { w.startup with pending := some c.fwSlot } } else w
    exec (.firmwareCommit q i) s = .next ((u.complete c (.ok (imgSv (u.slot c.fwSlot).image))).settle))

/-- Creating and deleting a queue pair, and aborting a command. A ready command of queue pair 0 in a state between two commands:
a context that holds and whose number is free makes a new queue pair with empty indexes and PHASE 1, and the others stay;
deleting a pair that no delivery target names takes it away with its commands and tail line; an abort of an outstanding
command that is not a job command ends it with Aborted by request and its grants withdrawn, and answers RES0 1; one of a
command that is not there answers RES0 0. (14_commands.md, R530, R531, R532, R538, R550, R551, R560) -/
def Obligations.QueuePairCommands : Prop :=
  (∀ (s : State) (q i : Nat) (c : Cmd), s.quiet → s.readyCmd q i 0x04 (some 0x01) = some c → c.short 64 = false →
    let n := field (c.data.take 64) 1 1
    ctxBad (c.data.take 64) (1 ≤ n && (s.qp n).isNone) = none →
    exec (.queuePairCreate q i) s = .next ((s.createQp n (c.data.take 64)).complete c .ok) ∧
    (s.createQp n (c.data.take 64)).qp n = some { qid := n, ctx := c.data.take 64 } ∧
    ∀ m, m ≠ n → (s.createQp n (c.data.take 64)).qp m = s.qp m) ∧
  (∀ (s : State) (q i : Nat) (c : Cmd) (p : QueuePair), s.readyCmd q i 0x04 (some 0x02) = some c → c.fval ≠ 0 →
    s.qp c.fval = some p → s.qpTargeted c.fval = false →
    exec (.queuePairDelete q i) s = .next (((s.deleteQp c.fval).complete c .ok).settle) ∧
    (s.deleteQp c.fval).qp c.fval = none ∧ (∀ x ∈ (s.deleteQp c.fval).host.cmds, x.qid ≠ c.fval) ∧
    c.fval ∉ (s.deleteQp c.fval).host.watched) ∧
  (∀ (s : State) (q i : Nat) (c x : Cmd), s.readyCmd q i 0x04 (some 0x03) = some c →
    s.cmd (c.fval / 65536 % 256) (c.fval % 65536) = some x → isJobOpc x.opc = false → x.is c.qid c.cid = false →
    exec (.abort q i false) s = .next ((((s.endGrants x.qid x.cid).complete x { status := 0x05 }).complete c (.ok 1)).settle)) ∧
  (∀ (s : State) (q i : Nat) (b : Bool) (c : Cmd), s.quiet → s.readyCmd q i 0x04 (some 0x03) = some c →
    s.cmd (c.fval / 65536 % 256) (c.fval % 65536) = none → exec (.abort q i b) s = .next (s.complete c (.ok 0)))

/-- READ, WRITE, DEALLOCATE, SECURE DEALLOCATE and FLUSH on mounted media. A ready command whose range lies within the capacity,
on mounted media, that waits for none before it: READ of units not lost writes the blocks' bytes to the host through a
staging buffer and completes, or waits for the buffer; WRITE and DEALLOCATE outside every extent place their units and wait
for the programs (or, a WRITE, complete under the write cache), and are answered for want of room where they find none;
SECURE DEALLOCATE closes the superblocks that hold its units, deallocates, moves what those superblocks hold besides, records
the range and waits for the erases; FLUSH waits for the programs noted as it was fetched. A range past the capacity completes
with Invalid field at SLBA's offset, a READ of lost units with Unrecovered read error, data beyond QpQuota with Quota
exceeded. (13_media.md, 14_commands.md, R444, R458, R478, R481, R482, R485, R493, R495, R555, R561) -/
def Obligations.MediaCommandsServe : Prop :=
  let serves (s : State) (c : Cmd) : Prop := s.media.state ≤ 2 ∧ s.media.frozen = false ∧ s.mediaHeld c = false
  let writes (s : State) (c : Cmd) : Prop := serves s c ∧ s.registerUnknown c = false ∧ c.slba + c.nlb ≤ s.media.capacity ∧
    s.inExtent c c.slba c.nlb = false ∧ s.media.inSecure c.slba c.nlb = false ∧ s.media.partLost c.slba c.nlb = false
  (∀ (s : State) (q i : Nat) (c : Cmd), s.readyCmd q i 0x10 none = some c → serves s c → c.slba + c.nlb ≤ s.media.capacity →
    (s.num 0x5820 0 * 1048576 < c.dlen → exec (.read q i) s = .next (s.complete c .quota).settle) ∧
    (c.dlen ≤ s.num 0x5820 0 * 1048576 → s.media.lostIn (4096 * c.slba) (4096 * c.nlb) = true →
      exec (.read q i) s = .next (s.complete c .readError).settle) ∧
    (c.dlen ≤ s.num 0x5820 0 * 1048576 → s.media.lostIn (4096 * c.slba) (4096 * c.nlb) = false →
      let ref : BufRef := .window c.qid c.cid 16384
      let r := s.alloc .writeWindow ref (4096 * c.nlb) [ownerId 3 c.qid]
      exec (.read q i) s = .next (if r.1 then ((r.2.toHost c (r.2.media.readBytes (4096 * c.slba) (4096 * c.nlb))).complete c .ok).freeRef fun b => b == ref
        else s).settle)) ∧
  (∀ (s : State) (q i : Nat) (c : Cmd), s.readyCmd q i 0x10 none = some c → serves s c → s.media.capacity < c.slba + c.nlb →
    exec (.read q i) s = .next (s.complete c { status := 0x02, res0 := 20 }).settle) ∧
  (∀ (s : State) (q i : Nat) (c : Cmd), s.readyCmd q i 0x11 none = some c → c.ingest = false → writes s c →
    s.media.state < 2 → c.dlen ≤ s.num 0x5820 0 * 1048576 → s.media.over c.slba c.nlb = false →
    exec (.write q i) s = .next (match s.media.write c.slba c.nlb c.data with
      | some (l, m) => (s.setMedia { m with hostBytes := m.hostBytes + c.dlen }).awaitPrograms c l (s.writeCached c c.dlen)
      | none => s.noRoom c).settle) ∧
  (∀ (s : State) (q i : Nat) (c : Cmd), s.readyCmd q i 0x12 none = some c → writes s c →
    exec (.deallocate q i) s = .next (match s.media.deallocate c.slba c.nlb with
      | some (l, m) => (s.setMedia m).awaitPrograms c l false
      | none => s.noRoom c).settle) ∧
  (∀ (s : State) (q i : Nat) (c : Cmd), s.readyCmd q i 0x13 none = some c → writes s c →
    let units := (coverUnits c.slba c.nlb).map (·.1)
    let holds (x : Sblk) : Bool := (match x.use with | .opened _ => true | _ => false) && s.media.pages.any fun p =>
      p.loc.g == x.g && p.loc.k == x.k && (p.kind == 1 || p.kind == 2) && p.space == 0 && units.contains p.lmu
    let closed : Media := { s.media with sblks := updWhere holds (fun x => { x with use := .full }) s.media.sblks }
    exec (.secureDeallocate q i) s = .next (match closed.deallocate c.slba c.nlb with
      | some (_, m) =>
        let m := m.secureMove c.slba c.nlb s.media.seq
        (s.modCmd q i fun x => { x with wait := .erases }).setMedia { m with secure := m.secure ++ [(c.slba, c.nlb)] }
      | none => s.noRoom c).settle) ∧
  (∀ (s : State) (q i : Nat) (c : Cmd), s.readyCmd q i 0x14 none = some c → serves s c →
    exec (.flush q i) s = .next ((s.modCmd q i fun x => { x with wait := .programs, seqs := c.seqs }).settlePrograms).settle)

/-- Page reads, programs, their failures, relocation copies and the patrol. On running media: a page read that ends at stage 2
counts a retry and reports kind 0x50 of its LUN, one at stage 4 copies the page, counts a reconstruction and reports kind
0x51, one at stage 5 loses the unit and reports kind 0x54, each with its read on the bus; a read of a failed LUN ends at
stage 4 or 5. A page program that succeeds is reported; one that fails is reported with kind 0x52, retires its block and is
programmed again once in another group, else ends its commands with Write fault. A word line's timeout fills it; relocation
goes on in its group; a relocated copy that is programmed takes over the map entry that still names its source; the patrol
records its place, reads the page it serves and refreshes its superblock where the read needed more than a first try.
(13_media.md, R480, R484, R485, R486, R487, R489, R492, R511, R512, R519) -/
def Obligations.PageReadsAndPrograms : Prop :=
  (∀ (s : State) (sp l st : Nat) (p : Loc), s.mediaRuns = true → s.media.entry sp l = some p →
    let lun := s.media.lunOf p
    let m : Media := { s.media with bus := (lun.1, lun.2, NandOp.readPage (s.media.pageIndex p)) :: s.media.bus }
    let at_ := m.stageAt p st
    let report (t : State) (kind : Nat) : State := t.raise { unit := t.media.unitAt p, kind := kind, addr := m.pageIndex p }
    (at_ ≠ 2 → at_ ≠ 4 → at_ ≠ 5 → exec (.nandReadComplete sp l st) s = .next ({ s with media := m } : State).settle) ∧
    (at_ = 2 → exec (.nandReadComplete sp l st) s = .next (report { s with media := { m with
      readRetries := m.readRetries + 1, bus := (lun.1, lun.2, .setFeatures) :: m.bus } } 0x50).settle) ∧
    (at_ = 4 → let copied := match m.pageAt p with | some x => m.copyPage x | none => m
      exec (.nandReadComplete sp l st) s =
        .next (report (s.setMedia { copied with reconstructions := m.reconstructions + 1 }) 0x51).settle) ∧
    (at_ = 5 → ∃ other : Nat, exec (.nandReadComplete sp l st) s =
      .next ((s.useFree.setMedia (m.lose 2 p.g (m.failedUnit ((m.group p.g).getD { g := p.g, members := [] }) p.m) other sp l)).raise
        { unit := 0x2C7, kind := 0x54, addr := 1 }).settle)) ∧
  (∀ (m : Media) (p : Loc) (st : Nat),
    let n := if st < 4 ∧ m.onFailed p = true then 4 else st
    let blind := m.hasParity p = false ∨ ∃ j < 16, j ≠ p.m ∧ m.onFailed { p with m := j } = true
    (n = 4 → blind → m.stageAt p st = 5) ∧ (n ≠ 4 ∨ ¬blind → m.stageAt p st = n)) ∧
  (∀ (s : State) (n : Nat) (p : Page), s.mediaRuns = true → s.media.programOf n = some p →
    exec (.pageProgramComplete n) s = .next (s.setMedia (s.media.report p.loc)).settle) ∧
  (∀ (s : State) (n : Nat) (p : Page), s.mediaRuns = true → s.media.programOf n = some p →
    let l := p.loc
    let w := s.raise { unit := s.media.unitAt l, kind := 0x52, addr := s.media.blockOf l }
    let retire (m : Media) : Media := ({ m with pages := updWhere (fun q => q.loc == l) Page.dead m.pages } : Media).retireBlock l.g l.k l.m
    let stream := if p.kind = 2 then 1 else if p.kind = 5 then 2 else 0
    let again := if p.failures = 0 then
      w.media.placeIn stream { p with failures := 1 } ((w.media.accepting (l.g + 1)).filter fun g => g != l.g) else none
    exec (.programFailure n) s = .next (match again with
      | some (l', m) =>
        let m := if m.entry p.space p.lmu = some l ∧ p.isData = true then m.setEntry p.space p.lmu (some l') else m
        let u := ({ w with media := m } : State).renameSeq p.seq (match m.pageAt l' with | some q => q.seq | none => 0)
        u.setMedia (retire u.media)
      | none =>
        let u := if p.isData = true then w.writeFault p else w
        u.setMedia (retire u.media)).settle) ∧
  (∀ (s : State) (g st : Nat), s.mediaRuns = true → exec (.wordLineTimeout g st) s = .next ((s.setMedia (s.media.fillWl g st)).settle)) ∧
  (∀ (s : State) (g : Nat), s.mediaRuns = true → exec (.relocationStart g) s = .next ((s.setMedia (s.media.relocate g)).settle)) ∧
  (∀ (s : State) (n : Nat) (p : Page), s.mediaRuns = true → (s.media.pages.find? fun x => x.kind == 2 && x.seq == n) = some p →
    let m := s.media.report p.loc
    (∀ l, p.source = some l → m.entry p.space p.lmu = some l →
      exec (.relocationCopyDone n) s = .next (s.setMedia (m.setEntry p.space p.lmu (some p.loc))).settle) ∧
    ((∀ l, p.source = some l → m.entry p.space p.lmu ≠ some l) → exec (.relocationCopyDone n) s = .next (s.setMedia m).settle)) ∧
  (∀ (s : State) (g k n st b : Nat) (gr : Group) (e : Nat × Nat × Loc), s.mediaRuns = true → s.power.state ≤ 1 →
    let l : Loc := ⟨g, k, n % 16, n / 16⟩
    (s.media.map.find? fun e => e.2.2 == l) = some e → s.media.group g = some gr → gr.rebuilding = none →
    let at_ := s.media.stageAt l st
    let w := ({ s with media := { s.media with patrolAt := (g, k), patrolPos := s.media.patrolled g k } } : State).readStage e.1 e.2.1 at_ l
    (at_ = 0 ∨ (at_ = 1 ∧ b ≤ w.num 0x5008 0) → exec (.patrolRead g k n st b) s = .next w.settle) ∧
    (2 ≤ at_ ∨ (at_ = 1 ∧ w.num 0x5008 0 < b) → exec (.patrolRead g k n st b) s =
      .next (w.setMedia (w.media.refresh l ((st == 3 || st == 4) && !s.media.onFailed l))).settle)) ∧
  (∀ s : State, s.mediaRuns = true → exec .patrolPositionRecord s = .next (s.setMedia s.media.recordPatrol).settle)

/-- Erases, failed LUNs, rebuild and the end of a format. On running media: an erase under way that completes is done, and its
superblock is then free, or retired where a block of it failed with no reserve left; one that fails reports kind 0x53 and
retires the block; a LUN that times out or fails is failed, which the fault collector hears when units are lost; a rebuild
goes on by one stripe, the last of which makes the member whole again, and its progress is recorded. The end of a format of
identified flash leaves it formatted and empty with no catalogue, vocabulary or grammar. (13_media.md, R490, R492, R505,
R509, R519, R520, R521, R527) -/
def Obligations.ErasesLunsAndFormat : Prop :=
  (∀ (s : State) (g k : Nat), s.mediaRuns = true → s.media.erasing g k = true →
    exec (.eraseComplete g k) s = .next ((s.setMedia (s.media.erased g k)).settle)) ∧
  (∀ (m : Media) (g k : Nat) (x : Sblk), m.sblk g k = some x → (m.eraseDone g k).sblk g k = some { x with
      use := if x.dying = [] then .free else .retired, intent := false, erasedOnce := false, firstSeq := none, moving := false }) ∧
  (∀ (s : State) (g k m : Nat), s.mediaRuns = true → s.media.erasing g k = true → m < 16 →
    exec (.eraseFailure g k m) s = .next (((s.raise { unit := s.media.unitAt ⟨g, k, m, 0⟩, kind := 0x53
                                                      addr := s.media.blockOf ⟨g, k, m, 0⟩ }).setMedia
      (s.media.retireBlock g k m)).settle)) ∧
  (∀ (s : State) (c p : Nat), s.mediaRuns = true → s.media.hasLun c p = true →
    (∀ i : Instr, i = .lunStatusTimeout c p ∨ i = .lunFailure c p → exec i s = .next ((if (s.media.failLun c p).lostUnits - s.media.lostUnits = 0 then { s with media := s.media.failLun c p }
      else ({ s with media := s.media.failLun c p } : State).raise { unit := 0x2C7, kind := 0x54
                                                                     addr := (s.media.failLun c p).lostUnits - s.media.lostUnits }).settle)) ∧
    ∃ x ∈ (s.media.failLun c p).luns, x.ch = c ∧ x.pos = p ∧ x.failed = true) ∧
  (∀ (s : State) (g : Nat), s.mediaRuns = true → exec (.rebuildStripe g) s = .next ((s.setMedia (s.media.rebuildOne g)).settle)) ∧
  (∀ (m : Media) (g n : Nat) (gr : Group), m.group g = some gr → gr.rebuilding = some n →
    (gr.rebuilt + 1 < (m.stripes g).length → (m.rebuildOne g).group g = some { gr with rebuilt := gr.rebuilt + 1 } ∧
      (∀ j, j ≠ g → (m.rebuildOne g).group j = m.group j) ∧ (m.rebuildOne g).pages = m.pages ∧ (m.rebuildOne g).map = m.map) ∧
    ((m.stripes g).length ≤ gr.rebuilt + 1 → ∃ y : Group, (m.rebuildOne g).group g = some y ∧ y.failed = gr.failed.erase n ∧ y.rebuilt = 0 ∧
      y.members = gr.members)) ∧
  (∀ s : State, s.mediaRuns = true → exec .rebuildProgressRecord s = .next (s.setMedia s.media.recordRebuilds).settle) ∧
  (∀ s : State, s.quiet → s.media.formatting = true → s.media.mountStep = 0 → s.pins.padHold = none → geomSupported s.media.geom = true →
    ∃ t, exec .mediaFormatDone s = .next t ∧ t.catalogue = [] ∧ t.vocabs = [] ∧ t.grammars = [] ∧
      t.media = s.media.format (s.num 0x5002 0) (s.num 0x5003 0) ∧ t.media.state = 0 ∧
      t.media.formatted = true ∧ t.media.formatting = false ∧ t.media.pages = [] ∧ t.media.map = [] ∧ t.media.geom = s.media.geom ∧
      t.pins = s.pins ∧ t.host = s.host ∧ t.dict = s.dict)

/-- Opening, writing, compressing and closing an ingest stream. A ready ingest open whose header holds adds the stream as its
header says; a WRITE handed to a stream with room adds its bytes to those not yet cut into blocks; a stream with a full block
has its next block compressed and stored after the last one, or waits for room, and with less and no close outstanding
nothing happens; a sink's full block is stored, and a block of a job's exchange that does not verify raises the compressor's
fault; a close of a stream whose blocks are all stored and programmed writes the block table, the original length and the end
offset to the host, and the stream is gone. (14_commands.md, 06_decoders.md, R221, R222, R223, R225, R228, R563) -/
def Obligations.IngestStreams : Prop :=
  (∀ (s : State) (q i : Nat) (c : Cmd), s.quiet → s.readyCmd q i 0x04 (some 0x08) = some c → c.short 32 = false → s.ingestBad c.data = none →
    let g : Ingest := { n := field c.data 0 1, crew := field c.data 1 1, qid := c.qid, mode := field c.data 2 1, doff := field c.data 4 4
                        slba := field c.data 8 8, nblk := field c.data 16 8, endOff := field c.data 4 4 }
    exec (.ingestOpen q i) s = .next (({ s with host := { s.host with ingests := s.host.ingests ++ [g] } } : State).complete c .ok)) ∧
  (∀ (s : State) (q i : Nat) (c : Cmd) (g : Ingest), s.readyCmd q i 0x11 none = some c → c.ingest = true → s.media.state < 2 →
    c.dlen ≤ s.num 0x5820 0 * 1048576 → s.media.frozen = false → s.mediaHeld c = false → s.registerUnknown c = false →
    s.ingest c.istream = some g → g.qid = c.qid → g.closedOnly = false →
    s.inExtent c g.slba g.nblk = false → s.media.inSecure g.slba g.nblk = false → g.endWith (c.data.take c.dlen) ≤ 4096 * g.nblk →
    s.media.over (g.slba + g.endOff / 4096) (ceilDiv (g.endWith (c.data.take c.dlen)) 4096 - g.endOff / 4096) = false →
    let n := (c.data.take c.dlen).length
    let w := s.modIngest g.n fun x => { x with
      pending := x.pending ++ c.data.take c.dlen, olen := g.olen + n, writes := x.writes ++ [(c.qid, c.cid, g.olen + n)] }
    let u : State := { w with media := { w.media with hostBytes := w.media.hostBytes + n } }
    exec (.ingestWrite q i) s = .next (((u.modCmd q i fun x => { x with wait := .blocks }).settleIngest g.n).settle)) ∧
  (∀ (s : State) (n : Nat) (g : Ingest), s.media.mounted = true → s.media.frozen = false → s.ingest n = some g →
    65536 ≤ g.pending.length →
    let orig := g.pending.take 65536
    let b := (compressBlock g.mode orig).1
    let off := up16 g.endOff
    let a := 4096 * g.slba + off
    let k := ceilDiv (a % 4096 + b.length) 4096
    exec (.blockCompress (.ingest n)) s = .next (match s.media.write (a / 4096) k
        (fitTo (4096 * k) (s.media.readBytes (4096 * (a / 4096)) (a % 4096) ++ b)) with
      | some (l, m) =>
        let w := if (compressBlock g.mode orig).2 then s.compressFault g.crew g.blocks.length else s
        (((w.noteSeqs g l).modIngest n fun g => { g with
          pending := g.pending.drop 65536, blocks := g.blocks ++ [(off, b.length, crc32c orig)], endOff := off + b.length }).setMedia m).settleIngest n
      | none => s).settle) ∧
  (∀ (s : State) (n : Nat) (g : Ingest), s.quiet → s.ingest n = some g → g.pending.length < 65536 → s.ingestClosing n = false →
    exec (.blockCompress (.ingest n)) s = .next s) ∧
  (∀ (s : State) (n : Nat) (k : Sink), s.media.mounted = true → s.media.frozen = false → s.sink n = some k → 65536 ≤ k.pending.length →
    exec (.blockCompress (.sink n)) s = .next (s.storeBlock n).settle) ∧
  (∀ (s : State) (n : Nat) (k : Crew) (j : Job) (b : Bytes), s.media.mounted = true → s.media.frozen = false → s.crew n = some k →
    k.job = some j → j.exchange = 1 → (compressBlock 1 (b.take 65536)).2 = true →
    exec (.blockCompress (.exchange n b)) s = .next (s.compressFault n 0).settle) ∧
  (∀ (s : State) (q i : Nat) (c : Cmd) (g : Ingest), s.quiet → s.readyCmd q i 0x04 (some 0x09) = some c → s.ingest c.fval = some g →
    (∀ d ∈ s.host.cmds, d.ingest = false) → g.pending = [] → 16 * g.blocks.length + 16 ≤ c.dlen →
    s.media.settled (4096 * g.slba + g.doff) (g.endOff - g.doff) = true →
    let w : State := { s with host := { s.host with ingests := s.host.ingests.filter fun x => x.n != g.n } }
    exec (.ingestClose q i) s =
      .next ((w.toHost c (g.blocks.flatMap blockEntry ++ leBytes 8 g.olen ++ leBytes 8 g.endOff)).complete c .ok))

/-- Forming a crew on named eights or by count, dissolving one and joining a domain job. A ready crew form for a number that is
free: with the explicit flag and a mask of COUNT free eights the crew has exactly those, otherwise the eights the placement
rule picks, state EMPTY, nothing else; the other crews stay. A dissolve of an EMPTY crew with no sink removes it alone. A
join of an EMPTY crew in a domain records the domain job. (16_crews.md, R599, R600, R601, R602, R611) -/
def Obligations.CrewCommands : Prop :=
  (∀ (s : State) (q i : Nat) (c : Cmd), s.quiet → s.readyCmd q i 0x04 (some 0x20) = some c → c.short 16 = false →
    let n := field c.data 0 1
    let m := maskEights (field c.data 8 8)
    n ≤ 63 → s.crew n = none → 1 ≤ field c.data 1 1 → field c.data 1 1 ≤ 64 → field c.data 1 1 ≤ s.freeEights.length →
    (field c.data 2 1 % 2 = 1 → m.length = field c.data 1 1 → (∀ e ∈ m, e ∈ s.freeEights) →
      exec (.crewForm q i) s = .next ((s.addCrew { num := n, state := 0, eights := m }).complete c .ok)) ∧
    (field c.data 2 1 % 2 = 0 → field c.data 8 8 = 0 → exec (.crewForm q i) s =
      .next ((s.addCrew { num := n, state := 0, eights := ascending 64 (s.pickEights (field c.data 1 1) []) }).complete c .ok))) ∧
  (∀ (s : State) (k : Crew), (s.addCrew k).crew k.num = some k ∧ ∀ n, n ≠ k.num → (s.addCrew k).crew n = s.crew n) ∧
  (∀ (s : State) (q i : Nat) (c : Cmd) (k : Crew), s.quiet → s.readyCmd q i 0x04 (some 0x21) = some c → s.crew c.fval = some k →
    k.state = 0 → (∀ x ∈ s.sinks, x.crew ≠ c.fval) →
    exec (.crewDissolve q i) s = .next (({ s with crews := s.crews.filter fun x => x.num != c.fval } : State).complete c .ok)) ∧
  (∀ (s : State) (q i : Nat) (c : Cmd) (k : Crew), s.quiet → s.readyCmd q i 0x04 (some 0x22) = some c →
    s.crew (c.fval % 256) = some k → k.state = 0 → c.fval / 256 % 256 ≤ 63 → s.domain.role ≠ 0 →
    exec (.crewJoin q i) s =
      .next ((s.modCrew (c.fval % 256) fun x => { x with domainJob := some (c.fval / 256 % 256) }).complete c .ok))

/-- A job command in a state that does not allow it completes with Sequence error and changes nothing. In its turn, for a formed
crew, LOAD RECIPE outside EMPTY, OPEN EPOCH outside LOADED, REQUEST BATCHES outside OPEN, RUNNING and SUSPENDED, SUSPEND
outside OPEN and RUNNING, RESUME outside SUSPENDED and CLOSE in EMPTY each complete with Sequence error, reporting the crew,
and change nothing else. (14_commands.md, R564, R565, R568, R569, R571, R572) -/
def Obligations.JobCommandsOutOfSequence : Prop :=
  ∀ (s : State) (q i : Nat) (c : Cmd) (k : Crew), s.quiet → s.jobTurn c = true → s.crew c.crew = some k →
    let t : Host.Outcome State Fault Refusal := .next (s.complete c (.sequence (some c.crew)))
    (s.readyCmd q i 0x20 none = some c → k.state ≠ 0 → exec (.loadRecipe q i) s = t) ∧
    (s.readyCmd q i 0x21 none = some c → k.state ≠ 1 → exec (.openEpoch q i) s = t) ∧
    (s.readyCmd q i 0x22 none = some c → k.state ≠ 2 → k.state ≠ 3 → k.state ≠ 4 → exec (.requestBatches q i) s = t) ∧
    (s.readyCmd q i 0x23 none = some c → k.state ≠ 2 → k.state ≠ 3 → exec (.suspend q i) s = t) ∧
    (s.readyCmd q i 0x24 none = some c → k.state ≠ 4 → exec (.resume q i) s = t) ∧
    (s.readyCmd q i 0x25 none = some c → k.state = 0 → exec (.close q i) s = t)

/-- LOAD RECIPE, the set tables built, and OPEN EPOCH. In its turn, with the media mounted: LOAD RECIPE of an image that passes
checks 1 to 12 and binds no set completes with the recipe loaded; one that binds sets takes their buffers and waits for the
tables, or completes with Quota exceeded; one that fails completes with the check's status, a rejection entry kept for Recipe
rejected. The set tables built, and passing check 13, load the recipe that waited with those tables; one that fails frees
them, raises kind 0x13 and rejects it. OPEN EPOCH of a loaded crew outside a domain job whose open block passes opens the job
it describes, one that does not is refused. While the media mount, both wait. (04_recipes.md, 14_commands.md, R149, R151,
R156, R157, R565, R568, R694) -/
def Obligations.RecipeAndEpochOpened : Prop :=
  (∀ (s : State) (q i : Nat) (c : Cmd) (k : Crew), s.readyCmd q i 0x20 none = some c → s.jobTurn c = true →
    s.crew c.crew = some k → k.state = 0 → s.media.stateCode ≠ 5 →
    exec (.loadRecipe q i) s = .next (match loadRecipe s c.data with
      | .inl r => if setStages r.image = [] then (s.setLoaded c.crew r).complete c .ok
        else let x := s.takeTables c.crew (setStages r.image)
          if x.1 = true then (x.2.modCrew c.crew fun y => { y with loading := some r }).modCmd q i fun y => { y with wait := .tables }
          else (s.afterFail x.2).complete c .quota
      | .inr f => (if f.status = 0x20 then s.modCrew c.crew fun y => { y with
          rejection := some (rejectionEntry f c.qid c.cid c.data s.us) } else s).complete c { status := f.status }).settle) ∧
  (∀ (s : State) (n : Nat) (c : Cmd) (k : Crew) (r : Recipe),
    (s.host.cmds.find? fun c => c.opc == 0x20 && c.crew == n && c.wait == .tables) = some c → s.crew n = some k → k.loading = some r →
    let w := s.modCrew n fun y => { y with loading := none }
    exec (.setTablesBuilt n) s = .next (match buildTables w r.image with
      | .inl l => (w.setLoaded n { r with tables := l }).complete c .ok
      | .inr (p, d, h, g) => ((w.freeTables n).raise { unit := 0x200 + k.eights.headD 0, sub := 4, kind := 0x13
                                                       phys := some ((w.freeTables n).physEight (k.eights.headD 0)), crew := some n, addr := g
                                                       ctx := some (sampleId d h 0, 0) }).rejectLoad c (reject 0x0B p)).settle) ∧
  (∀ (s : State) (q i : Nat) (c : Cmd) (k : Crew) (r : Recipe), s.readyCmd q i 0x21 none = some c → s.jobTurn c = true →
    s.crew c.crew = some k → k.state = 1 → s.media.stateCode ≠ 5 → k.recipe = some r → k.domainJob = none →
    exec (.openEpoch q i) s = .next (match s.judgeOpen c k r none with
      | .inr j => s.openWith c k r j
      | .inl x => s.refuseOpen c k r x).settle) ∧
  (∀ (s : State) (q i : Nat) (c : Cmd) (k : Crew), s.quiet → s.jobTurn c = true → s.crew c.crew = some k → s.media.stateCode = 5 →
    (s.readyCmd q i 0x20 none = some c → k.state = 0 → exec (.loadRecipe q i) s = .next s) ∧
    (s.readyCmd q i 0x21 none = some c → k.state = 1 → exec (.openEpoch q i) s = .next s))

/-- REQUEST BATCHES grants batches of a rank. In its turn, with fewer than 16 requests held for the rank, REQUEST BATCHES of a
running job raises the rank's grant by the count asked for (noting, in Timed mode, when each batch was granted), waits for
their delivery with the first index it grants, and takes an OPEN crew to RUNNING; with 16 it completes with Quota exceeded,
and a rank that the crew does not deliver completes with Invalid field at offset 20. (14_commands.md, R556, R569, R570) -/
def Obligations.BatchesRequested : Prop :=
  (∀ (s : State) (q i : Nat) (c : Cmd) (k : Crew) (j : Job) (x : RankJob), s.readyCmd q i 0x22 none = some c → s.jobTurn c = true →
    s.crew c.crew = some k → k.state = 2 ∨ k.state = 3 ∨ k.state = 4 → k.job = some j → j.rank c.reqRank = some x →
    let held := (s.host.cmds.filter fun y => y.grantsRank c.crew c.reqRank).length
    let stamps := if j.mode = 2 then (List.range c.reqCount).map fun i => (x.granted + i, s.uptime) else []
    let w := s.modJob c.crew fun j => j.modRank c.reqRank fun r => { r with granted := x.granted + c.reqCount, grantedAt := r.grantedAt ++ stamps }
    let u := w.modCmd q i fun y => { y with wait := .batches, first := x.granted }
    let v := if k.state = 2 then u.modCrew c.crew fun y => { y with state := 3 } else u
    (held < 16 → exec (.requestBatches q i) s = .next (((v.answerGrants c.crew c.reqRank).checkDrained c.crew).settle)) ∧
    (16 ≤ held → exec (.requestBatches q i) s = .next (s.complete c .quota).settle)) ∧
  (∀ (s : State) (q i : Nat) (c : Cmd) (k : Crew) (j : Job), s.quiet → s.readyCmd q i 0x22 none = some c → s.jobTurn c = true →
    s.crew c.crew = some k → k.state = 2 ∨ k.state = 3 ∨ k.state = 4 → k.job = some j → j.rank c.reqRank = none →
    exec (.requestBatches q i) s = .next (s.complete c { status := 0x02, res0 := 20 }))

/-- SUSPEND, its drain and RESUME. In its turn, SUSPEND of a running job with room for its tokens takes the crew to SUSPENDED
with dealing and transmission stopped, and waits; once no batch of the crew is under way it writes one token for each rank
and completes with their number; RESUME of a suspended crew takes it to RUNNING with dealing on and completes. Media,
catalogue, lands and fuses stay. (14_commands.md, R565, R571, R573) -/
def Obligations.SuspendAndResume : Prop :=
  (∀ (s : State) (q i : Nat) (c : Cmd) (k : Crew) (j : Job), s.quiet → s.readyCmd q i 0x23 none = some c → s.jobTurn c = true →
    s.crew c.crew = some k → k.state = 2 ∨ k.state = 3 → k.job = some j → 64 * j.ranks.length ≤ c.dlen →
    exec (.suspend q i) s = .next ((s.modCrew c.crew fun y => { y with
      state := 4, job := y.job.map fun j => { j with stopped := true } }).modCmd q i fun x => { x with wait := .drain })) ∧
  (∀ (s : State) (n : Nat) (c : Cmd) (r : Run), s.quiet →
    (s.host.cmds.find? fun c => c.opc == 0x23 && c.crew == n && c.wait == .drain) = some c → s.run n = some r → r.job.sending = false →
    exec (.suspendDrained n) s = .next ((s.toHost c r.tokens).complete c (.ok r.job.ranks.length))) ∧
  (∀ (s : State) (n : Nat) (r : Run), s.quiet → s.run n = some r → r.job.sending = true →
    exec (.suspendDrained n) s = .next s ∧ exec (.closeDrained n) s = .next s) ∧
  (∀ (s : State) (q i : Nat) (c : Cmd) (k : Crew), s.readyCmd q i 0x24 none = some c → s.jobTurn c = true →
    s.crew c.crew = some k → k.state = 4 →
    let w := s.modCrew c.crew fun y => { y with state := 3, job := y.job.map fun j => { j with stopped := false } }
    exec (.resume q i) s = .next (((w.complete c .ok).checkDrained c.crew).settle))

/-- CLOSE from LOADED and from a job, its drain, and RESET CREW. In its turn, CLOSE of a LOADED crew frees its set tables, gives
up its resident copies and leaves it EMPTY with no recipe; CLOSE of a job with room for its tokens stops dealing and waits,
and once nothing is under way the job ends (LOADED, no job, no context of the crew) and the tokens are written. RESET CREW
leaves the crew EMPTY with its eights, no recipe and no job, its generation one higher and no context of it in use, whatever
it was doing; the other crews stay. (14_commands.md, 16_crews.md, R565, R572, R574, R604, R605) -/
def Obligations.CloseAndReset : Prop :=
  (∀ (s : State) (q i : Nat) (c : Cmd) (k : Crew), s.readyCmd q i 0x25 none = some c → s.jobTurn c = true →
    s.crew c.crew = some k → k.state = 1 → k.job = none →
    exec (.close q i) s = .next (((((s.freeTables c.crew).leaveResidents c.crew).modCrew c.crew fun y => { y with
      state := 0, recipe := none, residency := 0, graphAllowed := false }).complete c .ok).settle)) ∧
  (∀ (s : State) (q i : Nat) (c : Cmd) (k : Crew) (j : Job), s.quiet → s.readyCmd q i 0x25 none = some c → s.jobTurn c = true →
    s.crew c.crew = some k → 1 ≤ k.state → k.state ≤ 5 → k.job = some j → 64 * j.ranks.length ≤ c.dlen →
    exec (.close q i) s =
      .next ((s.modJob c.crew fun j => { j with stopped := true }).modCmd q i fun x => { x with wait := .drain })) ∧
  (∀ (s : State) (n : Nat) (c : Cmd) (r : Run),
    (s.host.cmds.find? fun c => c.opc == 0x25 && c.crew == n && c.wait == .drain) = some c → s.run n = some r → r.job.sending = false →
    exec (.closeDrained n) s = .next (((((s.endJob r).toHost c r.tokens).complete c (.ok r.job.ranks.length))).settle)) ∧
  (∀ (s : State) (q i : Nat) (c : Cmd) (k : Crew), s.readyCmd q i 0x26 none = some c → s.crew c.crew = some k →
    exec (.resetCrew q i) s = .next (((s.resetCrew c.crew).complete c .ok).settle) ∧
    (s.resetCrew c.crew).crew c.crew = some { num := k.num, state := 0, eights := k.eights, gen := k.gen + 1, rejection := k.rejection
                                              drained := k.drained, domainJob := k.domainJob } ∧
    (∀ n, n ≠ c.crew → (s.resetCrew c.crew).crew n = s.crew n) ∧
    (s.resetCrew c.crew).contexts = s.contexts.filter fun x => x.crew != c.crew)

/-- Catalogue register and remove. In its turn among the catalogue commands, with the media mounted: a registration that passes
the structure checks and whose extents no earlier media command covers is checked against its shards, and one that passes
writes its manifest to the metadata space and waits for the programs; one that fails a check writes its entry to the
registration log and completes with its status. A removal of a registered dataset that no crew, sink or load uses writes its
record and waits, one that a crew or sink uses completes with Sequence error, reporting it. When its record is durable a
registration has entered the dataset and a removal has taken it out, the others as before. Out of its turn a command waits.
(02_datasets.md, 14_commands.md, R61, R62, R64, R65, R66, R67, R68, R158, R694, R772) -/
def Obligations.CatalogueChanges : Prop :=
  let status (f : RegFail) : Result := if f.status = 0x02 then .dataField f.off else { status := f.status }
  let logged (s : State) (c : Cmd) (f : RegFail) : State :=
    { s with regLog := s.regLog.add 256 (regEntry f (manDset (slice c.data 64 (field c.data 48 4))) s.us) }
  (∀ (s : State) (q i : Nat) (c : Cmd), s.readyCmd q i 0x04 (some 0x30) = some c → s.catalogueTurn c = true → s.media.stateCode ≠ 5 →
    exec (.catalogueRegister q i) s = .next (match structureFail c.data s.numberTaken (s.takenExtents ++ s.registering c) s.media.capacity with
      | some f => (logged s c f).complete c (status f)
      | none => if s.registrationHeld c = true then s else match registerFail s.media c.data with
        | some f => (logged s c f).complete c (status f)
        | none => s.writeRecord c (c.data.drop 64)).settle) ∧
  (∀ (s : State) (c : Cmd) (b : Bytes), s.writeRecord c b = match s.media.metaWrite b (max 1 ((b.length + 16383) / 16384)) 0 with
      | some (l, m) => ((s.setMedia m).modCmd c.qid c.cid fun x => { x with wait := .programs, seqs := l }).settlePrograms
      | none => s.complete c .writeFault) ∧
  (∀ (s : State) (c : Cmd), c.opc = 0x04 → c.fid = 0x30 → s.finish c = (s.addDataset (registered c.data)).complete c .ok ∧
    (s.addDataset (registered c.data)).dataset (registered c.data).dset = some (registered c.data) ∧
    ∀ n, n ≠ (registered c.data).dset → (s.addDataset (registered c.data)).dataset n = s.dataset n) ∧
  (∀ (s : State) (q i : Nat) (c : Cmd) (d : Dataset), s.readyCmd q i 0x04 (some 0x31) = some c → s.catalogueTurn c = true →
    s.media.stateCode ≠ 5 → s.dataset c.fval = some d →
    let loads := ∃ x ∈ s.host.cmds, x.opc = 0x20 ∧ x.wait = .tables ∧ c.fval ∈ imageDatasets x.data
    (loads → s.quiet → exec (.catalogueRemove q i) s = .next s) ∧
    (¬loads → s.datasetUser c.fval = none → exec (.catalogueRemove q i) s = .next (s.writeRecord c (leBytes 2 c.fval)).settle) ∧
    (¬loads → ∀ k, s.datasetUser c.fval = some k → exec (.catalogueRemove q i) s = .next (s.complete c (.sequence (some k))).settle)) ∧
  (∀ (s : State) (c : Cmd), c.opc = 0x04 → c.fid = 0x31 → s.datasetUser c.fval = none →
    s.finish c = ({ s with catalogue := s.catalogue.filter fun d => d.dset != c.fval } : State).complete c .ok) ∧
  (∀ (s : State) (q i : Nat) (c : Cmd), s.quiet → s.catalogueTurn c = false →
    (s.readyCmd q i 0x04 (some 0x30) = some c → exec (.catalogueRegister q i) s = .next s) ∧
    (s.readyCmd q i 0x04 (some 0x31) = some c → exec (.catalogueRemove q i) s = .next s))

/-- Vocabularies and grammars loaded and removed. With the media mounted, a vocabulary of a free number 1 to 16 and a grammar of
a free number 1 to 64 whose images hold take their buffer, or wait for it, and are written to the metadata space; once that
is durable they are kept with the image (and, a vocabulary, with its table hash); a number in use completes with Invalid
field at data offset 0. A vocabulary that no crew uses, and a grammar, are removed with a record, and leave with their
buffers when it is durable; a vocabulary in use completes with Sequence error, one that is not there with Invalid field at
offset 24. (09_text.md, 14_commands.md, R299, R300, R302, R303, R325) -/
def Obligations.TextTablesLoadAndLeave : Prop :=
  let lasts (s : State) (fid n : Nat) : Prop := ∀ x ∈ s.host.cmds, ¬(x.opc = 0x04 ∧ x.fid = fid ∧ x.wait = .programs ∧ field x.data 0 1 = n)
  (∀ (s : State) (q i : Nat) (c : Cmd), s.readyCmd q i 0x04 (some 0x40) = some c → s.media.stateCode ≠ 5 → c.short 72 = false →
    let n := field c.data 0 1
    (1 ≤ n → n ≤ 16 → (∀ v ∈ s.vocabs, v.num ≠ n) → lasts s 0x40 n → vocBad (c.data.drop 8) = none →
      let x := s.drawVocab n (c.data.drop 8).length
      exec (.vocabularyLoad q i) s = .next (if x.1 = true then x.2.writeRecord c (c.data.drop 8) else x.2).settle) ∧
    (∀ v ∈ s.vocabs, v.num = n → exec (.vocabularyLoad q i) s = .next (s.complete c { status := 0x02, res0 := 0x80000000 }).settle)) ∧
  (∀ (s : State) (q i : Nat) (c : Cmd), s.readyCmd q i 0x04 (some 0x41) = some c →
    ((∀ v ∈ s.vocabs, v.num ≠ c.fval) → exec (.vocabularyRemove q i) s = .next (s.complete c { status := 0x02, res0 := 24 }).settle) ∧
    (∀ v ∈ s.vocabs, v.num = c.fval →
      (s.vocabUser c.fval = none → exec (.vocabularyRemove q i) s = .next (s.writeRecord c (leBytes 1 c.fval)).settle) ∧
      (∀ k, s.vocabUser c.fval = some k → exec (.vocabularyRemove q i) s = .next ((s.complete c (.sequence (some k))).settle)))) ∧
  (∀ (s : State) (q i : Nat) (c : Cmd), s.readyCmd q i 0x04 (some 0x42) = some c → s.media.stateCode ≠ 5 → c.short 72 = false →
    let n := field c.data 0 1
    (1 ≤ n → n ≤ 64 → (∀ v ∈ s.grammars, v.num ≠ n) → lasts s 0x42 n → gramBad (c.data.drop 8) = none →
      let x := s.drawGrammar n (c.data.drop 8).length
      exec (.grammarLoad q i) s = .next (if x.1 = true then x.2.writeRecord c (c.data.drop 8) else x.2).settle) ∧
    (∀ v ∈ s.grammars, v.num = n → exec (.grammarLoad q i) s = .next (s.complete c { status := 0x02, res0 := 0x80000000 }).settle)) ∧
  (∀ (s : State) (q i : Nat) (c : Cmd), s.readyCmd q i 0x04 (some 0x43) = some c →
    ((∀ v ∈ s.grammars, v.num ≠ c.fval) → exec (.grammarRemove q i) s = .next (s.complete c { status := 0x02, res0 := 24 }).settle) ∧
    (∀ v ∈ s.grammars, v.num = c.fval → exec (.grammarRemove q i) s = .next (s.writeRecord c (leBytes 1 c.fval)).settle)) ∧
  (∀ (s : State) (c : Cmd), c.opc = 0x04 →
    (c.fid = 0x40 → s.finish c = ({ s with vocabs := s.vocabs ++
      [{ num := field c.data 0 1, image := c.data.drop 8, hash := sha384 (c.data.drop 8) }] } : State).complete c .ok) ∧
    (c.fid = 0x41 → s.vocabUser c.fval = none → ∃ w : State, s.finish c = w.complete c .ok ∧
      w = { s with mem := w.mem, vocabs := s.vocabs.filter fun v => v.num != c.fval }) ∧
    (c.fid = 0x42 → s.finish c = ({ s with grammars := s.grammars ++ [{ num := field c.data 0 1, image := c.data.drop 8 }] } : State).complete c .ok) ∧
    (c.fid = 0x43 → ∃ w : State, s.finish c = w.complete c .ok ∧
      w = { s with mem := w.mem, grammars := s.grammars.filter fun v => v.num != c.fval }))

/-- Dealing a position, the record's blocks arriving and a unit's result. A running crew that is not stopped makes again the
first sample that waits for a context, or deals the first rank, in the dealing order, that can be dealt, whose position moves
on by one; one that is stopped or not dealing deals nothing. A context that waits for its record, with its working buffer
drawn, runs its stages on the record read, or drops; one that waits for a unit runs on with the unit's result, or drops. A
drop goes to the next attempt, and that of a peer making leaves it with no output. (03_permutation.md, 04_recipes.md,
05_engines.md, R57, R125, R165, R167, R168, R169) -/
def Obligations.PositionsDealtAndRun : Prop :=
  (∀ (s : State) (n : Nat) (r : Run), s.run n = some r → r.crew.state = 2 ∨ r.crew.state = 3 → r.job.stopped = false →
    r.job.dealing = true → exec (.dealPosition n) s = .next (match r.job.again with
      | c :: _ => s.dealAgain r c
      | [] => State.dealFirst r r.dealOrder s).settle) ∧
  (∀ (r : Run) (k : RankJob) (l : List RankJob) (s : State), State.dealFirst r [] s = s ∧
    ((s.dealRank r k).1 = true → State.dealFirst r (k :: l) s = (s.dealRank r k).2.tellBoundary r.crew.num k.epoch) ∧
    ((s.dealRank r k).1 = false → State.dealFirst r (k :: l) s = State.dealFirst r l (s.dealRank r k).2)) ∧
  (∀ (s : State) (r : Run) (k : RankJob) (n : Nat), s.pickContext r.crew.num [] = some n → (s.readyPlace r k).1 = true →
    ((s.readyPlace r k).2.drawWorking r.crew.num n).1 = true →
    let w := ((s.readyPlace r k).2.drawWorking r.crew.num n).2.modJob r.crew.num fun j => j.modRank k.rank (RankJob.advance j)
    let pos := k.q * r.job.m + k.rank
    (s.dealRank r k) = (true, State.dealAttempt r 33 w { num := n, st := .waitFlash, crew := r.crew.num, rank := k.rank, epoch := k.epoch
                                                         pos := pos, tries := 0, sid := 0, origSid := r.job.sidAt k.epoch pos 0 } 0)) ∧
  (∀ (s : State) (n : Nat) (r : Run), s.quiet → s.run n = some r → r.job.stopped = true ∨ r.job.dealing = false →
    exec (.dealPosition n) s = .next s) ∧
  (∀ (j : Job) (k : RankJob), (RankJob.advance j k).dealt = k.dealt + 1 ∧
    (k.q + 1 < j.q → (RankJob.advance j k).q = k.q + 1 ∧ (RankJob.advance j k).epoch = k.epoch) ∧
    (k.q + 1 = j.q → (RankJob.advance j k).q = 0 ∧ (RankJob.advance j k).epoch = k.epoch + 1)) ∧
  (∀ (s : State) (n : Nat) (c : Context) (r : Run), s.ctx n = some c → s.run c.crew = some r → c.st = .waitFlash → s.media.mounted = true →
    let x := if s.hasRef (.context n) = true then (true, s) else s.drawWorking c.crew n
    exec (.flashBlockArrive n) s = .next (if x.1 = true then
        match stageFetch r c (readRecord x.2.media (r.job.slbaOf c.sid) (c.sid % 2 ^ 24)) with
        | .inl c' => x.2.outcome r c (runStages r 33 c')
        | .inr d => x.2.outcome r c (.inr d)
      else x.2).settle) ∧
  (∀ (s : State) (n : Nat) (c : Context) (r : Run), s.ctx n = some c → s.run c.crew = some r → c.st = .waitUnit → c.askedTag = none →
    exec (.unitResultArrive n) s = .next (match stageUnit s r c (rcpStage r.rc.image c.stage) with
      | (w, .inl c') => w.outcome r c (runStages r 33 { c' with st := .run })
      | (w, .inr d) => w.outcome r c (.inr d)).settle) ∧
  (∀ (s : State) (r : Run) (c c' : Context) (d : Drop), s.outcome r c (.inl c') = s.modCtx c.num (fun _ => c') ∧
    (c.peerOf = none → s.outcome r c (.inr d) = s.dropSample r c d) ∧
    (c.peerOf ≠ none → s.outcome r c (.inr d) = s.modCtx c.num fun x => { x with out := none, st := .sent }))

/-- The work cap, the crab budget and the release of a sample. A sample whose counter has passed the cap and that is not sent is
dropped to its next attempt; one that exceeds its time budget becomes a crab, is counted once for its position and its heat
is judged, and one whose counter has passed the cap is dropped first; one already a crab stays as it is. A complete sample is
released while its engine holds a credit and joins the collector's releases, on probation with a peer making started where a
unit of it is doubted; without a credit it stays. A peer making is only marked as sent, and one made for another device is
sent to it. (03_permutation.md, 05_engines.md, 07_packing.md, R152, R170, R172, R173, R175, R232, R264, R267, R653) -/
def Obligations.CapCrabAndRelease : Prop :=
  (∀ (s : State) (n : Nat) (c : Context) (r : Run), s.ctx n = some c → s.run c.crew = some r → c.capStage.isSome = true →
    c.st ≠ .sent → exec (.workCapAbort n) s = .next ((s.outcome r c (.inr .capped)).settle)) ∧
  (∀ (s : State) (n : Nat) (c : Context), s.quiet → s.ctx n = some c → c.capStage = none ∨ c.st = .sent → exec (.workCapAbort n) s = .next s) ∧
  (∀ (s : State) (n : Nat) (c : Context) (r : Run), s.ctx n = some c → s.run c.crew = some r → c.crab = false →
    (c.capStage = none →
      exec (.crabBudgetExpiry n) s = .next ((((s.modCtx n fun x => { x with crab := true }).noteCrab c r.job).judgeCrabs c.crew).settle)) ∧
    (c.capStage ≠ none → exec (.crabBudgetExpiry n) s = .next (((s.outcome r c (.inr .capped)).noteCrab c r.job).settle))) ∧
  (∀ (s : State) (c : Context) (j : Job), j.crabs.contains (c.epoch, c.pos) = true → s.noteCrab c j = s.raiseEngine c 0x10 c.epoch) ∧
  (∀ (s : State) (n : Nat) (c : Context), s.quiet → s.ctx n = some c → c.crab = true → exec (.crabBudgetExpiry n) s = .next s) ∧
  (∀ (s : State) (n : Nat) (c : Context) (r : Run) (o : Contribution), s.ctx n = some c → s.run c.crew = some r → c.out = some o →
    c.st = .release →
    (∀ d t, c.remote = some (d, t) → exec (.sampleRelease n) s = .next (s.sendPrepared r c d t o).settle) ∧
    (c.remote = none → s.hasCredit r c = false → exec (.sampleRelease n) s = .next s.settle) ∧
    (c.remote = none → s.hasCredit r c = true → c.peerOf ≠ none →
      exec (.sampleRelease n) s = .next (s.modCtx n fun x => { x with st := .sent }).settle) ∧
    (c.remote = none → s.hasCredit r c = true → c.peerOf = none →
      let w (doubt : Bool) := (s.modCtx n fun x => { x with st := .sent, probation := doubt }).modJob c.crew fun j =>
        { j with releases := j.releases ++ [n] }
      (s.doubted c = [] → exec (.sampleRelease n) s = .next (w false).settle) ∧
      (s.doubted c ≠ [] → exec (.sampleRelease n) s = .next ((w true).startPeer c [c.engine]).settle)))

/-- The collector's acceptance, a heat packed and a deadline decided. The collector takes the next release in its order, that
engine served last: it is accepted, with its context FREE again, made by a peer once more, or, where makings differ, accepted
when the majority holds it; with no release it frees the oldest sample that another device took. A complete heat, the first
of its rank, with no row to be rewritten, is packed: its rows are written to the batches it has buffers for, and when all
are, it leaves the job's heats. A deadline in a Timed job whose batch, granted and not closed, has no row counts a miss and
logs it; one with rows has its missing slots filled; in other modes, and for a batch closed or not granted, nothing happens.
(07_packing.md, 11_repeatability.md, R234, R259, R260, R261, R265, R266, R267, R420, R653) -/
def Obligations.CollectorAccepts : Prop :=
  (∀ (s : State) (n : Nat) (r : Run) (c : Context), s.run n = some r → s.nextRelease r.job = some c →
    let w := s.modJob n fun j => { j with served := c.turn }
    exec (.collectorAccept n) s = .next (match w.judgeProbation c with
      | .accept => (w.accept r c c.probation).checkDrained n
      | .wait => w
      | .again => w.startPeer c (c.engine :: ((w.contexts.filter fun (p : Context) => p.peerOf == some c.num).map Context.engine))
      | .differ bad keep =>
        let u := (bad.filterMap w.ctx).foldl State.mismatch w
        if keep then (u.accept r c true).checkDrained n else u).settle) ∧
  (∀ (s : State) (n : Nat) (r : Run), s.run n = some r → s.nextRelease r.job = none →
    exec (.collectorAccept n) s = .next (match s.contexts.find? fun (c : Context) => c.crew == n && c.remote.isSome && c.st == CtxState.sent with
      | some c => s.freeCtx c
      | none => s).settle) ∧
  (∀ (s : State) (n rk e h : Nat) (r : Run) (x : Heat) (k : RankJob), s.run n = some r →
    (r.job.heats.find? fun y => y.rank == rk) = some x → r.job.rank rk = some k → x.epoch = e → x.heat = h →
    x.items.length = r.job.heatLen h → (∀ w ∈ x.rewrites, w.awaited = false) →
    let rows := packCounts (stRowlen (rcpPack r.rc.image)) (stSplit (rcpPack r.rc.image)) (x.items.map fun y => (y.1, y.2.2.length))
    let resumed := (x.packed = none ∧ k.heats = []) ∨ (k.heats.head?.map fun y => (y.1, y.2.1)) = some (e, h)
    let skip := if resumed then k.skip else 0
    let kept := rows.drop skip
    let base := if x.packed = none then k.streamRows else k.streamRows - kept.length
    let first := base / r.job.b
    let nb := if kept = [] then 0 else (base + kept.length - 1) / r.job.b + 1 - first
    let w := (State.packBuffers n rk nb first (s.beginPack r x base skip kept.length rows)).2
    let room (i : Nat) : Bool := match w.run n with
      | some r => (r.job.batch rk ((base + i) / r.job.b)).isSome
      | none => false
    let done := x.packed.getD 0
    let now := ((kept.zipIdx).drop done).takeWhile fun y => room y.2
    let u := now.foldl (fun s (row, i) => s.writeSeqRow r x (base + i) row) w
    exec (.heatPackDone n rk e h) s = .next (if done + now.length = kept.length then u.endPack r x
      else u.modJob n fun j => j.modHeat rk e h fun y => { y with packed := some (done + now.length) }).settle) ∧
  (∀ (s : State) (r : Run) (h : Heat), s.endPack r h = (((s.modJob r.crew.num fun j => { j with
      heats := j.heats.filter fun y => !(y.rank == h.rank && y.epoch == h.epoch && y.heat == h.heat)
      sources := j.sources.filter fun y => !(y.rank == h.rank && y.epoch == h.epoch && y.heat == h.heat) }).freeRef
        fun b => b == .heat r.crew.num h.rank h.epoch h.heat).checkDrained r.crew.num)) ∧
  (∀ (s : State) (n rk b : Nat) (r : Run) (k : RankJob) (x : Batch), s.run n = some r → r.job.rank rk = some k → r.job.mode = 2 →
    k.next ≤ b → b < k.granted → b < r.batchCount k → r.job.batch rk b = some x →
    let missing := (List.range r.job.b).filter fun i => !x.rows.any fun y => y.1 == i
    (x.desc ≠ none ∨ (∃ i ∈ missing, r.rowMadeAgain k b i = true) → exec (.deadlineDecision n rk b) s = .next s.settle) ∧
    (x.desc = none → (∀ i ∈ missing, r.rowMadeAgain k b i = false) → x.rows = [] →
      exec (.deadlineDecision n rk b) s = .next ((s.miss r rk b).settle)) ∧
    (x.desc = none → (∀ i ∈ missing, r.rowMadeAgain k b i = false) → x.rows ≠ [] →
      let last := (b + 1) * r.job.b
      exec (.deadlineDecision n rk b) s = .next ((((missing.foldl (State.deadlineSlot r rk b) s).modJob n fun j => j.modRank rk fun y =>
        if last ≤ y.dealt then y else { y with dealt := last, epoch := jobE0 j.block + last / j.q, q := last % j.q }).checkDrained n).settle))) ∧
  (∀ (s : State) (n rk b : Nat) (r : Run), s.quiet → s.run n = some r → r.job.mode ≠ 2 → exec (.deadlineDecision n rk b) s = .next s)

/-- Batches transmitted over CXL and by RDMA. The next batch of a rank, closed, idle, granted and with no row to be rewritten, of
a running crew that is not stopped begins its transmission: over CXL at once, by RDMA with its rows and headers queued as
writes at the port of its queue pair. A CXL batch under way is written (rows, headers, then the descriptor), is signalled
where its target asks and is delivered. An acknowledgement of a packet in flight takes it and those before it out of flight,
clears the retry counts, moves the acknowledged PSN, and moves on every batch of the queue pair; an RNR NAK and a timeout
below the retry limit count one retry and resend; at the limit the pair is in error. (07_packing.md, 10_ports.md, 15_cxl.md,
R234, R262, R378, R380, R383, R384, R385, R591, R592) -/
def Obligations.BatchesDelivered : Prop :=
  (∀ (s : State) (n rk : Nat) (r : Run) (k : RankJob) (b : Batch), s.run n = some r → r.job.rank rk = some k → r.nextSend k = some b →
    let w := s.modJob n fun j => j.modBatch rk b.k fun b => { b with tx := .sending }
    (tgtCxl k.target = true → exec (.batchTransmitStart n rk) s = .next w.settle) ∧
    (∀ p, tgtCxl k.target = false → s.rp (tgtLqpn k.target) = some p → p.err = false → p.responder = false →
      let img := batchImage b
      let rows := r.job.b * r.rc.rowBytes
      let at_ := regionAddr k.target b.k
      let heads := img.drop (rows + 128)
      exec (.batchTransmitStart n rk) s = .next (w.queueAll p.port n
        (writeFrames p n rk b.k at_ (tgtRkey k.target) (img.take rows) heads.isEmpty ++
         writeFrames p n rk b.k (at_ + rows + 128) (tgtRkey k.target) heads true)).settle)) ∧
  (∀ (r : Run) (k : RankJob) (b : Batch), r.nextSend k = some b → r.crew.state = 3 ∧ r.job.stopped = false ∧ b.tx = .idle ∧ b.desc.isSome = true ∧
    b.k < k.granted ∧ k.next ≤ b.k ∧ ∀ w ∈ b.rewrites, w.awaited = false) ∧
  (∀ (s : State) (n rk : Nat) (r : Run) (k : RankJob), s.quiet → s.run n = some r → r.job.rank rk = some k →
    r.crew.state ≠ 3 ∨ r.job.stopped = true → exec (.batchTransmitStart n rk) s = .next s) ∧
  (∀ (s : State) (n rk : Nat) (r : Run) (k : RankJob) (b : Batch), s.run n = some r → r.job.rank rk = some k →
    (r.job.batches.find? fun b => b.rank == rk && b.tx == .sending) = some b → tgtCxl k.target = true → s.host.flit ≠ 0 →
    let img := batchImage b
    let rows := r.job.b * r.rc.rowBytes
    let w := ((s.dmaWrites (regionAddr k.target b.k) (img.take rows) s.host.relaxedOrdering).dmaWrites
      (regionAddr k.target b.k + rows + 128) (img.drop (rows + 128)) s.host.relaxedOrdering).dmaWrites
        (regionAddr k.target b.k + rows) (b.desc.getD []) false
    (tgtImm k.target = false ∨ w.qp r.job.qid = none → exec (.cxlBatchWrite n rk) s = .next ((w.delivered n rk b.k).settle)) ∧
    (∀ q, tgtImm k.target = true → w.qp r.job.qid = some q →
      exec (.cxlBatchWrite n rk) s = .next (((w.signal q.vector).delivered n rk b.k).settle))) ∧
  (∀ (s : State) (q n i : Nat) (p : RocePair), s.rp q = some p →
    (p.flight.findIdx? fun f => match f.body with | .out (.rdma _ m _ _ _ _ _ _) => m == n | _ => false) = some i →
    let next := (n + 1) % 16777216
    let w := (s.keepFrames p.port fun f => !(p.flight.take (i + 1)).contains f).modRp q fun p => { p with
      flight := p.flight.drop (i + 1), acked := next, retries := 0, rnrRetries := 0 }
    let u := w.freeRef fun b => match b with | .retry x m => x == q && psnAcked next m | _ => false
    let mine := u.crews.flatMap fun c => match c.job with
      | some j => (j.batches.filter fun b => match j.rank b.rank with
          | some k => !tgtCxl k.target && tgtLqpn k.target == q
          | none => false).map fun b => (c.num, b.rank, b.k)
      | none => []
    exec (.rdmaAckReceive q n) s = .next (mine.foldl (fun s x => s.ackBatch q x.1 x.2.1 x.2.2) u).settle) ∧
  (∀ (s : State) (q : Nat) (p : RocePair), s.rp q = some p → p.err = false → p.flight ≠ [] →
    (p.retries < p.retryMax → exec (.transportTimeout q) s = .next (((s.modRp q fun p => { p with retries := p.retries + 1 }).resend p).settle)) ∧
    (p.retryMax ≤ p.retries → exec (.transportTimeout q) s = .next ((s.rocePairError p).settle)) ∧
    (p.rnrMax = 7 ∨ p.rnrRetries < p.rnrMax →
      exec (.rnrNakReceive q) s = .next (((s.modRp q fun p => { p with rnrRetries := p.rnrRetries + 1 }).resend p).settle)) ∧
    (p.rnrMax ≠ 7 → p.rnrMax ≤ p.rnrRetries → exec (.rnrNakReceive q) s = .next ((s.rocePairError p).settle)))

/-- Parity errors, lost packets and resident copies. A parity error raises kind 0x01 of the unit that owns the storage, naming
the 64-byte line in a DRAM tier (whose buffer is then suspect) and the word elsewhere: met by a read for a sample, of its own
data or of a vocabulary, it has the sample made again; in a resident granule, the granule is read from flash again, or given
up, and the sample made again; in a batch or heat buffer, the samples of the row are made again for it, and a batch that is
being sent begins again; in a stream it aborts the stream. A sample that waits for a response, or whose release is on its
way, is made again when none comes. A granule of a resident copy that passes its check becomes resident. A DRAM line's 64
data bytes read back while its 8 parity bytes hold. (08_graphs.md, 12_memory.md, 17_faults.md, 01_architecture.md, R32, R263,
R288, R290, R291, R435, R646, R647) -/
def Obligations.ParityAndCopies : Prop :=
  (∀ (s : State) (u a b : Nat) (p c : Option Nat) (sid : Nat),
    let addr := if (dramTier u).isSome = true then a / 64 * 64 else a
    let w := s.raise { unit := u, sub := b, kind := 0x01, phys := p, crew := c, ctx := some (addr, sid) }
    s.parityFault u a b p c sid = (match dramTier u with | some t => w.suspectAt t a | none => w)) ∧
  (∀ (s : State) (n u p b a : Nat) (c : Context), s.ctx n = some c →
    exec (.parityError (.context n u p b a)) s = .next ((s.parityFault u a b (some p) (some c.crew) c.sid).failMaking c).settle) ∧
  (∀ (s : State) (v n u a : Nat) (c : Context), s.ctx n = some c → (∃ x ∈ s.vocabs, x.num = v) →
    exec (.parityError (.vocabulary v n u a)) s = .next ((s.parityFault u a 0 none (some c.crew) c.sid).failMaking c).settle) ∧
  (∀ (s : State) (n d i g u a : Nat) (c : Context) (ds : Dataset), s.ctx n = some c → s.dataset d = some ds →
    (∃ x ∈ s.residents, x.dset = d ∧ x.shard = i ∧ g ∈ x.granules) →
    let w := s.parityFault u a 0 none (some c.crew) c.sid
    let lose (x : Resident) : Resident := { x with granules := x.granules.filter fun y => y != g }
    (w.granuleGood ds i g = true → exec (.parityError (.resident n d i g u a)) s = .next (w.failMaking c).settle) ∧
    (w.granuleGood ds i g = false → exec (.parityError (.resident n d i g u a)) s = .next ((({ w with
      residents := updWhere (fun x => x.dset == d && x.shard == i) lose w.residents } : State).failMaking c).settle))) ∧
  (∀ (s : State) (n rk k sl u a : Nat) (r : Run) (b : Batch), s.run n = some r → r.job.batch rk k = some b →
    let hs := b.hdrs.filter fun h => h.slot == sl
    let w := s.parityFault u a 0 none (some n) (match hs.head? with | some h => h.sid | none => 0)
    let v := hs.foldl (fun (s : State) h =>
      let x := rewriteOf b.rewrites sl h.epoch (r.job.maker h)
      let s := s.exhaustRetries n x.2.retries h.epoch h.sid x.2.pos
      (s.modJob n fun j => j.modBatch rk k fun y => { y with rewrites := x.1 }).remakeRow r h x.2 (.row rk k sl)) w
    (b.tx ≠ .sending → exec (.parityError (.batch n rk k sl u a)) s = .next v.settle) ∧
    (b.tx = .sending → exec (.parityError (.batch n rk k sl u a)) s = .next ((v.dropBatchWrites n rk k).modJob n fun j => j.modBatch rk k fun b =>
      { b with tx := .idle }).settle)) ∧
  (∀ (s : State) (n rk e h x u a : Nat) (r : Run) (y : Heat) (i : Nat × Hdr × List Nat), s.run n = some r → r.job.heat rk e h = some y →
    (y.items.find? fun i => i.1 == x) = some i →
    let w := s.parityFault u a 0 none (some n) i.2.1.sid
    let z := rewriteOf y.rewrites x i.2.1.epoch (r.job.maker i.2.1)
    let v := w.exhaustRetries n z.2.retries i.2.1.epoch i.2.1.sid z.2.pos
    exec (.parityError (.heat n rk e h x u a)) s = .next ((v.modJob n fun j => j.modHeat rk e h fun q => { q with rewrites := z.1 }).remakeRow
      r i.2.1 z.2 (.item rk e h x)).settle) ∧
  (∀ (s : State) (k n u a : Nat) (t : Stream), s.stream k n = some t → exec (.parityError (.stream k n u a)) s =
    .next ((s.parityFault u a 0 none ((s.sink k).map Sink.crew) 0).abortStream t).settle) ∧
  (∀ (s : State) (n : Nat) (c : Context), s.ctx n = some c → c.st ≠ .run → exec (.missingResponse n) s = .next ((s.failMaking c).settle)) ∧
  (∀ (s : State) (n : Nat) (c : Context), s.quiet → s.ctx n = some c → c.st = .run → exec (.missingResponse n) s = .next s) ∧
  (∀ (s : State) (d i g : Nat) (ds : Dataset), s.quiet → s.dataset d = some ds →
    (s.media.mounted = true → s.granuleGood ds i g = true → g < arrayGranules ds.manifest i → ∃ l : List Resident,
      exec (.residentCopyGranule d i g) s = .next { s with residents := l } ∧
      l = s.residents.map (fun x => if x.dset = d ∧ x.shard = i ∧ g ∉ x.granules then { x with granules := x.granules ++ [g] } else x)) ∧
    (s.granuleGood ds i g = false → exec (.residentCopyGranule d i g) s = .next s)) ∧
  (∀ (d : Bytes) (k : Nat), k < 64 → (dramLine d).length = 72 ∧ dramLineRead (dramLine d) k = some ((fitTo 64 d).getD k 0) ∧
    ∀ j : Nat, j < 8 → dramLineRead ((dramLine d).set k ((dramLine d).getD k 0 ^^^ BitVec.ofNat 8 (2 ^ j))) k = none) ∧
  (∀ (s : State) (tier a : Nat), s.dramRead tier a = some (s.dramByte tier a))

/-- A port's training ends, a running port loses lanes, and the frame overhead ends. A port in training notes the lanes that
trained here. When they agree on a width and the link comes up, an Ethernet port comes up; a Ryhero port sends its handshake
and comes up when it has its peer's. Coming up, it is up at width 4 and degraded below, with CAUSE 0. One that does not train
is fenced for cause 1 (no lane), 2 or 6 (protocol error). A port that is not in training changes nothing. A running port that
loses lanes is recovered without them. The frame overhead of a retrain ends a second later. (10_ports.md, 19_startup.md,
R345, R346, R348, R349, R350, R352, R354, R356, R399, R700) -/
def Obligations.PortTrainingAndLanes : Prop :=
  (∀ (s : State) (n : Nat) (p : Port) (r : TrainResult), s.port n = some p → p.state = 1 → s.portMode n ≠ 0 →
    let t := (s.trainedBy 3 r.fellBack).modPort n fun p => { p with lanes := r.lanesHere % 16 }
    let width := widthOf (s.portMode n) (s.num 0x4001 (n + 1)) (r.lanesHere % 16 &&& r.lanesPeer % 16)
    (∀ w v, width = some (w, v) → r.linkUp = true →
      let u := t.modPort n fun p => { p with agreed := w }
      let shook := u.send (.flit n (u.handshake { p with lanes := r.lanesHere % 16 }))
      (s.portMode n = 2 → exec (.portTrainingComplete n r) s = .next (u.portComesUp n).settle) ∧
      (s.portMode n ≠ 2 → p.shaken = true → exec (.portTrainingComplete n r) s = .next (shook.portComesUp n).settle) ∧
      (s.portMode n ≠ 2 → p.shaken = false → exec (.portTrainingComplete n r) s = .next shook.settle)) ∧
    (width = none ∨ r.linkUp = false →
      let f := t.fencePort n (if p.protoErr = true then 6 else if r.lanesHere % 16 = 0 then 1 else 2)
      exec (.portTrainingComplete n r) s = .next (if f.started = true then f.recheckTimed.reroute else f).settle)) ∧
  (∀ (s : State) (n : Nat) (p : Port), s.port n = some p → s.started = false → p.link.resend = 0 →
    ∃ q : Port, (s.portComesUp n).port n = some q ∧ q.width = p.agreed ∧ q.agreed = 0 ∧ q.cause = 0 ∧ q.lanes = p.lanes ∧ q.resuming = false ∧
      q.state = (if p.agreed = 4 then 2 else 3) ∧ ∀ m, m ≠ n → (s.portComesUp n).port m = s.port m) ∧
  (∀ (s : State) (n : Nat) (p : Port) (r : TrainResult), s.quiet → s.port n = some p → p.state ≠ 1 →
    exec (.portTrainingComplete n r) s = .next s) ∧
  (∀ (s : State) (n l : Nat) (p : Port), s.port n = some p → p.state = 2 ∨ p.state = 3 →
    exec (.laneLoss n l) s = .next (((s.modPort n fun p => { p with lanes := p.lanes - (p.lanes &&& l % 16) }).recoverPort n false).settle)) ∧
  (∀ (s : State) (n : Nat), s.quiet → exec (.frameOverheadExpiry n) s = .next (s.modPort n fun p => { p with overhead := false }))

/-- Flits of a Ryhero link: data, idle, NAK, handshake, replay and credits. On a running Ryhero port, beside the codewords FEC
corrected: a good data flit in sequence with room in its channel acknowledges what it says, is taken into the channel's
buffer and advances the expected sequence number by one modulo 2^16, an acknowledgement departing when one is due; a flit out
of sequence or bad gets a NAK, one without room recovers the port; a good idle flit gives its acknowledgement and credits; a
good NAK replays what it does not acknowledge; a replay timeout replays, 200 ns after a NAK it is sent again; the credits
owed on a channel depart, at most 255, in an idle flit. A good handshake of version 1 and a range this device speaks records
the peer and its credits, brings up a port whose width is agreed, and raises kind 0x22 when the peer changed; another range
fences the port for cause 3 with kind 0x21. (10_ports.md, R8, R356, R357, R358, R359, R360, R361, R362, R363, R365, R368) -/
def Obligations.LinkFlits : Prop :=
  (∀ (s : State) (n k : Nat), s.fecCorrects n k = s.modPort n fun p => { p with fecCorrected := (p.fecCorrected + k) % 2 ^ 64 }) ∧
  (∀ (s : State) (n k : Nat) (p : Port) (f : Bytes), let u := s.fecCorrects n k
    u.port n = some p → u.portUp n 1 = true →
    let good := flitGood p f = true ∧ flitType f = 1
    let w := u.modLink n fun l => l.takeAck (flitAck f)
    let rx := p.link.rx.getD (flitVc f) []
    (good → flitSeq f = p.link.expect → rx.length < rxSizes.getD (flitVc f) 0 →
      exec (.dataFlitReceive n ⟨f, k⟩) s = .next (((w.modLink n fun l => { l.takeCredit f with
        expect := (l.expect + 1) % 65536, naking := false, ackOwed := l.ackOwed + 1
        rx := l.rx.set (flitVc f) (rx ++ [f]) }).replayOn n).acknowledge n).settle) ∧
    (good → flitSeq f = p.link.expect → rxSizes.getD (flitVc f) 0 ≤ rx.length →
      exec (.dataFlitReceive n ⟨f, k⟩) s = .next (w.recoverPort n true).settle) ∧
    (good → flitSeq f ≠ p.link.expect →
      exec (.dataFlitReceive n ⟨f, k⟩) s = .next ((w.modLink n fun l => { l with naking := true }).sendControlFlit n 3).settle) ∧
    (¬good → exec (.dataFlitReceive n ⟨f, k⟩) s = .next ((u.modLink n fun l => { l with naking := true }).sendControlFlit n 3).settle)) ∧
  (∀ (s : State) (n k : Nat) (p : Port) (f : Bytes), let u := s.fecCorrects n k
    u.port n = some p → u.portUp n 1 = true → flitGood p f = true →
    (flitType f = 2 → exec (.idleFlitReceive n ⟨f, k⟩) s = .next ((u.modLink n fun l => (l.takeAck (flitAck f)).takeCredit f).replayOn n).settle) ∧
    (flitType f = 3 → exec (.nakFlitReceive n ⟨f, k⟩) s = .next (((u.modLink n fun l => l.takeAck (flitAck f)).replay n).settle))) ∧
  (∀ (s : State) (n : Nat), s.portUp n 1 = true → exec (.replayTimeout n) s = .next ((s.replay n).settle)) ∧
  (∀ (s : State) (n : Nat) (p : Port), s.port n = some p → s.portUp n 1 = true → p.link.naking = true →
    exec (.nakRepeat n) s = .next ((s.sendControlFlit n 3).settle)) ∧
  (∀ (s : State) (n v : Nat) (p : Port), s.quiet → s.port n = some p → s.portUp n 1 = true → p.link.owed.getD v 0 ≠ 0 →
    exec (.creditReturn n v) s = .next ((s.modLink n fun l => l.departed (v, min 255 (p.link.owed.getD v 0))).send
      (.flit n (flit p.link.ver 2 0 0 p.link.expect v (min 255 (p.link.owed.getD v 0)) 0 false false [])))) ∧
  (∀ (s : State) (n k : Nat) (p : Port) (f : Bytes), let u := s.fecCorrects n k
    u.port n = some p → p.state = 1 → u.portMode n = 1 → flitCrcOk f = true → flitVer f = 1 → flitType f = 4 →
    let b := f.drop 12
    let peer := field b 2 2 % 4096
    let far := field b 4 1
    let w := u.modPort n fun p => { p with peer := peer, peerPort := far, lastPeer := some (peer, far), shaken := true
                                           link := { p.link with ver := 1, credits := (List.range 4).map fun v => field b (8 + 2 * v) 2
                                                                 owed := [0, 0, 0, 0] } }
    let v := if p.agreed = 0 then w.noteTopology n else (w.portComesUp n).noteTopology n
    (1 ≤ field b 1 1 → field b 0 1 ≤ 1 → p.lastPeer = none ∨ p.lastPeer = some (peer, far) →
      exec (.handshakeFlitReceive n ⟨f, k⟩) s = .next v.settle) ∧
    (1 ≤ field b 1 1 → field b 0 1 ≤ 1 → ∀ x, p.lastPeer = some x → x ≠ (peer, far) →
      exec (.handshakeFlitReceive n ⟨f, k⟩) s = .next ((v.raise { unit := portUnit n, kind := 0x22, addr := peer }).peerChanged n peer).settle) ∧
    (field b 1 1 = 0 ∨ 1 < field b 0 1 →
      let x := (u.fencePort n 3).raise { unit := portUnit n, kind := 0x21, addr := field b 1 1 }
      exec (.handshakeFlitReceive n ⟨f, k⟩) s = .next (if x.started = true then x.recheckTimed.reroute else x).settle))

/-- A whole packet taken, and a frame sent. A whole packet on a running Ryhero port takes a reassembly buffer, or waits for one,
leaves its channel's buffer, its flits' credits are owed, and its route is followed: sent on while its route goes on, taken
into the inbox where it ends here, and discarded with kind 0x23 where it ends elsewhere. A running port sends the frame its
scheduler picks: an Ethernet frame as it stands, a packet in flits, an RDMA write with the next PSN; a port that is not
running sends nothing. A PFC frame pauses and releases its priorities on a running Ethernet port, and the pause of one ends.
(10_ports.md, R366, R369, R371, R372, R373, R374, R387, R393, R395) -/
def Obligations.PacketsAndFrames : Prop :=
  (∀ (s : State) (n v : Nat) (p : Port) (l : List Bytes), s.port n = some p → wholePacket (p.link.rx.getD v []) = some l →
    s.portUp n 1 = true → let x := s.alloc .portReassembly (.other n) (max 1 (l.flatMap flitData).length) [ownerId 2 n]
    exec (.ryheroPacketReceive n v) s = .next (if x.1 = true then ((x.2.freeRef fun b => b == .other n).modLink n fun k => { k with
      rx := k.rx.set v ((k.rx.getD v []).drop l.length), owed := k.owed.set v (k.owed.getD v 0 + l.length) }).routePacket n (l.flatMap flitData)
      else s).settle) ∧
  (∀ (s : State) (n : Nat) (p : Bytes), pktVerOk p = true → pktHopIdx p < pktHops p →
    let i := pktHopIdx p + 1
    let lost := s.raise { unit := portUnit n, kind := 0x23, addr := pktSrc p + pktDst p * 4096 }
    (i < pktHops p → s.transitCut n (pktRoute p (i + 1)) = false →
      s.routePacket n p = s.sendOn (pktRoute p (i + 1)) (pktSetHop p i) none true) ∧
    (pktHops p ≤ i → pktDst p = s.selfId ∨ isProbe p = true → pktCrcOk p = true →
      s.routePacket n p = s.modDomain fun d => { d with inbox := d.inbox ++ [byteOf n :: pktSetHop p i] }) ∧
    (pktHops p ≤ i → pktDst p ≠ s.selfId → isProbe p = false → s.routePacket n p = lost)) ∧
  (∀ (s : State) (n : Nat) (p : Port), s.port n = some p → s.portUp n 1 = true ∨ s.portUp n 2 = true →
    let x := s.pickFrame p
    let t := s.modPort n fun _ => x.1
    exec (.transmitFrame n) s = .next (match x.2 with
      | none => t
      | some (q, f) =>
        let w := match f.pacedBy with | some l => (t.popFrame n q f).paceTake l (t.frameLen n f) | none => t.popFrame n q f
        match f.body with
        | .out o => w.send o
        | .packet b => w.sendFlits n b
        | .write _ _ _ _ _ _ _ _ _ _ => w.sendWrite f).settle) ∧
  (∀ (s : State) (n : Nat), s.quiet → s.portUp n 1 = false → s.portUp n 2 = false → exec (.transmitFrame n) s = .next s) ∧
  (∀ (s : State) (n : Nat) (a b : List Nat), s.quiet → s.portUp n 2 = true → exec (.pfcPauseReceive n a b) s =
    .next (s.modPort n fun p => { p with
      paused := (p.paused ++ (a.filter fun x => x < 8 && !p.paused.contains x)).filter fun x => !b.contains x })) ∧
  (∀ (s : State) (n k : Nat), s.quiet →
    exec (.pfcPauseExpiry n k) s = .next (s.modPort n fun p => { p with paused := p.paused.filter fun x => x != k }))

/-- RoCEv2 queue pairs set, removed, marked and replied to, and neighbours answered. A queue pair set whose context holds is
entered with its PSNs from the context, rate 1 and a full policing bucket, its earlier context's frames gone; one that no
crew or sink uses is removed. A CNP at a requester counts, and 20 µs or more after the last multiplies its rate by 7/8, not
below 1/256; 100 µs without one adds 1/32, up to 1. A marked packet at a responder queues a CNP when CnpInterval has passed.
A good packet in sequence for a responder is served, one out of sequence dropped, another discarded and counted; a wrong
operation gets an invalid request NAK, the first packet of a message an RNR NAK where the bucket is short or the buffer full,
and the last an ACK, its message in the ingress buffer. A request for one of a port's own addresses is answered, an
unsupported frame counted. (10_ports.md, R375, R376, R377, R378, R379, R388, R389, R390, R391, R392) -/
def Obligations.RoceQueuePairs : Prop :=
  (∀ (s : State) (q i : Nat) (c : Cmd), s.readyCmd q i 0x04 (some 0x50) = some c → c.short 64 = false →
    let b := c.data.take 64
    let n := field b 4 3
    let p : RocePair := { lqpn := n, ctx := b, psn := field b 12 3, expect := field b 16 3, acked := field b 12 3
                          bucket := field b 52 3 * 1024 * 32768, filled := s.uptime }
    s.rocePairBad b = none → (s.rp n ≠ none ∨ s.roce.length < 4096) →
    let w := match s.rp n with | some x => s.unsend x | none => s
    exec (.queuePairSet q i) s = .next (({ w with roce := (w.roce.filter fun x => x.lqpn != n) ++ [p] } : State).complete c .ok).settle ∧
      p.err = false ∧ p.rate = 1 ∧ p.flight = []) ∧
  (∀ (s : State) (q i : Nat) (c : Cmd) (p : RocePair), s.readyCmd q i 0x04 (some 0x51) = some c → c.short 3 = false →
    s.rp (field c.data 0 3) = some p →
    (s.rocePairUser p = none → exec (.queuePairRemove q i) s = .next (({ s.unsend p with
      roce := (s.unsend p).roce.filter fun x => x.lqpn != p.lqpn } : State).complete c .ok).settle) ∧
    (∀ k, s.rocePairUser p = some k → exec (.queuePairRemove q i) s = .next (s.complete c (.sequence (some k))).settle)) ∧
  (∀ (s : State) (q us : Nat) (p : RocePair), s.quiet → s.rp q = some p → p.responder = false →
    let w := s.modPort p.port fun x => { x with cnpReceived := (x.cnpReceived + 1) % 4294967296 }
    (p.cnpIgnored us = true → exec (.cnpReceive ⟨q, us⟩) s = .next w) ∧
    (p.cnpIgnored us = false → exec (.cnpReceive ⟨q, us⟩) s = .next (w.modRp q fun p =>
      { w.pacedPair p with rate := max (p.rate * 7 / 8) (1 / 256), cnpAt := some us }))) ∧
  (∀ (p : RocePair) (t us : Nat), (p.cnpAt = none → p.cnpIgnored us = false) ∧ (p.cnpAt = some t → t ≤ us → (p.cnpIgnored us = true ↔ us < t + 20))) ∧
  (∀ (s : State) (q : Nat), s.quiet → exec (.rateRecoveryTick q) s =
    .next (s.modRp q fun p => if p.responder then p else { s.pacedPair p with rate := min 1 (p.rate + 1 / 32) })) ∧
  (∀ (s : State) (q us : Nat) (p : RocePair), s.rp q = some p → p.responder = true → s.cnpDue p us = true →
    exec (.cePacketReceive ⟨q, us⟩) s = .next (((s.modRp q fun p => { p with cnpSent := some us }).queueReply p (.cnp q (s.roceFrame p)) 16)).settle) ∧
  (∀ (s : State) (k : RocePacket) (p : RocePair), s.portUp k.port 2 = true → roceGood k = true → s.rp k.lqpn = some p → p.responder = true →
    p.port = k.port →
    (k.psn = p.expect → exec (.roceSendReceive k) s = .next (s.responderRequest k p).settle) ∧
    (k.psn ≠ p.expect → exec (.roceSendReceive k) s = .next s.settle)) ∧
  (∀ (s : State) (k : RocePacket), s.quiet → s.portUp k.port 2 = true → roceGood k = false ∨ s.rp k.lqpn = none →
    exec (.roceSendReceive k) s = .next (s.modPort k.port fun p => { p with discarded := p.discarded + 1 })) ∧
  (∀ (s : State) (k : RocePacket) (x : RocePair),
    let p := s.filledPol x
    let w := s.modRp k.lqpn fun _ => p
    let next := (p.expect + 1) % 16777216
    let starts := k.opcode = 0 ∨ k.opcode = 3
    let short := starts ∧ p.polRate ≠ 0 ∧ p.bucket < ((k.frameLen * 32768 : Nat) : Int)
    let v := w.modRp k.lqpn fun p => p.drain k.frameLen
    let msg := (if k.opcode = 0 ∨ k.opcode = 3 then [] else p.message) ++ k.payload
    (3 < k.opcode → s.responderRequest k x =
      (w.modRp k.lqpn fun p => { p with expect := next }).queueReply p (.roceNak k.lqpn k.psn false (w.roceFrame p)) 4) ∧
    (k.opcode ≤ 3 → short → s.responderRequest k x =
      (w.modPort p.port fun x => { x with policedSends := (x.policedSends + 1) % 4294967296 }).queueReply p
        (.roceNak k.lqpn k.psn true (w.roceFrame p)) 4) ∧
    (k.opcode ≤ 3 → ¬short → starts → 16777216 ≤ v.ingressBytes p.port →
      s.responderRequest k x = v.queueReply p (.roceNak k.lqpn k.psn true (w.roceFrame p)) 4) ∧
    (k.opcode ≤ 3 → ¬short → (¬starts ∨ v.ingressBytes p.port < 16777216) → k.opcode ≠ 2 → k.opcode ≠ 3 →
      s.responderRequest k x = v.modRp k.lqpn fun p => { p with expect := next, message := msg }) ∧
    (¬short → (¬starts ∨ v.ingressBytes p.port < 16777216) → k.opcode = 2 ∨ k.opcode = 3 →
      let u := (v.modRp k.lqpn fun p => { p with expect := next, message := [] }).queueReply p (.roceAck k.lqpn k.psn (w.roceFrame p)) 4
      s.responderRequest k x = ({ u.leavePs1 with ingress := u.ingress ++ [(p.port, msg)] } : State).judgeIngress p.port)) ∧
  (∀ (s : State) (n : Nat) (a d : Bytes) (m : Bool), s.quiet → s.portUp n 2 = true → s.ownAddress n a = true →
    exec (.neighbourRequestReceive n (.arp a)) s = .next (s.send (.neighbourReply n a [])) ∧
    exec (.neighbourRequestReceive n (.solicitation a)) s = .next (s.send (.neighbourReply n a [])) ∧
    exec (.neighbourRequestReceive n (.echo a m d)) s = .next (s.send (.neighbourReply n a d))) ∧
  (∀ (s : State) (n : Nat), s.quiet → s.portUp n 2 = true →
    exec (.neighbourRequestReceive n .unsupported) s = .next (s.modPort n fun p => { p with discarded := p.discarded + 1 }))

/-- Opening, flushing and closing a rollout sink. With the rollout licence, a sink open whose crew has a recipe, whose data are
whole and whose header holds opens the sink with its header as given, an empty open shard after those of its dataset, and
PHASE 1, its consumer line watched, and enters its dataset when it is new. On media that may program, a flush seals the shard
that was open as it was fetched and waits for it to be durable; a close ends the sink's streams, seals its shard, and the
sink is gone when every sealed shard is durable. Without the licence an open completes with Feature not licensed, and a flush
or close of a sink that is not open with Invalid field at offset 24. (09_text.md, R310, R311, R312, R332, R333, R334, R337,
R767) -/
def Obligations.SinksOpenFlushClose : Prop :=
  (∀ (s : State) (q i : Nat) (c : Cmd), s.quiet → s.readyCmd q i 0x04 (some 0x44) = some c → s.features / 2 % 2 = 1 →
    c.short 1152 = false → c.short (1152 + 8 * sinkPcount c.data) = false → (∀ k, s.crew (sinkCrew c.data) = some k → k.state ≠ 0) →
    s.sinkBad c.data = none →
    let d := sinkDset c.data
    let w := if (s.dataset d).isSome = true then s
      else s.addDataset { dset := d, kind := 4, manifest := rolloutManifest d, mhash := [], gen := 0, place := [] }
    let top := match w.dataset d with | some x => (x.place.map fun p => p.1 + 1).foldl max 0 | none => 0
    let gram := match w.grammars.find? fun v => v.num == sinkGrammar c.data with | some v => v.image | none => []
    let k : Sink := { num := sinkNum c.data, image := c.data, shard := top, base := sinkSlba c.data, mode := w.num 0x7020 0, grammar := gram }
    exec (.rolloutSinkOpen q i) s = .next (({ w with
      sinks := w.sinks ++ [k], host := { w.host with watched := w.host.watched ++ [256 + sinkNum c.data] } } : State).complete c .ok) ∧
    k.index = [] ∧ k.pending = [] ∧ k.ringNext = 0 ∧ k.phase = true ∧ k.full = false ∧ k.written = 0 ∧ k.closing = false) ∧
  (∀ (s : State) (q i : Nat) (c : Cmd), s.quiet → s.readyCmd q i 0x04 (some 0x44) = some c → s.features / 2 % 2 = 0 →
    exec (.rolloutSinkOpen q i) s = .next (s.complete c .licence)) ∧
  (∀ (s : State) (q i : Nat) (c : Cmd) (k : Sink), s.readyCmd q i 0x04 (some 0x45) = some c → s.sink c.fval = some k →
    s.media.frozen = false → let w := if k.shard = c.first then s.seal c.fval else s
    exec (.rolloutSinkFlush q i) s = .next (((w.modCmd q i fun x => { x with wait := .sealing }).settleSeals).settle)) ∧
  (∀ (s : State) (q i : Nat) (c : Cmd) (k : Sink), s.readyCmd q i 0x04 (some 0x46) = some c → s.sink c.fval = some k →
    s.media.frozen = false → let n := c.fval
    let w := s.modCmd q i fun x => { x with wait := .sealing }
    let u := (w.openStreams n).foldl State.abortStream w
    let v := (u.streams.filter fun t => t.sink == n && !t.kept).foldl (State.filterStream true) u
    let x := (v.streams.filter fun t => t.sink == n && t.kept).foldl State.takeKept v
    exec (.rolloutSinkClose q i) s = .next (((x.seal n).modSink n fun k => { k with closing := true }).settleSeals).settle) ∧
  (∀ (s : State) (n d : Nat), (s.sinkGone n d).sink n = none ∧ 256 + n ∉ (s.sinkGone n d).host.watched) ∧
  (∀ (s : State) (q i : Nat) (c : Cmd), s.quiet → s.sink c.fval = none →
    (s.readyCmd q i 0x04 (some 0x45) = some c → exec (.rolloutSinkFlush q i) s = .next (s.complete c { status := 0x02, res0 := 24 })) ∧
    (s.readyCmd q i 0x04 (some 0x46) = some c → exec (.rolloutSinkClose q i) s = .next (s.complete c { status := 0x02, res0 := 24 })))

/-- Rollout messages, the filter, the record written back and the sink's interrupt. The oldest message of the stream whose turn
it is among those waiting leaves the ingress buffers: one that no case discards begins its stream when it is the first, goes
on with it when its SEQ follows, and aborts the stream when it does not; one that is discarded writes an event of kind 0x05
with its case. An ended stream is filtered: kept with a buffer for its record, or, where the filter or its verdict refuses it
or the sink is full, gone with an event. The first kept stream's record is written back in turn, and a sink with events not
signalled signals its vector and has none. (09_text.md, 10_ports.md, R313, R314, R315, R327, R328, R329, R335, R337, R339,
R392) -/
def Obligations.RolloutMessagesAndRecords : Prop :=
  let key (b : Bytes) : Nat := msgSink b * 4294967296 + msgStream b
  let voc (s : State) (k : Sink) : Bytes := match s.vocabs.find? fun v => v.num == sinkVocab k.image with | some v => v.image | none => []
  (∀ (s : State) (n t : Nat) (b : Bytes), s.ingress ≠ [] →
    t ∈ s.ingress.map (fun x => key x.2) →
    (∀ x ∈ s.ingress, (s.textTurn ≤ t → s.textTurn ≤ key x.2 → t ≤ key x.2) ∧
      (t < s.textTurn → key x.2 < s.textTurn ∧ t ≤ key x.2)) →
    (s.ingress.find? fun x => key x.2 == t) = some (n, b) →
    exec .rolloutMessage s = .next (((({ s with ingress := s.ingress.erase (n, b), textTurn := t + 1 } : State).takeMessage b).judgeIngress n).settle)) ∧
  (∀ (s : State) (b : Bytes),
    (∀ e, s.messageBad b = some e → s.takeMessage b =
      s.sinkEvent (msgSink b) { kind := 0x05, stream := msgStream b, prompt := msgPrompt b, endr := e }) ∧
    (∀ k, s.messageBad b = none → s.sink (msgSink b) = some k → s.stream k.num (msgStream b) = none →
      let t : Stream := { sink := k.num, num := msgStream b, prompt := msgPrompt b, seq := 0 }
      s.takeMessage b = { s with streams := s.streams ++ [t.message k (voc s k) b] }) ∧
    (∀ k t, s.messageBad b = none → s.sink (msgSink b) = some k → s.stream k.num (msgStream b) = some t →
      (msgSeq b = (t.seq + 1) % 4294967296 → s.takeMessage b = s.modStream k.num t.num fun t => t.message k (voc s k) b) ∧
      (msgSeq b ≠ (t.seq + 1) % 4294967296 → s.takeMessage b = s.abortStream t))) ∧
  (∀ (s : State) (x n : Nat) (t : Stream) (k : Sink), (s.streams.find? fun t => t.sink == x && t.num == n && t.ended.isSome && !t.kept) = some t →
    s.sink x = some k →
    let pass := sinkPcount k.image = 0 ∨ (runFilter t.filterEnv (filterCode (sinkProg k.image) 0 (sinkPcount k.image))).1 ≠ 0
    let keep := sinkKeep k.image / 2 ^ t.verdict % 2 = 1
    let gone : State := { s with streams := s.streams.erase t }
    (pass → keep → k.full = true → exec (.rolloutFilter x n) s = .next (gone.sinkEvent x (t.event 3 0 0)).settle) ∧
    (pass → keep → k.full = false →
      let a := s.alloc .rolloutRecord (recordRef x t.num) t.body.length [ownerId 5 x]
      exec (.rolloutFilter x n) s = .next (if a.1 = true then { a.2 with streams := s.streams.erase t ++ [{ t with kept := true }] } else s).settle) ∧
    (¬(pass ∧ keep) → ∃ why, (k.full = true → why = 3) ∧ (k.full = false → (pass → why = 2) ∧ (¬pass → why = 1)) ∧
      exec (.rolloutFilter x n) s = .next ((gone.modSink x fun k => { k with filtered := (k.filtered + 1) % 4294967296 }).sinkEvent x
        (t.event why 0 0)).settle)) ∧
  (∀ (s : State) (k n : Nat) (t : Stream), (s.streams.find? fun t => t.sink == k && t.kept) = some t → t.num = n →
    s.media.mounted = true → s.media.frozen = false →
    let w := s.freeRef fun b => b == recordRef k n
    exec (.rolloutRecordWritten k n) s = .next ((({ w with streams := w.streams.erase t } : State).writeBack k t).settle)) ∧
  (∀ (s : State) (n : Nat) (k : Sink), s.quiet → s.sink n = some k → (∀ x ∈ s.host.sinkSignals, x.1 ≠ n) →
    (k.unsignalled = true →
      exec (.sinkInterrupt n) s = .next ((s.modSink n fun k => { k with unsignalled := false }).signal (sinkMsix k.image))) ∧
    (k.unsignalled = false → exec (.sinkInterrupt n) s = .next s)) ∧
  (∀ (s : State) (n v : Nat), s.quiet → s.sink n = none → s.host.sinkSignals = [(n, v)] →
    exec (.sinkInterrupt n) s = .next (({ s with host := { s.host with sinkSignals := [] } } : State).signal v))

/-- Domain form, its probes, dissolution and registration. A ready domain form on the device selected as manager takes the
manager role with id 0, probes each Ryhero port that is up and waits; each depth that found devices, down to the third, has
every port of theirs probed, and then formation ends: the devices found are the members, routes go out and the command
completes. On another device it completes with Invalid field at offset 20. A dissolution with no domain job open sends every
worker its end and leaves the domain; one with such a job completes with Sequence error, reporting its crew. A registration
on a device that is no manager completes with Invalid field at offset 20, and one that passes every check of this device is
placed when the members that hold the other shards pass it. (16_crews.md, R608, R609, R610, R615, R616, R767) -/
def Obligations.DomainFormedAndDissolved : Prop :=
  (∀ (s : State) (q i : Nat) (c : Cmd), s.readyCmd q i 0x04 (some 0x23) = some c → s.domain.selected = true →
    exec (.domainForm q i) s = .next (((s.upPorts.foldl (fun s n => s.probe [n])
      (s.modDomain fun d => { d with role := 1, deviceId := 0, answers := [] })).modCmd q i fun x => { x with wait := .probes, done := 1 }).settle)) ∧
  (∀ (s : State) (q i : Nat) (c : Cmd), s.quiet → s.readyCmd q i 0x04 (some 0x23) = some c → s.domain.selected = false →
    exec (.domainForm q i) s = .next (s.complete c { status := 0x02, res0 := 20 })) ∧
  (∀ (s : State) (q i : Nat) (c : Cmd), s.cmd q i = some c → c.opc = 0x04 → c.fid = 0x23 → c.wait = .probes →
    let fresh := s.found.filter fun a => a.2.1.length == c.done
    let w := s.modDomain fun d => { d with members := admitFound (s.workers.map (·.serial)) s.uptime 1 s.found }
    let called (m : Member) : Nat := match w.domain.answers.find? fun a => a.1 == m.serial with | some a => a.2.2 / 256 | none => m.id
    (c.done < 4 → fresh ≠ [] → exec (.domainForm q i) s = .next ((fresh.foldl (fun s a =>
      (List.range 36).foldl (fun s n => s.probe (a.2.1 ++ [n])) s) s).modCmd q i fun x => { x with done := x.done + 1 }).settle) ∧
    (4 ≤ c.done ∨ fresh = [] → exec (.domainForm q i) s = .next (((w.distributeTo called).complete c .ok).settle))) ∧
  (∀ (s : State) (q i : Nat) (c : Cmd), s.readyCmd q i 0x04 (some 0x25) = some c → s.domain.role = 1 →
    let job (k : Crew) : Bool := k.job.isSome && k.domainJob.isSome
    (s.lowestCrew job = none → exec (.domainDissolve q i) s =
      .next ((((s.controlAll 0x01 0 (routeOperands 0xFFE [])).modDomain Domain.left).complete c .ok).settle)) ∧
    (∀ k, s.lowestCrew job = some k → exec (.domainDissolve q i) s = .next ((s.complete c (.sequence (some k))).settle))) ∧
  (∀ d : Domain, d.left.role = 0 ∧ d.left.members = [] ∧ d.left.routes = [] ∧ d.left.claims = [] ∧ d.left.placements = [] ∧
    d.left.selected = d.selected ∧ d.left.expulsions = d.expulsions) ∧
  (∀ (s : State) (q i : Nat) (c : Cmd), s.readyCmd q i 0x04 (some 0x24) = some c → s.domain.role = 1 → s.media.stateCode ≠ 5 →
    let used := fun n => s.numberTaken n && !s.domain.lostShards.any fun x => x.1 == n
    structureFail (s.domainData c.data) used ((s.catalogue.filter fun d => used d.dset).flatMap Dataset.extents ++ s.registering c) (2 ^ 64 - 1) = none →
    s.regStranger c.data = none → registerFail s.media (s.domainData c.data) isLocal = none →
    exec (.domainRegister q i) s = .next (match s.remoteFail c.data with
      | none => s.useFree.beginDomainRegister c
      | some f => s.useFree.registrationFailed c f).settle) ∧
  (∀ (s : State) (q i : Nat) (c : Cmd), s.quiet → s.readyCmd q i 0x04 (some 0x24) = some c → s.domain.role ≠ 1 →
    exec (.domainRegister q i) s = .next (s.complete c { status := 0x02, res0 := 20 }))

/-- Status reports, a worker's timeout and the end of a probation. A worker sends its report to the manager and its number moves
on modulo 2^32; another device sends none. The manager that takes a good report of a member whose number does not fall back
notes its number, time and port changes, reroutes when these changed, and suspects the member when its state is 2; one whose
number falls back has lost the member; another report, or one of a stranger, is only taken from the inbox. A worker that
sends nothing for its time is lost to the manager; the end of a worker's probation clears it and is sent to every worker.
(16_crews.md, R620, R622, R623, R626, R627) -/
def Obligations.ReportsAndWorkers : Prop :=
  (∀ s : State, s.domain.role = 2 → exec .statusReportSend s = .next (((s.sendPacket 0x04 3 0 none 0 s.report).modDomain fun d => { d with
      reportSeq := (d.reportSeq + 1) % 4294967296 }).settle)) ∧
  (∀ s : State, s.quiet → s.domain.role ≠ 2 → exec .statusReportSend s = .next s) ∧
  (∀ (s : State) (b : Bytes), (s.domain.inbox.find? fun p => pktType (p.drop 1) == 0x04) = some b →
    let w := s.modDomain fun d => { d with inbox := d.inbox.erase b }
    let body := pktBody (b.drop 1)
    let member := w.workers.find? fun m => m.id == pktSrc (b.drop 1)
    (member = none ∨ w.domain.role ≠ 1 ∨ reportOk body = false → exec .statusReportReceive s = .next w.settle) ∧
    (∀ m : Member, member = some m → w.domain.role = 1 → reportOk body = true →
      let note (x : Member) : Member := { x with seq := field body 4 4, seen := w.uptime, portChg := field body 28 4 }
      let t := w.modDomain fun d => { d with members := updWhere (fun x => x.id == m.id) note d.members }
      let u := if field body 28 4 = m.portChg then t else t.reroute
      (field body 4 4 < m.seq → exec .statusReportReceive s = .next ((w.loseWorker m.id).settle)) ∧
      (m.seq ≤ field body 4 4 → field body 1 1 ≠ 2 → exec .statusReportReceive s = .next u.settle) ∧
      (m.seq ≤ field body 4 4 → field body 1 1 = 2 → exec .statusReportReceive s = .next (u.suspect m.id).settle))) ∧
  (∀ (s : State) (n : Nat), s.domain.role = 1 → exec (.workerReportTimeout n) s = .next ((s.loseWorker n).settle)) ∧
  (∀ (s : State) (n : Nat) (m : Member), s.domain.role = 1 → m ∈ s.workers → m.id = n → m.probation = true →
    let w := s.modDomain fun d => { d with members := updWhere (fun m => m.id == n) (fun m => { m with probation := false }) d.members }
    exec (.workerProbationEnd n) s = .next ((w.controlAll 0x06 0 (leBytes 2 n ++ [0])).settle))

/-- Domain control packets and route probes. The oldest control packet of the inbox leaves it: operation 0x01 with an id below
0xFFE makes a device that is no manager a worker of that id with the routes given, and ends its membership otherwise; 0x02
announces or claims a job's ranks; 0x03 gives a worker's crews in that job the seed, the boundary when it is the job's, and
lets them deal; 0x04 aborts the job at a worker; 0x05 expels; 0x06 notes a member's probation; 0x07 orders a shard copied. A
route probe is answered with the device's serial and port; an answer is recorded while the manager forms its domain, else
dropped. (16_crews.md, R101, R370, R609, R610, R613, R621, R623, R624, R626, R627) -/
def Obligations.ControlAndProbePackets : Prop :=
  (∀ (s : State) (b : Bytes), (s.domain.inbox.find? fun p => pktType (p.drop 1) == 0x05) = some b →
    let w := s.modDomain fun d => { d with inbox := d.inbox.erase b }
    let body := pktBody (b.drop 1)
    let op := field body 0 1
    let job := field body 1 1
    let args := body.drop 8
    let id := field args 0 2 % 4096
    let does (t : State) : Prop := exec .domainControlReceive s = .next t.settle
    (op = 0x01 → w.domain.role ≠ 1 → id < 0xFFE → does (w.modDomain fun d => { d with role := 2, deviceId := id, routes := routesOf args })) ∧
    (op = 0x01 → w.domain.role ≠ 1 → 0xFFE ≤ id → does (w.modDomain Domain.left)) ∧
    (op = 0x02 → does (w.controlOpen (pktSrc (b.drop 1)) job args)) ∧
    (op = 0x03 → w.domain.role = 2 →
      let take (j : Job) : Job := if jobE0 j.block ≤ field args 16 4 ∧ field args 16 4 ≤ jobElast j.block then
        { j with seed := field args 0 16, dealing := true, boundary := max j.boundary (field args 16 4) } else j
      does { w with crews := w.crews.map fun k => if k.domainJob == some job then { k with job := k.job.map take } else k }) ∧
    (op = 0x04 → w.domain.role ≠ 1 → does (w.controlAbort job args)) ∧
    (op = 0x05 → w.domain.role ≠ 1 → field args 0 2 = w.domain.deviceId → does (w.modDomain Domain.left)) ∧
    (op = 0x05 → w.domain.role = 1 → (∃ m ∈ w.workers, m.id = field args 0 2) → does (w.expel (field args 0 2))) ∧
    (op = 0x06 → w.domain.role = 2 → does (w.modDomain fun d =>
      let rest := d.members.filter fun m => m.id != field args 0 2
      { d with members := if field args 2 1 = 1 then
          rest ++ [{ id := field args 0 2, serial := zeros 16, cause := 0, route := [], probation := true }] else rest })) ∧
    (op = 0x07 → w.domain.role = 2 → (w.datasetOf (field args 0 2)).isSome = true →
      does (w.sendShard (field args 0 2) (field args 2 3) (field args 6 2))) ∧
    (op = 0 ∨ 7 < op → does w)) ∧
  (∀ (s : State) (b : Bytes), (s.domain.inbox.find? fun p => pktType (p.drop 1) == 0x06) = some b →
    let w := s.modDomain fun d => { d with inbox := d.inbox.erase b }
    let p := b.drop 1
    let body := pktBody p
    let forms := w.domain.role = 1 ∧ ∃ c ∈ w.host.cmds, c.opc = 0x04 ∧ c.fid = 0x23 ∧ c.wait = .probes
    (field body 0 1 = 0 → ∃ l : List Nat, l.length = pktHops p - 1 ∧ exec .routeProbeReceive s = .next
      (((w.useFree (pktHops p - 1)).sendRoute 0x06 0 (pktSrc p) (field b 0 1 :: l) (pktTag p)
        ([0x01] ++ zeros 7 ++ fitTo 16 w.fuses.serial ++ [byteOf (field b 0 1)])).settle)) ∧
    (field body 0 1 = 1 → forms → exec .routeProbeReceive s = .next (w.modDomain fun d => { d with answers := d.answers ++
      [(slice body 8 16, tagRoute (pktTag p), field body 24 1 + 256 * pktSrc p)] }).settle) ∧
    (field body 0 1 = 1 → ¬forms → exec .routeProbeReceive s = .next w.settle))

/-- Samples prepared for another device, shard copies and the wait for a manager's opening. A prepare request for a sample of a
job that runs here, with a FREE context and a working buffer, starts that context for the device that asks; with none it
waits; one for no sample of the dataset is discarded. A part of a prepared sample whose context waits, below 16 forwarded
samples, is kept until the sample is whole, which then reaches the collector. A part of a shard that this device is to hold,
decoded where it is coded, is kept by its offset until the shard is whole, which is then written. A copy that counts as
programmed is registered here at its new place. A worker's open that has waited 60 s for a manager that has not opened
completes with the refusal of cause 4. (16_crews.md, 03_permutation.md, R41, R102, R228, R267, R612, R614, R616, R617, R618,
R619) -/
def Obligations.SamplesAndShardsOverTheDomain : Prop :=
  (∀ (s : State) (b : Bytes) (r : Run), (s.domain.inbox.find? fun p => pktType (p.drop 1) == 0x01) = some b →
    let w := s.modDomain fun d => { d with inbox := d.inbox.erase b }
    let body := pktBody (b.drop 1)
    let sid := field body 0 8
    w.jobRun (field body 13 1) = some r →
    (sidValid r.job.manifest sid = false → exec .prepareRequestReceive s = .next w.settle) ∧
    (sidValid r.job.manifest sid = true → w.pickContext r.crew.num [] = none → exec .prepareRequestReceive s = .next s.settle) ∧
    (∀ n, sidValid r.job.manifest sid = true → w.pickContext r.crew.num [] = some n →
      let x := w.drawWorking r.crew.num n
      let orig := r.job.sidAt (field body 8 4) (field body 16 8) 0
      let c : Context := { num := n, st := .waitFlash, crew := r.crew.num, rank := field body 14 2, epoch := field body 8 4, pos := field body 16 8
                           tries := if field body 12 1 = 0 ∧ sid = orig then 0 else field body 12 1 + 1, sid := sid, origSid := orig
                           remote := some (pktSrc (b.drop 1), pktTag (b.drop 1)) }
      exec .prepareRequestReceive s = .next (if x.1 = true then x.2.startCtx c else ({ s with mem := x.2.mem } : State)).settle)) ∧
  (∀ (s : State) (b : Bytes) (c : Context), (s.domain.inbox.find? fun p => pktType (p.drop 1) == 0x02) = some b →
    let w := s.modDomain fun d => { d with inbox := d.inbox.erase b }
    let p := b.drop 1
    let body := pktBody p
    (w.contexts.find? fun c => c.askedTag == some (pktTag p)) = some c →
    let keep := w.domain.partSamples.filter fun x => !(x.src == pktSrc p && x.tag == pktTag p)
    let old := match w.domain.partSamples.find? fun x => x.src == pktSrc p && x.tag == pktTag p with | some x => x.parts | none => []
    let parts := old ++ [(field body 0 4, body.drop 16)]
    (16 ≤ w.forwarded c.crew (pktSrc p) → exec .preparedSampleReceive s = .next s.settle) ∧
    (w.forwarded c.crew (pktSrc p) < 16 → exec .preparedSampleReceive s = .next (match joinParts (field body 4 4) parts with
      | none => w.modDomain fun d => { d with
          partSamples := keep ++ [({ src := pktSrc p, tag := pktTag p, total := field body 4 4, parts := parts } : PartSample)] }
      | some y => ({ w with domain := { w.domain with partSamples := keep } } : State).wholeSample (pktSrc p) (pktTag p) (pktCoded p) y).settle)) ∧
  (∀ (s : State) (b data : Bytes) (i : Nat) (d : Dataset), (s.domain.inbox.find? fun p => pktType (p.drop 1) == 0x03) = some b →
    let w := s.modDomain fun d => { d with inbox := d.inbox.erase b }
    let p := b.drop 1
    let body := pktBody p
    (if pktCoded p then uncodeBlocks 2 (body.drop 16) else some (body.drop 16)) = some data →
    field body 2 3 ≠ tableShard → w.datasetOf (field body 0 2) = some d →
    (d.place.findIdx? fun q => q.1 == field body 2 3) = some i → isLocal (d.place.getD i (0, 0)).2 = false →
    let u := w.modDomain fun x => x.addPart (field body 0 2) (field body 2 3) (pktSrc p) (field body 8 8) data
    exec .exchangeDataReceive s = .next (match joinParts (manSlen d.manifest i) (u.copyParts (field body 0 2) (field body 2 3)) with
      | none => u
      | some y => u.storeCopy (field body 0 2) (field body 2 3) y).settle) ∧
  (∀ (s : State) (d h a : Nat) (c : Copy), s.quiet → s.domain.role = 2 →
    (s.domain.copies.find? fun c => c.dset == d && c.shard == h && c.dst == s.domain.deviceId) = some c → c.slba = some a →
    (∀ q ∈ c.seqs, s.media.under q = false) →
    let put (x : Dataset) : Dataset := { x with place := x.place.map fun p => if p.1 = h then (p.1, a) else p }
    let l := updWhere (fun x => x.dset == d) put s.catalogue
    exec (.shardCopyDone d h) s = .next (({ s with catalogue := l } : State).dropCopy d h)) ∧
  (∀ (s : State) (n j : Nat) (c : Cmd) (k : Crew), s.quiet →
    (s.host.cmds.find? fun c => c.opc == 0x21 && c.wait == .manager && c.crew == n) = some c → s.crew n = some k → k.domainJob = some j →
    s.announced j = none → exec (.managerOpenTimeout n) s = .next (s.complete c (refusal 0 4)))

/-- A repeated fault joins its entry; at a full queue a new one replaces the newest entry. The collector takes a message with the
UNIT, SUB and KIND of an entry of its queue into the newest such entry: TOTAL grows by COUNT (saturated), LAST is the local
uptime in µs, SEV is the higher of the two, and MSG's other fields with the context words, every other entry and the count of
lost messages stay. A message that finds no such entry at a queue of 4,096 entries replaces the newest one, the 4,095 oldest
stay, and FaultsLost grows by the replaced entry's TOTAL. FAULT_MESSAGE puts its message into the queue this way, then scores
it and takes its reaction. (R635, R636) -/
def Obligations.RepeatedFaultsCoalesce : Prop :=
  (∀ (f : Faults) (m : FaultMsg) (us : Nat) (a b : List FaultEntry) (e : FaultEntry), f.queue = a ++ e :: b →
    (∀ x ∈ b, ¬(x.msg.unit = m.unit ∧ x.msg.sub = m.sub ∧ x.msg.kind = m.kind)) →
    e.msg.unit = m.unit → e.msg.sub = m.sub → e.msg.kind = m.kind →
    f.enqueue m us false = { f with queue := a ++ { e with msg := { e.msg with sev := max e.msg.sev m.sev }, last := us, total := min 0xFFFFFFFF (e.total + m.count) } :: b }) ∧
  (∀ (f : Faults) (m : FaultMsg) (us : Nat) (fresh : Bool) (a : List FaultEntry) (e : FaultEntry), f.queue = a ++ [e] → a.length = 4095 →
    (fresh = false → ∀ x ∈ f.queue, ¬(x.msg.unit = m.unit ∧ x.msg.sub = m.sub ∧ x.msg.kind = m.kind)) →
    f.enqueue m us fresh = { f with queue := a ++ [{ msg := m, first := us, last := us, total := m.count }], lost := (f.lost + e.total) % 4294967296 }) ∧
  (∀ (s : State) (f : FaultIn) (fresh : Bool), s.coxUp = true →
    let m := s.incoming f
    let q : State := { s with faults := s.faults.enqueue m s.us fresh }
    exec (.faultMessage f fresh) s =
      .next (s.reactedTo fun _ => (q.score m).react m (s.faults.score m.ref < 512 && 512 ≤ scoreAfter (s.faults.score m.ref) m.kind m.count)))

/-- A note adds its points; halving, windows and the interrupt of the collector. A message of severity 0 or 1 whose points do not
carry its unit across 512 enters the queue and adds its points to the unit's score, and nothing else changes. The end of a
sending window sends what it counted as one message with the severity programmed now. Halving halves every score, ends
probation of units then below 512 and saves both; fences of a crew outside both windows and crossings outside theirs are
forgotten, CommonCause with them when the crossings left are within the limit; entries not yet signalled are signalled at
FaultVector once. Outside these the state stays. That probation ends at a halving is the model's reading (log entry 88).
(17_faults.md, R633, R638, R649, R651, R652, R655, R656) -/
def Obligations.FaultsScoredAndTimed : Prop :=
  (∀ (s : State) (f : FaultIn) (b : Bool), s.quiet → s.coxUp = true → (s.incoming f).sev < 2 →
    let m := s.incoming f
    let n := scoreAfter (s.faults.score m.ref) m.kind m.count
    (n < 512 ∨ 512 ≤ s.faults.score m.ref) →
    exec (.faultMessage f b) s = .next { s with faults := (s.faults.enqueue m s.us b).setScore m.ref n } ∧
    (∀ k c, k ≠ 0x03 → scoreAfter (s.faults.score m.ref) k c = min 1023 (s.faults.score m.ref + c * kindPoints k)) ∧
    ((s.faults.enqueue m s.us b).setScore m.ref n).score m.ref = n) ∧
  (∀ (s : State) (unit sub kind phys : Nat) (w : FaultMsg), s.faults.windows = [w] → w.unit = unit → w.sub = sub → w.kind = kind → w.phys = phys →
    w.count ≠ 0 → let sent : FaultMsg := { w with sev := s.num (0x6100 + unitClass unit) kind }
    exec (.faultCoalesceFlush ⟨unit, phys⟩ sub kind) s =
      .next (s.reactedTo fun s => ({ s with faults := { s.faults with windows := [], transit := s.faults.transit ++ [sent] } } : State))) ∧
  (∀ (s : State), s.quiet → s.coxUp = true → ∃ (t : State) (l : List (UnitRef × Nat)) (p : List UnitRef), exec .scoreHalving s = .next t ∧
    t = { s with faults := { s.faults with scores := l, savedScores := l, probation := p, savedProbation := p, savedFences := s.faults.fences } } ∧
    (∀ u n, (u, n) ∈ l ↔ n ≠ 0 ∧ ∃ k, (u, k) ∈ s.faults.scores ∧ n = k / 2) ∧
    (∀ u, u ∈ p ↔ u ∈ s.faults.probation ∧ 512 ≤ t.faults.score u)) ∧
  (∀ (s : State) (c : Nat), s.quiet → ∃ l, exec (.fenceWindowExpiry c) s = .next { s with faults := { s.faults with fenceTimes := l } } ∧
    ∀ f, f ∈ l ↔ f ∈ s.faults.fenceTimes ∧ (f.1 = c → s.since f.2 < 3600000000 ∨ s.since f.2 < s.num 0x6011 0)) ∧
  (∀ (s : State), s.quiet → ∃ l, exec .commonCauseWindowExpiry s =
      .next { s with faults := { s.faults with crossings := l, commonCause := s.faults.commonCause && decide (s.num 0x6013 0 < l.length) } } ∧
    ∀ x, x ∈ l ↔ x ∈ s.faults.crossings ∧ s.since x < s.num 0x6014 0) ∧
  (∀ (s : State), s.quiet → (∃ e ∈ s.faults.queue, e.signalled = false) →
    let q := s.faults.queue.map fun e => { e with signalled := true }
    exec .faultInterrupt s = .next (({ s with faults := { s.faults with queue := q } } : State).signal (s.num 0x6004 0))) ∧
  (∀ (s : State), s.quiet → (∀ e ∈ s.faults.queue, e.signalled = true) → exec .faultInterrupt s = .next s)

/-- The first occurrence of a fault is sent at once, further ones within the window as one message. A block whose unit, SUB and
kind (and physical unit, log entry 128) have no window open sends its message at once with COUNT 1 and opens the window;
within an open window nothing is sent, and what the window holds becomes the latest occurrence with the number counted,
saturated at 65,535; the end of the window sends that as one message with its count, ADDR and context words and the severity
programmed then, or nothing when it counted none, and closes it. (R633) -/
def Obligations.FaultsSentOnceAMillisecond : Prop :=
  let same (u b k p : Nat) (m : FaultMsg) : Bool := m.unit == u && m.sub == b && m.kind == k && m.phys == p
  (∀ (s : State) (r : Raise), (∀ m ∈ s.faults.windows, same r.unit r.sub r.kind (r.phys.getD r.unit) m = false) →
    (s.raise r).faults.transit = s.faults.transit ++ [s.message r 1] ∧ (s.raise r).faults.windows = s.faults.windows ++ [s.message r 0]) ∧
  (∀ (s : State) (r : Raise) (w : FaultMsg), s.faults.windows.find? (same r.unit r.sub r.kind (r.phys.getD r.unit)) = some w →
    (s.raise r).faults.transit = s.faults.transit ∧ (s.raise r).faults.windows.length = s.faults.windows.length ∧
    (s.raise r).faults.windows.find? (same r.unit r.sub r.kind (r.phys.getD r.unit)) = some (s.message r (min 65535 (w.count + 1))) ∧
    ∀ m, same r.unit r.sub r.kind (r.phys.getD r.unit) m = false → (m ∈ (s.raise r).faults.windows ↔ m ∈ s.faults.windows)) ∧
  (∀ (s : State) (r : Raise) (n : Nat), let m := s.message r n
    same r.unit r.sub r.kind (r.phys.getD r.unit) m = true ∧ m.count = n ∧ m.addr = r.addr % 4294967296 ∧ m.ctx = r.ctx) ∧
  (∀ (s : State) (u b k p : Nat) (w : FaultMsg), s.faults.windows.find? (same u b k p) = some w →
    ∃ t : State, exec (.faultCoalesceFlush ⟨u, p⟩ b k) s = .next (s.reactedTo fun _ => t) ∧ (∀ m, m ∈ t.faults.windows ↔ m ∈ s.faults.windows ∧ same u b k p m = false) ∧
      t.faults.transit = s.faults.transit ++ (if w.count = 0 then [] else [{ w with sev := s.num (0x6100 + unitClass u) k }])) ∧
  ∀ (s : State) (u b k p : Nat), s.faults.windows.find? (same u b k p) = none → exec (.faultCoalesceFlush ⟨u, p⟩ b k) s = .next (s.reactedTo fun s => s)

/-- The commands of the buffer pool manager. A request is served by the preferred tier or the fallback one, which adds one buffer
with the next handle and its owner, or, of classes 4 to 6, waits where none serves it. A buffer is not freed by a requester
that is no owner, which raises kind 0x31; an owner that leaves goes off the list with its charge, the last one's buffer goes
back, and waiting requests are served. An owner joins a list that has owners, room and a quota that holds the buffer, else
nothing changes. A cache between 16 and 56 entries stays, one above 56 returns its first 32 to the ring's end, one below 16
gains 32 from a ring that holds them, and PoolFree stays. A tested buffer leaves quarantine for the ring, or is retired. An
exhausted pool for which a request waits raises kind 0x30 (ADDR: log entry 60), else nothing changes. (12_memory.md, R444,
R447, R448, R449, R451, R452, R454, R455, R462) -/
def Obligations.PoolsGiveAndTakeBuffers : Prop :=
  (∀ (s : State) (use : BufUse) (holder bytes : Nat), s.mem.pools ≠ [] → bytes ≠ 0 →
    let r := s.alloc use (requestRef s.mem.next) bytes [ownerId (useClass use) holder]
    let wait : BufWait := { use := use, holder := holder, bytes := bytes }
    exec (.bufferAllocate use holder bytes) s = .next (if r.1 then r.2.settle
      else if 4 ≤ useClass use then ({ r.2 with mem := { r.2.mem with waiting := r.2.mem.waiting ++ [wait] } } : State).settle else r.2.settle)) ∧
  (∀ (s t : State) (use : BufUse) (ref : BufRef) (bytes : Nat) (owners : List Nat), s.alloc use ref bytes owners = (true, t) →
    t.mem.next = s.mem.next + 1 ∧ t.mem.waiting = s.mem.waiting ∧ ∃ b : Buf, t.mem.bufs = s.mem.bufs ++ [b] ∧ b.id = s.mem.next ∧ b.ref = ref ∧
      b.use = use ∧ b.owners = owners ∧ b.payers = owners.map (s.payer use) ∧ b.suspect = [] ∧ b.bytes = chainBytes b.parts ∧
      (b.tier = usePreferred use ∨ useFallback use = some b.tier)) ∧
  (∀ (s : State) (o id : Nat) (b : Buf), (s.mem.bufs.find? fun b => b.id == id) = some b → o ∉ b.owners →
    exec (.bufferFree o id) s = .next ((s.raise { unit := 0x2C2, kind := 0x31, addr := o }).settle) ∧
    (s.raise { unit := 0x2C2, kind := 0x31, addr := o }).mem = s.mem) ∧
  (∀ (s : State) (o id : Nat) (b : Buf), (s.mem.bufs.find? fun b => b.id == id) = some b → o ∈ b.owners →
    let t := s.leave o b
    exec (.bufferFree o id) s = .next (({ t with
      residents := t.residents.filter fun r => t.mem.bufs.any fun b => b.ref == .resident r.dset r.shard } : State).serveWaiting).settle ∧
    (b.owners = [o] → t.mem.bufs = s.mem.bufs.filter (fun x => x.id != id)) ∧
    (∀ p l, b.owners = o :: p :: l → ∀ y ∈ t.mem.bufs, y.id = id → y.owners = p :: l)) ∧
  (∀ (s : State) (o id : Nat) (b : Buf), s.quiet → (s.mem.bufs.find? fun b => b.id == id) = some b →
    let joins := b.owners ≠ [] ∧ o ∉ b.owners ∧ b.owners.length < 64 ∧ s.affords (s.payer b.use o) b.tier b.bytes = true
    (joins → ∃ t : State, exec (.ownerAdd o id) s = .next t ∧
      (t.mem.bufs.find? fun b => b.id == id) = some { b with owners := b.owners ++ [o], payers := b.payers ++ [s.payer b.use o] } ∧
      (∀ j, j ≠ id → (t.mem.bufs.find? fun b => b.id == j) = s.mem.bufs.find? fun b => b.id == j) ∧
      t = { s with mem := { s.mem with bufs := t.mem.bufs } }) ∧
    (¬joins → exec (.ownerAdd o id) s = .next s)) ∧
  (∀ (s : State) (tier pool cls : Nat), s.quiet → cls < 7 →
    exec (.poolCacheRefill tier pool cls) s = .next { s with mem := s.mem.modPool tier pool fun p => p.tend cls }) ∧
  (∀ (p : Pool) (cls : Nat), p.caches.length = 7 → cls < 7 → p.kept.Nodup →
    let n := (p.caches.getD cls []).length
    (16 ≤ n → n ≤ 56 → p.tend cls = p) ∧
    (56 < n → (p.tend cls).caches.getD cls [] = (p.caches.getD cls []).drop 32 ∧
      (p.tend cls).back = p.back ++ (p.caches.getD cls []).take 32 ∧ (p.tend cls).free = p.free) ∧
    (n < 16 → 32 ≤ p.ring → ((p.tend cls).caches.getD cls []).length = n + 32 ∧ (p.tend cls).ring = p.ring - 32 ∧ (p.tend cls).free = p.free)) ∧
  (∀ (s : State) (cls tier pool : Nat),
    let waits := ∃ w ∈ s.poolWaits, w.1 = cls ∧ w.2.1 = tier ∧ fitPool w.2.2 = pool
    (waits → exec (.poolExhausted cls tier pool) s = .next ((s.raise { unit := 0x2C2, kind := 0x30, addr := pool + 256 * tier }).settle)) ∧
    (¬waits → s.quiet → exec (.poolExhausted cls tier pool) s = .next s)) ∧
  (∀ (s : State) (tier pool i : Nat), pool < 8 → i < 2 ^ 32 →
    let tested (f : Pool → Pool) (p : Pool) : Pool := if i ∈ p.quarantine then f { p with quarantine := p.quarantine.erase i } else p
    let back := s.mem.modPool tier pool (tested fun p => { p with back := p.back ++ [i] })
    let gone := s.mem.modPool tier pool (tested fun p => { p with gone := p.gone ++ [i] })
    exec (.quarantineTestDone (2 ^ 35 * tier + 2 ^ 32 * pool + i) true) s = .next (({ s with mem := back } : State).serveWaiting).settle ∧
    exec (.quarantineTestDone (2 ^ 35 * tier + 2 ^ 32 * pool + i) false) s = .next (({ s with mem := gone } : State).serveWaiting).settle)

/-- A READ of a byte string returns LEN bytes from OFFSET; a READ of another type the whole value. A READ taken up from a
requester whose role is known and may read the object is answered with Success and the object's type: for an OCTS object with
the LEN bytes of its value from OFFSET on, or as many as there are, and FULLLEN its full length; for any other type with its
whole value. PS1 ends, and nothing else changes beside the response. (R664) -/
def Obligations.DictionaryReads : Prop :=
  ∀ (s : State) (m : DictMsg) (role : Nat) (r : ObjRow), s.quiet → s.takesUp m → dmOp m = 1 → s.leavePs1.readRole m = .inr role →
    findObject m role false = .inr r →
    let v := s.leavePs1.dictValue (dmIdx m) (dmSub m) r
    (r.ty = .octs → ∃ b : Bytes, exec (.dictionaryRead m) s = .next (s.leavePs1.respond m { status := 0x00, ty := r.ty.code, value := b, full := v.length }) ∧
      b.length = min (dmLen m) (v.length - dmOff m) ∧ ∀ i, i < b.length → b[i]? = v[dmOff m + i]?) ∧
    (r.ty ≠ .octs → exec (.dictionaryRead m) s = .next (s.leavePs1.respond m { status := 0x00, ty := r.ty.code, value := v }))

/-- What the dictionary refuses, in the order of its checks. In a state between two commands: a request of another MAGIC changes
nothing, and one of another version or with a header out of range is answered Invalid field by the row that carries it. A
WRITE without a session of a known object of the type it names is answered Role not permitted, in a session that is not open
Signature invalid, and one whose SEQ does not exceed the session's last, or whose signature fails, Signature invalid; nothing
else changes but that PS1 ends. A signed WRITE of an object its role may not write gets that status, and one outside the
range Invalid field, or what its owning rule says, or Quota exceeded when the journal is full under AuditMode 1; then only
the session's SEQ counts. With SID 0 a READ of a known object outside the Identity range is answered Role not permitted, and
one of an unknown object below the Maker range Invalid field. (18_dictionary.md, R663, R665, R667, R671, R673, R677, R678,
R682, R684, R686) -/
def Obligations.RequestsRefused : Prop :=
  let refused (s : State) (m : DictMsg) (st : Nat) : State := s.respond m { status := st }
  (∀ (s : State) (m : DictMsg), s.quiet → dmMagic m ≠ 0xC4A5D33B → exec (.dictionaryWrite m) s = .next s ∧ exec (.dictionaryRead m) s = .next s) ∧
  (∀ (s : State) (m : DictMsg), s.quiet → s.hears m = true → 32 ≤ m.msg.length → dmMagic m = 0xC4A5D33B →
    (dmVer m ≠ 1 ∨ dmRangesOk m = false) →
    exec (.dictionaryWrite m) s = .next (refused s.leavePs1 m 0x02) ∧ exec (.dictionaryRead m) s = .next (refused s.leavePs1 m 0x02)) ∧
  (∀ (s : State) (m : DictMsg), s.quiet → s.takesUp m → dmOp m = 1 → dmSid m = 0 → ¬(0x1000 ≤ dmIdx m ∧ dmIdx m ≤ 0x10FF) →
    (∀ r, dictRow (dmIdx m) (dmSub m) = some r → (dmType m = r.ty.code ∨ dmType m = 0) →
      exec (.dictionaryRead m) s = .next (refused s.leavePs1 m 0x31)) ∧
    (dictRow (dmIdx m) (dmSub m) = none → dmIdx m < 0xF000 → exec (.dictionaryRead m) s = .next (refused s.leavePs1 m 0x02))) ∧
  (∀ (s : State) (m : DictMsg), s.quiet → s.takesUp m → dmOp m = 2 → ownRow (dmIdx m) (dmValue m) = false →
    (∀ r, dmSid m = 0 → s.claims m = false → dictRow (dmIdx m) (dmSub m) = some r → dmType m = r.ty.code →
      exec (.dictionaryWrite m) s = .next (refused s.leavePs1 m 0x31)) ∧
    (dmSid m ≠ 0 → s.openSession m = none → exec (.dictionaryWrite m) s = .next (refused s.leavePs1 m 0x32)) ∧
    (∀ x : Session, dmSid m ≠ 0 → s.openSession m = some x → ((x.wrote = true ∧ dmSeq m ≤ x.seq) ∨
        ecdsaVerify (s.roleKey x.role x.slot) (sha384 (dmSigned m)) (dmSig m) = false) →
      exec (.dictionaryWrite m) s = .next (refused s.leavePs1 m 0x32))) ∧
  (∀ (s : State) (m : DictMsg) (x : Session), s.quiet → s.signs m x → ownRow (dmIdx m) (dmValue m) = false →
    let u := s.leavePs1.modSession x.sid fun y => { y with seq := dmSeq m, wrote := true }
    (∀ st, findObject m x.role true = .inl st → exec (.dictionaryWrite m) s = .next (refused u m st)) ∧
    (∀ r, findObject m x.role true = .inr r → r.ty ≠ .octs →
      (s.writeInRange (askedBy m x) r = false → exec (.dictionaryWrite m) s = .next (u.respond m { status := 0x02, ty := r.ty.code })) ∧
      (s.writeInRange (askedBy m x) r = true → ∀ st k, u.plainFail (askedBy m x) = some (st, k) →
        exec (.dictionaryWrite m) s = .next (u.respond m { status := st, ty := r.ty.code, crew := k })) ∧
      (s.writeInRange (askedBy m x) r = true → u.plainFail (askedBy m x) = none → u.auditRefuses = true → dmIdx m ≠ 0x1282 → dmIdx m ≠ 0x1283 →
        exec (.dictionaryWrite m) s = .next (u.respond m { status := 0x04, ty := r.ty.code }))))

/-- Sessions: OPEN, PROVE, CLOSE, their timers and the claim of the device. In a state between two commands: an OPEN for a slot
that holds a key, from a transport with no lockout and room, offers a session with a free id and nonce; one for an empty slot
gets Invalid field, a fifth Quota exceeded, one under lockout Role not permitted. A PROVE with a good signature opens the
session with an audit entry of KIND 1; a bad one drops it, is audited (KIND 2) and counted, and the fifth within 60 s locks
the transport out. CLOSE and a timeout drop the session, a timeout with an entry of KIND 3. Held segments end after their
timeout, a lockout at its end. A WRITE of InstallerKey:01 with SID 0 over the mailbox while every InstallerKey is empty
stores the key with an entry whose ROLE is 0. Free id and nonce: log entry 96. (18_dictionary.md, R665, R673, R675, R676,
R678, R679, R680, R682) -/
def Obligations.SessionsOpenProveClose : Prop :=
  (∀ (s : State) (m : DictMsg), s.quiet → s.takesUp m → dmOp m = 3 → dmSid m = 0 →
    let role := field (dmValue m) 0 1
    let slot := field (dmValue m) 1 1
    (m.transport ∈ s.dict.lockouts → exec (.dictionaryOpen m) s = .next (s.leavePs1.respond m { status := 0x31 })) ∧
    (m.transport ∉ s.dict.lockouts → (dmValue m).length = 4 → slotOk role slot = true → s.roleKey role slot = [] →
      exec (.dictionaryOpen m) s = .next (s.leavePs1.respond m { status := 0x02 })) ∧
    (m.transport ∉ s.dict.lockouts → (dmValue m).length = 4 → slotOk role slot = true → s.roleKey role slot ≠ [] → 4 ≤ s.sessionsOn m.transport →
      exec (.dictionaryOpen m) s = .next (s.leavePs1.respond m { status := 0x04 })) ∧
    (m.transport ∉ s.dict.lockouts → (dmValue m).length = 4 → slotOk role slot = true → s.roleKey role slot ≠ [] → s.sessionsOn m.transport < 4 →
      ∃ (sid n : Nat) (nonce : Bytes), sid ≠ 0 ∧ nonce.length = 48 ∧
        let x : Session := { sid := sid, t := m.transport, addr := m.addr, role := role, slot := slot, nonce := nonce, isOpen := false }
        let t : State := { s.leavePs1 with free := n, dict := { s.dict with sessions := s.dict.sessions ++ [x] } }
        exec (.dictionaryOpen m) s = .next (t.respond m { status := 0x00, value := leBytes 4 sid ++ nonce }))) ∧
  (∀ (s : State) (m : DictMsg) (x : Session), s.quiet → s.takesUp m → dmOp m = 4 → s.sessionOf m = some x → x.isOpen = false → s.auditRefuses = false →
    let good := (dmValue m).length = 96 ∧ ecdsaVerify (s.roleKey x.role x.slot) (sha384 (s.proveText x)) (dmValue m) = true
    (good → ∃ e : Audit, e.kind = 1 ∧ e.role = x.role ∧ exec (.dictionaryProve m) s = .next
      (((s.leavePs1.audit e).modSession x.sid fun y => { y with isOpen := true }).respond m { status := 0x00, jseq := s.dict.jseq })) ∧
    (¬good → ∃ (e : Audit) (t : State), e.kind = 2 ∧ exec (.dictionaryProve m) s = .next (t.respond m { status := 0x32 }) ∧
      (∀ y ∈ t.dict.sessions, y.sid ≠ x.sid) ∧ t.dict.authFailures = (s.dict.authFailures + 1) % 4294967296 ∧
      t.dict.journal = (s.audit e).dict.journal ∧ (m.transport, s.uptime) ∈ t.dict.fails ∧
      (4 ≤ (s.dict.fails.filter fun f => f.1 == m.transport && s.since f.2 < 60000000).length → m.transport ∈ t.dict.lockouts))) ∧
  (∀ (s : State) (m : DictMsg) (x : Session), s.quiet → s.takesUp m → dmOp m = 5 → dmSid m ≠ 0 → s.openSession m = some x →
    exec (.dictionaryClose m) s = .next ((s.leavePs1.dropSession x.sid).respond m { status := 0x00 })) ∧
  (∀ (s : State) (x : Session), s.quiet → (s.dict.sessions.find? fun y => y.sid == x.sid && y.isOpen == x.isOpen) = some x →
    let gone := (s.audit (s.auditOf x 3 (transportCode x.t))).dropSession x.sid
    (x.isOpen = false → exec (.proveTimeout x.sid) s = .next gone) ∧ (x.isOpen = true → exec (.sessionTimeout x.sid) s = .next gone) ∧
    ∀ y ∈ gone.dict.sessions, y.sid ≠ x.sid) ∧
  (∀ (s : State) (n : Nat), s.quiet → exec (.octsSegmentTimeout n) s = .next (s.modSession n fun x => { x with octs := none })) ∧
  (∀ (s : State) (t : Transport), s.quiet → ∃ l, exec (.authLockoutExpiry t) s = .next { s with dict := { s.dict with lockouts := l } } ∧
    ∀ y, y ∈ l ↔ y ∈ s.dict.lockouts ∧ y ≠ t) ∧
  (∀ (s : State) (m : DictMsg), s.quiet → s.takesUp m → dmOp m = 2 → s.claims m = true → dmType m = ObjType.octs.code → dmOff m = 0 → dmLast m = true →
    (dmValue m).length = 97 → (dmValue m).headD 0 = 0x04 → s.auditRefuses = false →
    ∃ e : Audit, e.kind = 0 ∧ e.role = 0 ∧ e.idx = 0x1201 ∧ e.sub = 1 ∧ e.new = dmValue m ∧
      let t : State := { s.leavePs1 with dict := s.dict.put 0x1201 1 (.bytes (dmValue m)) }
      exec (.deviceClaim m) s = .next ((t.audit e).respond m { status := 0x00, ty := ObjType.octs.code, jseq := s.dict.jseq }))

/-- WRITEs of plain objects, key slots, defaults, calibration and licences. A WRITE that passes the checks of R667 in a state
between two commands takes effect, then is audited (KIND 6 for defaults, 5 for a licence installed, else 0) and answered with
Success. A plain object then reads the value and every other object as before. A key slot holds the key and sessions on it
close. Defaults, when every crew is EMPTY and no port mode was written, leave only the Roles, Audit and Calibration values;
with a crew not EMPTY they get Sequence error. The maker's unclaim empties all key slots and leaves maker sessions; another
role gets Role not permitted. A calibration object holds its value and CalOrigin says by whom. A licence takes the lowest
free slot and counts from the response on; a removed one leaves its slot. (18_dictionary.md, 19_startup.md, R661, R678, R680,
R681, R682, R688, R711, R713) -/
def Obligations.ObjectsKeysAndLicencesWritten : Prop :=
  let passes (s : State) (m : DictMsg) (x : Session) (r : ObjRow) : Prop := s.quiet ∧ s.writes m x r ∧ s.auditRefuses = false
  (∀ (s : State) (m : DictMsg) (x : Session) (r : ObjRow), passes s m x r → ownRow (dmIdx m) (dmValue m) = false → ¬(0x4140 ≤ dmIdx m ∧ dmIdx m ≤ 0x4163) →
    let u := s.accepted m x r
    u.plainFail (askedBy m x) = none →
    (r.ty = .octs → exec (.dictionaryWrite m) s =
      .next (({ u with dict := u.dict.put (dmIdx m) (dmSub m) (.bytes (dmValue m)) } : State).recorded m r (u.entryOf m x r 0))) ∧
    (r.ty ≠ .octs → let t : State := { u with dict := u.dict.put (dmIdx m) (dmSub m) (.num (leNat (dmValue m))) }
      exec (.dictionaryWrite m) s = .next (t.recorded m r (u.entryOf m x r 0)) ∧ t.num (dmIdx m) (dmSub m) = leNat (dmValue m) ∧
      ∀ i k, k < 256 → (i, k) ≠ (dmIdx m, dmSub m) → t.num i k = s.num i k ∧ t.octs i k = s.octs i k)) ∧
  (∀ (s : State) (m : DictMsg) (x : Session) (r : ObjRow), passes s m x r → (dmIdx m = 0x1200 ∨ dmIdx m = 0x1201) →
    let u := s.accepted m x r
    let role := if dmIdx m = 0x1200 then 1 else 2
    let t : State := { u with dict := u.dict.put (dmIdx m) (dmSub m) (.bytes (dmValue m)) }
    exec (.keySlotWrite m) s = .next ((t.recorded m r (u.entryOf m x r 0)).modSessions fun l => l.filter fun y => !(y.role == role && y.slot == dmSub m)) ∧
    t.roleKey role (dmSub m) = dmValue m) ∧
  (∀ (s : State) (m : DictMsg) (x : Session) (r : ObjRow), passes s m x r → dmIdx m = 0x1208 → dmValue m = [1] →
    let u := s.accepted m x r
    (∀ k, s.lowestCrew (fun c => c.state != 0) = some k →
      exec (.dictionaryDefaults m) s = .next (u.respond m { status := 0x03, ty := r.ty.code, crew := some k })) ∧
    ((∀ c ∈ s.crews, c.state = 0) → (∀ v ∈ s.dict.values, v.1.1 ≠ 0x4000) → ∃ (t : State) (p : List Port), t.dict = { u.dict with values := t.dict.values } ∧
      t = { u with ports := p, dict := t.dict } ∧
      (∀ v, v ∈ t.dict.values ↔ v ∈ s.dict.values ∧ ((0x1200 ≤ v.1.1 ∧ v.1.1 ≤ 0x12FF) ∨ (0x9000 ≤ v.1.1 ∧ v.1.1 ≤ 0x9FFF))) ∧
      exec (.dictionaryDefaults m) s = .next (t.recorded m r (u.entryOf m x r 6)))) ∧
  (∀ (s : State) (m : DictMsg) (x : Session) (r : ObjRow), passes s m x r → dmIdx m = 0x1208 → dmValue m = [2] →
    let u := s.accepted m x r
    let l := u.dict.values.filter fun v => v.1.1 != 0x1200 && v.1.1 != 0x1201
    let t : State := { u with dict := { u.dict with values := l } }
    (x.role = 3 → exec (.dictionaryUnclaim m) s = .next ((t.recorded m r (u.entryOf m x r 0)).modSessions fun l => l.filter fun y => y.role == 3)) ∧
    (x.role ≠ 3 → exec (.dictionaryUnclaim m) s = .next (u.respond m { status := 0x31, ty := r.ty.code }))) ∧
  (∀ (s : State) (m : DictMsg) (x : Session) (r : ObjRow), passes s m x r → 0x9000 ≤ dmIdx m → dmIdx m ≤ 0x9003 →
    let u := s.accepted m x r
    let v : ObjVal := if dmIdx m = 0x9000 ∨ dmIdx m = 0x9003 then .bytes (dmValue m) else .num (leNat (dmValue m))
    let by_ := s.dict.calOrigin.set (dmIdx m - 0x9000) (if x.role = 3 then 2 else 1)
    exec (.calibrationWrite m) s = .next
      (({ u with dict := { u.dict.put (dmIdx m) (dmSub m) v with calOrigin := by_ } } : State).recorded m r (u.entryOf m x r 0))) ∧
  (∀ (s : State) (m : DictMsg) (x : Session) (r : ObjRow) (i : Nat), passes s m x r → dmIdx m = 0x8020 →
    s.licenceCheck (askedBy m x) = none → s.startup.licences.findIdx? List.isEmpty = some i →
    let u := s.accepted m x r
    let l := s.startup.licences.set i (dmValue m)
    let t := ({ u with startup := { u.startup with licences := l } } : State).recorded m r (u.entryOf m x r 5)
    let valid := s.startup.licenceValid ||| 2 ^ i
    exec (.licenceInstall m) s = .next { t with startup := { t.startup with licenceValid := valid } }) ∧
  (∀ (s : State) (m : DictMsg) (x : Session) (r : ObjRow), passes s m x r → dmIdx m = 0x8022 →
    let u := s.accepted m x r
    (∀ i, s.licenceSlot (leNat (dmValue m)) = some i → ∃ (t : State) (v : Nat), (∀ j, v.testBit j = (s.startup.licenceValid.testBit j && j != i)) ∧
      t = { u with startup := { u.startup with licences := s.startup.licences.set i [], licenceValid := v } } ∧
      exec (.licenceRemove m) s = .next (t.recorded m r (u.entryOf m x r 0))) ∧
    (s.licenceSlot (leNat (dmValue m)) = none → exec (.licenceRemove m) s = .next (u.respond m { status := 0x02, ty := r.ty.code })))

/-- WRITEs of DeviceReset, MediaFormat, FaultAck, the port objects; SPDM and the addresses of MCTP and I3C. A WRITE that passes
the checks of R667: DeviceReset is answered, then the device reset with cause 3 follows; MediaFormat begins the format when
no crew or sink stands in its way, else Sequence error; FaultAck removes the n oldest entries, more than there are get
Invalid field; PortMode of a port that a running crew uses gets Sequence error, else the value is put and the port takes its
new mode; PortRetrain of a running port that lacks no licence trains it again with its count up by one, its recent retrains
forgotten and its unacknowledged flits kept; ShaperBurst clips the bucket. An SPDM request over the DOE mailbox or MCTP is
answered, GET_DIGESTS with the chain's SHA-384; FINISH establishes and END_SESSION ends a secured session. The endpoint id
and dynamic address are taken. Message codes: log entry 97. (17_faults.md, 18_dictionary.md, R343, R353, R398, R527, R637,
R672, R714, R715, R716) -/
def Obligations.DeviceObjectsWritten : Prop :=
  let passes (s : State) (m : DictMsg) (x : Session) (r : ObjRow) : Prop := s.quiet ∧ s.writes m x r ∧ s.auditRefuses = false
  (∀ (s : State) (m : DictMsg) (x : Session) (r : ObjRow), passes s m x r → dmIdx m = 0x8005 →
    let u := s.accepted m x r
    exec (.deviceResetWrite m) s = .next (((u.recorded m r (u.entryOf m x r 0)).deviceReset 3).tryStart.settle)) ∧
  (∀ (s : State) (m : DictMsg) (x : Session) (r : ObjRow), passes s m x r → dmIdx m = 0x5001 →
    let u := s.accepted m x r
    (s.formatCrews = [] → s.media.state ≤ 2 → s.media.heldState = none →
      exec (.mediaFormat m) s = .next (({ u with media := { u.media with formatting := true, state := 3 } } : State).recorded m r (u.entryOf m x r 0))) ∧
    (∀ k, k ∈ s.formatCrews → (∀ j ∈ s.formatCrews, k ≤ j) →
      exec (.mediaFormat m) s = .next (u.respond m { status := 0x03, ty := r.ty.code, crew := some k }))) ∧
  (∀ (s : State) (m : DictMsg) (x : Session) (r : ObjRow), passes s m x r → dmIdx m = 0x6001 →
    let u := s.accepted m x r
    let n := leNat (dmValue m)
    let left := s.faults.queue.drop n
    (n ≤ s.faults.queue.length → exec (.faultAck m) s = .next
      (({ u with dict := u.dict.put 0x6001 (dmSub m) (.num n), faults := { u.faults with queue := left } } : State).recorded m r (u.entryOf m x r 0))) ∧
    (s.faults.queue.length < n → exec (.faultAck m) s = .next (u.respond m { status := 0x02, ty := r.ty.code }))) ∧
  (∀ (s : State) (m : DictMsg) (x : Session) (r : ObjRow), passes s m x r → dmIdx m = 0x4000 →
    let u := s.accepted m x r
    let n := dmSub m - 1
    let t := ({ u with dict := u.dict.put 0x4000 (dmSub m) (.num (leNat (dmValue m))) } : State).remodePort n
    (leNat (dmValue m) ≠ 2 → (∀ c ∈ s.crews, 2 ≤ c.state → c.state ≤ 5 → s.usesPort c n = false) → s.started = false →
      exec (.portModeWrite m) s = .next ((t.recorded m r (u.entryOf m x r 0)).settle)) ∧
    (leNat (dmValue m) ≠ 2 → (∀ c ∈ s.crews, 2 ≤ c.state → c.state ≤ 5 → s.usesPort c n = false) → s.started = true →
      exec (.portModeWrite m) s = .next ((t.recheckTimed.reroute.recorded m r (u.entryOf m x r 0)).settle)) ∧
    (leNat (dmValue m) ≠ 2 → ∀ k, s.lowestCrew (fun c => within 2 5 c.state && s.usesPort c n) = some k →
      exec (.portModeWrite m) s = .next (u.respond m { status := 0x03, ty := r.ty.code, crew := some k }))) ∧
  (∀ (s : State) (m : DictMsg) (x : Session) (r : ObjRow) (p : Port), passes s m x r → dmIdx m = 0x4004 → s.port (dmSub m - 1) = some p →
    s.unlicensed (dmSub m - 1) = false → (p.state = 2 ∨ p.state = 3) →
    ∃ (t : State) (q : Port), exec (.portRetrain m) s = .next (t.recorded m r ((s.accepted m x r).entryOf m x r 0)) ∧ t.port (dmSub m - 1) = some q ∧
      q = { p with state := 1, retrains := (p.retrains + 1) % 4294967296, recent := [], resuming := true, protoErr := false, agreed := 0, shaken := false, link := p.link.retrained } ∧
      ∀ n, n ≠ dmSub m - 1 → t.port n = s.port n) ∧
  (∀ (s : State) (m : DictMsg) (x : Session) (r : ObjRow) (p : Port), passes s m x r → 0x4180 ≤ dmIdx m → dmIdx m ≤ 0x41A3 →
    s.port (dmIdx m - 0x4180) = some p →
    ∃ (t : State) (q : Port), exec (.shaperBurstWrite m) s = .next (t.recorded m r ((s.accepted m x r).entryOf m x r 0)) ∧
      t.num (dmIdx m) (dmSub m) = leNat (dmValue m) ∧ t.port (dmIdx m - 0x4180) = some q ∧ q.queues.length = p.queues.length ∧
      (∀ a, q.queues[dmSub m - 1]? = some a → a.bucket ≤ leNat (dmValue m) * 32768) ∧
      ∀ i, i ≠ dmSub m - 1 → q.queues[i]? = p.queues[i]?) ∧
  (∀ (s : State) (t : Transport), s.quiet → t ≠ .t1s → s.dictUp t = true →
    exec (.spdmRequest t .getDigests) s = .next (s.send (.spdm t 0x81 (sha384 Config.certificateChain) false)) ∧
    (∃ b : Bytes, b = Config.spdmBody 0xE5 s.fuses.serial ∧ ∃ l, t ∈ l ∧ (∀ y ∈ s.dict.spdm, y ∈ l) ∧
      exec (.spdmRequest t .finish) s = .next { s.send (.spdm t 0xE5 b false) with dict := { s.dict with spdm := l } }) ∧
    (∃ (b : Bytes) (l : List Transport), t ∉ l ∧ exec (.spdmRequest t .endSession) s = .next { s.send (.spdm t 0xEC b false) with dict := { s.dict with spdm := l } })) ∧
  (∀ (s : State), s.quiet → s.dictUp .mctp = true →
    (∀ e, exec (.setEndpointId e) s = .next { s with dict := { s.dict with mctpEid := e % 256 } }) ∧
    (∀ a, exec (.dynamicAddressAssignment a) s = .next { s with dict := { s.dict with i3cDynamic := some a } }))

/-- Requests for PS2, PS3 and PS0, the entry, PS1 and PadRelease. A WRITE of PowerRequest that passes the checks of R667 in a
state between two commands: for PS2 or PS3 from PS0 it is refused with Sequence error while a crew is OPEN or RUNNING, with a
sink open, a domain or an ingest, and with Invalid field when no wake source can fire; else it is put and answered, and entry
begins. While entry runs, one for PS0 is latched as wake event 5. When nothing is outstanding the rest of the entry to PS2
runs: the device ends in PS2 with the die rails off, or waking when a wake event was latched. The entry's timeout returns to
PS0 and counts. An idle device enters PS1 when PS1Enable is 1 and leaves it on the exit. PadRelease releases a hold taken at
entry in PS0 and is held during an entry. That entry's steps run at once: log entry 98. (20_power.md, R718, R719, R720, R721,
R722, R723, R725, R730, R733, R734) -/
def Obligations.PowerStatesEntered : Prop :=
  let passes (s : State) (m : DictMsg) (x : Session) (r : ObjRow) : Prop := s.quiet ∧ s.writes m x r ∧ s.auditRefuses = false
  let put (s : State) (m : DictMsg) (x : Session) (r : ObjRow) : State := { s.accepted m x r with dict := (s.accepted m x r).dict.put (dmIdx m) (dmSub m) (.num (leNat (dmValue m))) }
  (∀ (s : State) (m : DictMsg) (x : Session) (r : ObjRow), passes s m x r → dmIdx m = 0x3000 → (s.power.state = 0 ∨ s.power.state = 1) →
    let u := s.accepted m x r
    let t := (put s m x r).recorded m r (u.entryOf m x r 0)
    let row (n : Nat) : Host.Outcome State Fault Refusal := if n = 2 then exec (.powerRequestPs2 m) s else exec (.powerRequestPs3 m) s
    let free := s.sinks = [] ∧ s.domain.role = 0 ∧ s.host.ingests = []
    (∀ n, (n = 2 ∨ n = 3) → dmValue m = [byteOf n] →
      (∀ k, s.lowestCrew (fun c => c.state == 2 || c.state == 3) = some k → row n = .next (u.respond m { status := 0x03, ty := r.ty.code, crew := some k })) ∧
      ((∀ c ∈ s.crews, c.state ≠ 2 ∧ c.state ≠ 3) → ¬free → row n = .next (u.respond m { status := 0x03, ty := r.ty.code })) ∧
      ((∀ c ∈ s.crews, c.state ≠ 2 ∧ c.state ≠ 3) → free → s.wakes = false → row n = .next (u.respond m { status := 0x02, ty := r.ty.code })) ∧
      ((∀ c ∈ s.crews, c.state ≠ 2 ∧ c.state ≠ 3) → free → s.wakes = true →
        row n = .next { t with power := { u.power with state := 4, wakeCause := 0, entry := some { target := n, latched := 0 } } }))) ∧
  (∀ (s : State) (m : DictMsg) (x : Session) (r : ObjRow) (e : Entry), passes s m x r → dmIdx m = 0x3000 → dmValue m = [0] →
    s.power.state = 4 → s.power.entry = some e →
    let t := (put s m x r).recorded m r ((s.accepted m x r).entryOf m x r 0)
    exec (.powerRequestPs0 m) s = .next { t with power := { s.power with entry := some { e with latched := e.latched ||| 32 } } }) ∧
  (∀ (s : State) (e : Entry), s.started = true → s.power.state = 4 → s.power.entry = some e → e.target = 2 → (∀ c ∈ s.host.cmds, c.opc = 0x22 ∧ s.jstate c.crew = 4) →
    ∃ t : State, exec .powerEntryQuiesced s = .next t ∧ t.power.entry = none ∧ (e.latched = 0 → t.power.state = 2) ∧
      (e.latched ≠ 0 → t.power.state = 5 ∧ t.power.wakeStep = 1) ∧ t.pins.rails.pd = [false, false, false, false] ∧ t.pins.rails.ed = [false, false] ∧
      t.pins.padHold = some .entry) ∧
  (∀ (s : State), s.quiet → (∃ c ∈ s.host.cmds, ¬(c.opc = 0x22 ∧ s.jstate c.crew = 4)) → exec .powerEntryQuiesced s = .next s) ∧
  (∀ (s : State) (e : Entry), s.quiet → s.power.state = 4 → s.power.entry = some e →
    exec .powerEntryTimeout s = .next { s with power := { s.power with state := 0, entry := none, entryAborts := (s.power.entryAborts + 1) % 4294967296 } }) ∧
  (∀ (s : State), s.quiet → s.power.state = 0 →
    (s.started = true → s.num 0x3002 0 = 1 → (∀ c ∈ s.crews, c.state ≠ 2 ∧ c.state ≠ 3) → s.host.cmds = [] →
      exec .ps1Entry s = .next { s with power := { s.power with state := 1 } }) ∧
    ((s.num 0x3002 0 ≠ 1 ∨ s.host.cmds ≠ []) → exec .ps1Entry s = .next s) ∧ exec .ps1Exit s = .next s) ∧
  (∀ (s : State), s.quiet → s.power.state = 1 → exec .ps1Exit s = .next { s with power := { s.power with state := 0 } }) ∧
  (∀ (s : State) (m : DictMsg) (x : Session) (r : ObjRow), passes s m x r → dmIdx m = 0x300A →
    let u := s.accepted m x r
    let e := u.entryOf m x r 0
    (s.power.state = 0 → s.pins.padHold = some .entry → exec (.padRelease m) s = .next (u.releasePads.recorded m r e)) ∧
    (s.power.state = 0 → s.pins.padHold ≠ some .entry → exec (.padRelease m) s = .next (u.recorded m r e)) ∧
    (s.power.state = 4 → exec (.padRelease m) s = .next (({ u with power := { u.power with releasePending := true } } : State).recorded m r e)))

/-- Wake events, the steps of a wake from PS2, and throttling. In a state between two commands: a comparator whose source is on,
or the wake timer, wakes PS2 at step 1 with its bit as the cause and returns PS1 to PS0; a source that is off changes
nothing. The first wake step's ready signal turns the die rails on; the others go on one by one, step 4 reaches PS0, or a new
entry where one was asked for, with the time since the wake, and step 5 ends the wake once no port trains. A thermal step
with a sensor at its limit raises the step by one, at most to 12, and a first one raises kind 0x60; ten cool ones in a row
lower it. A power measurement above PowerLimit does so with kind 0x61, and a hundred below 95 % lower it. Other power values
stay. (20_power.md, R717, R718, R725, R727, R733, R735, R740, R741, R743) -/
def Obligations.WakeAndThrottleSteps : Prop :=
  (∀ (s : State) (n : Nat), s.quiet → n < 4 → s.sourceOn n = true →
    let p := s.power
    (p.state = 2 → exec (.wakeEvent n) s = .next { s with power := { p with state := 5, wakeStep := 1, wakeCause := p.wakeCause ||| 2 ^ n, wokeAt := s.uptime } }) ∧
    (p.state = 5 → exec (.wakeEvent n) s = .next { s with power := { p with wakeCause := p.wakeCause ||| 2 ^ n } }) ∧
    (p.state = 1 → exec (.wakeEvent n) s = .next { s with power := { p with state := 0 } }) ∧
    (p.state = 0 → exec (.wakeEvent n) s = .next s)) ∧
  (∀ (s : State) (n : Nat), s.quiet → s.sourceOn n = false → exec (.wakeEvent n) s = .next s) ∧
  (∀ (s : State), s.quiet → s.power.state = 2 → s.sourceOn 4 = true → s.num 0x3007 0 ≠ 0 →
    exec .wakeTimerExpiry s = .next { s with power := { s.power with state := 5, wakeStep := 1, wakeCause := s.power.wakeCause ||| 16, wokeAt := s.uptime } }) ∧
  (∀ (s : State) (n : Nat), s.quiet → (n = 0 ∨ s.power.wakeStep ≠ n) → exec (.wakeStepReady n) s = .next s) ∧
  (∀ (s : State), s.quiet → s.power.wakeStep = 1 →
    let on : Rails := { s.pins.rails with pd := [true, true, true, true], ed := [true, true] }
    exec (.wakeStepReady 1) s = .next { s with pins := { s.pins with rails := on }, power := { s.power with wakeStep := 2 } }) ∧
  (∀ (s : State) (n : Nat), s.quiet → (n = 2 ∨ n = 3) → s.power.wakeStep = n →
    exec (.wakeStepReady n) s = .next { s with power := { s.power with wakeStep := n + 1 } }) ∧
  (∀ (s : State), s.power.wakeStep = 4 → ∃ t : State, exec (.wakeStepReady 4) s = .next t ∧ t.power.wakeStep = 5 ∧
    t.power.state = (if s.power.entry.isSome then 4 else 0) ∧ t.power.lastWakeTime = s.since s.power.wokeAt ∧ t.power.releasePending = false ∧
    (s.power.releasePending = true → s.pins.padHold = some .entry → t.pins.padHold = none)) ∧
  (∀ (s : State), s.quiet → s.power.wakeStep = 5 →
    ((∀ p ∈ s.ports, p.state ≠ 1) → exec (.wakeStepReady 5) s = .next { s with power := { s.power with wakeStep := 0 } }) ∧
    ((∃ p ∈ s.ports, p.state = 1) → exec (.wakeStepReady 5) s = .next s)) ∧
  (∀ (s : State) (raw : List Int), s.coxUp = true →
    let t (n : Nat) : Int := (10 * raw.getD n 0 + sign16 (s.num 0x9001 (n + 1))) / 10
    let limit (n : Nat) : Int := sign16 (s.num 0x3800 (n + 1))
    ∃ u : State, exec (.thermalThrottleTick raw) s = .next u ∧ u.power.temps = (List.range 16).map t ∧ u.power.powerStep = s.power.powerStep ∧
      ((∃ n < 16, limit n ≤ t n) → u.power.thermalStep = min 12 (s.power.thermalStep + 1) ∧ u.power.coolMs = 0) ∧
      ((∀ n < 16, t n < limit n) → (∃ n < 16, limit n - 20 < t n) → u.power.thermalStep = s.power.thermalStep ∧ u.power.coolMs = 0) ∧
      ((∀ n < 16, t n ≤ limit n - 20) → s.power.coolMs < 9 → u.power.thermalStep = s.power.thermalStep ∧ u.power.coolMs = s.power.coolMs + 1) ∧
      ((∀ n < 16, t n ≤ limit n - 20) → 9 ≤ s.power.coolMs → u.power.thermalStep = s.power.thermalStep - 1 ∧ u.power.coolMs = 0)) ∧
  (∀ (s : State) (watts dv : Nat), s.coxUp = true →
    let limit := s.num 0x300C 0
    let p := s.power
    let v : State := { s with pins := { s.pins with inputVoltage := dv } }
    (limit < watts → p.throttle ≠ 0 → s.quiet → exec (.powerMeasurement watts dv) s =
      .next { v with power := { p with packagePower := watts, powerStep := min 12 (p.powerStep + 1), lowCount := 0 } }) ∧
    (limit < watts → p.throttle = 0 → let events := (p.throttleEvents + 1) % 4294967296
      let w : State := { v with power := { p with packagePower := watts, powerStep := min 12 (p.powerStep + 1), lowCount := 0, throttleEvents := events } }
      exec (.powerMeasurement watts dv) s = .next ((w.raise { unit := 0x2D0, kind := 0x61, addr := watts }).settle)) ∧
    (watts ≤ limit → limit * 95 ≤ watts * 100 → s.quiet →
      exec (.powerMeasurement watts dv) s = .next { v with power := { p with packagePower := watts, lowCount := 0 } }) ∧
    (watts * 100 < limit * 95 → s.quiet →
      (p.lowCount < 99 → exec (.powerMeasurement watts dv) s = .next { v with power := { p with packagePower := watts, lowCount := p.lowCount + 1 } }) ∧
      (99 ≤ p.lowCount → exec (.powerMeasurement watts dv) s =
        .next { v with power := { p with packagePower := watts, powerStep := p.powerStep - 1, lowCount := 0 } })))

/-- A step takes the command at the front of the queue. For every command and state, a step of the state with that command at the
front of its queue is the command's effect on the state with the queue's rest; a step with an empty queue changes nothing but
local uptime, which counts one period of the slow clock when the always-on domain runs and its clock does (log entry 2).
(INDEX.md, 14_commands.md) -/
def Obligations.FrontCommandRuns : Prop :=
  (∀ (s : State) (c : Instr) (rest : List Instr), step { s with pending := c :: rest } = exec c { s with pending := rest }) ∧
  (∀ (s : State), s.pending = [] →
    step s = .next (if s.pins.aon = true ∧ s.pins.slowclk = true then { s with uptime := (s.uptime + 1) % 18446744073709551616 } else s))

/-- The state after reset is sound. In the reset state the power state and the throttle steps have legal values, the write window
and the BAR bytes have their canonical form, no command waits, and no fault message is on its way. (19_startup.md, R557,
R580, R717, R740, R741) -/
def Obligations.ResetIsSound : Prop :=
  State.reset.sound ∧ State.reset.pending = [] ∧ State.reset.quiet

/-- Every step keeps the power state and throttle steps legal and the sparse stores canonical. From every state in which the
power state is a legal one, both throttle steps are at most 12 and the write window and the BAR bytes have their canonical
form, a step that answers a next state answers one of which the same holds. (14_commands.md, 15_cxl.md, 20_power.md, R557,
R580, R717, R740, R741) -/
def Obligations.StepKeepsSound : Prop :=
  ∀ (s t : State), s.sound → step s = .next t → t.sound

/-- Every command answers a next state and leaves the fuses and the waiting commands alone. In every state every command answers
a next state, never a fault or a refusal, in which the fuses and the queue of the commands that wait are as before; so a step
from a queue of n commands answers a next state whose queue is the rest. (14_commands.md, 19_startup.md, R698, R706) -/
def Obligations.EveryCommandCompletes : Prop :=
  (∀ (s : State) (c : Instr), ∃ t : State, exec c s = .next t ∧ t.fuses = s.fuses ∧ t.pending = s.pending) ∧
  (∀ (s : State), ∃ t : State, step s = .next t ∧ t.fuses = s.fuses ∧ t.pending = s.pending.tail)
end

