-- ==== Sys2Proof/Laws/Cells.lean ====
section
/-!
SUPPORT. Laws of the sparse byte stores: every write keeps the canonical form, a read after a write gives the byte
written, and a write leaves every other address alone.
-/
namespace Sys2Proof.Machine

variable {d : Nat → Byte} {l : List (Nat × Byte)} {a : Nat} {b : Byte}

theorem cellsWf_iff : cellsWf d l = true ↔ l.Pairwise (fun x y => x.1 < y.1) ∧ ∀ c ∈ l, c.2 ≠ d c.1 := by
  simp [cellsWf]

theorem cellsWf_nil : cellsWf d [] = true := by simp [cellsWf_iff]

/-- The entries below an address and those above it are in order with that address between them. -/
theorem pairwise_around (h : l.Pairwise fun x y => x.1 < y.1) :
    ((l.filter fun c => c.1 < a) ++ (l.filter fun c => a < c.1)).Pairwise (fun x y => x.1 < y.1) ∧
    ((l.filter fun c => c.1 < a) ++ (a, b) :: (l.filter fun c => a < c.1)).Pairwise (fun x y => x.1 < y.1) := by
  simp only [List.pairwise_append, List.pairwise_cons, List.mem_filter, List.mem_cons, decide_eq_true_eq]
  refine ⟨⟨h.filter _, h.filter _, fun x hx y hy => hx.2.trans hy.2⟩,
    h.filter _, ⟨fun y hy => hy.2, h.filter _⟩, fun x hx y hy => ?_⟩
  rcases hy with rfl | hy
  · exact hx.2
  · exact hx.2.trans hy.2

/-- Writing one byte keeps the canonical form. -/
theorem putCell_wf (h : cellsWf d l = true) : cellsWf d (putCell d l a b) = true := by
  rw [cellsWf_iff] at h ⊢
  obtain ⟨hp, hd⟩ := h
  unfold putCell
  have low : ∀ c ∈ l.filter (fun c => c.1 < a), c.2 ≠ d c.1 := fun c hc => hd c (List.mem_of_mem_filter hc)
  have high : ∀ c ∈ l.filter (fun c => a < c.1), c.2 ≠ d c.1 := fun c hc => hd c (List.mem_of_mem_filter hc)
  split
  · refine ⟨(pairwise_around (b := b) hp).1, fun c hc => ?_⟩
    exact (List.mem_append.1 hc).elim (low c) (high c)
  · rename_i hb
    refine ⟨(pairwise_around hp).2, fun c hc => ?_⟩
    rcases List.mem_append.1 hc with hc | hc
    · exact low c hc
    · rcases List.mem_cons.1 hc with rfl | hc
      · simpa using hb
      · exact high c hc

/-- Writing a run of bytes keeps the canonical form. -/
theorem putCells_wf : ∀ (bs : Bytes) {l : List (Nat × Byte)} {a : Nat}, cellsWf d l = true → cellsWf d (putCells d l a bs) = true
  | [], _, _, h => h
  | _ :: bs, _, _, h => putCells_wf bs (putCell_wf h)

/-- The entries found below an address: those of the whole list when the address looked for lies below it, else none. -/
theorem find_below (l : List (Nat × Byte)) (a x : Nat) :
    (l.filter fun c => c.1 < a).find? (fun c => c.1 == x) = if x < a then l.find? (fun c => c.1 == x) else none := by
  rw [List.find?_filter]
  split
  · congr 1; funext c; rw [Bool.eq_iff_iff]; simp; omega
  · simp; intros; omega

/-- The entries found above an address: those of the whole list when the address looked for lies above it, else none. -/
theorem find_above (l : List (Nat × Byte)) (a x : Nat) :
    (l.filter fun c => a < c.1).find? (fun c => c.1 == x) = if a < x then l.find? (fun c => c.1 == x) else none := by
  rw [List.find?_filter]
  split
  · congr 1; funext c; rw [Bool.eq_iff_iff]; simp; omega
  · simp; intros; omega

/-- A read at the address written gives the byte written. -/
theorem getCell_putCell_same (d : Nat → Byte) (l : List (Nat × Byte)) (a : Nat) (b : Byte) : getCell d (putCell d l a b) a = b := by
  simp only [getCell, putCell]
  by_cases hb : b == d a
  · simp only [hb, if_true, List.find?_append, find_below, find_above]
    simpa using (beq_iff_eq.1 hb).symm
  · simp only [hb, List.find?_append, find_below, lt_irrefl, if_false, Bool.false_eq_true]
    simp

/-- A write leaves every other address alone. -/
theorem getCell_putCell_other (d : Nat → Byte) (l : List (Nat × Byte)) (a x : Nat) (b : Byte) (hx : x ≠ a) :
    getCell d (putCell d l a b) x = getCell d l x := by
  have e : (putCell d l a b).find? (fun c => c.1 == x) = l.find? (fun c => c.1 == x) := by
    simp only [putCell]
    rcases Nat.lt_or_gt_of_ne hx with h | h
    · split <;> simp only [List.find?_append, List.find?_cons, find_below, find_above, h, Nat.lt_asymm h] <;> simp [beq_false_of_ne (Ne.symm hx)]
    · split <;> simp only [List.find?_append, List.find?_cons, find_below, find_above, h, Nat.lt_asymm h] <;> simp [beq_false_of_ne (Ne.symm hx)]
  simp only [getCell, e]

/-- A run of bytes written leaves every address outside it alone. -/
theorem getCell_putCells_other (d : Nat → Byte) : ∀ (bs : Bytes) (l : List (Nat × Byte)) (a x : Nat),
    x < a ∨ a + bs.length ≤ x → getCell d (putCells d l a bs) x = getCell d l x
  | [], _, _, _, _ => rfl
  | b :: bs, l, a, x, h => by
    rw [List.length_cons] at h
    rw [putCells, getCell_putCells_other d bs _ (a + 1) x (by omega), getCell_putCell_other d l a x b (by omega)]

end Sys2Proof.Machine
end

