-- ==== Sys2Proof/Laws/Kernel.lean ====
section
/-!
SUPPORT. The kernel of a state, part by part: what updates of a field, choices and folds do to it.
-/
namespace Sys2Proof.Machine

@[simp] theorem kernel_mk (pending : List Instr) (free uptime sent pins power startup fuses) (host : HostIf)
    (catalogue regLog concealLog timingLog topology vocabs grammars crews contexts residents sinks sinkTotals streams
      ingress textTurn ingressPaused mem media faults ports roce) (domain : Domain) (dict : Dict) :
    (State.mk pending free uptime sent pins power startup fuses host catalogue regLog concealLog timingLog topology vocabs
      grammars crews contexts residents sinks sinkTotals streams ingress textTurn ingressPaused mem media faults ports roce domain
      dict).kernel = ⟨fuses, pending, uptime, pins, power, host.window, host.barBytes⟩ := (rfl)

@[simp] theorem kernel_eta (t : State) :
    (⟨t.fuses, t.pending, t.uptime, t.pins, t.power, t.host.window, t.host.barBytes⟩ : Kernel) = t.kernel := (rfl)

@[simp] theorem ite_kernel (c : Prop) [Decidable c] (s t : State) :
    (if c then s else t).kernel = if c then s.kernel else t.kernel := by split <;> rfl

/-- A fold whose every step leaves the kernel alone leaves it alone. -/
theorem foldl_kernel {α : Type} {g : State → α → State} (hg : ∀ t a, (g t a).kernel = t.kernel) :
    ∀ (l : List α) (s : State), (l.foldl g s).kernel = s.kernel
  | [], _ => rfl
  | _ :: l, s => (foldl_kernel hg l _).trans (hg s _)

theorem foldl_kernel_const {α : Type} (g : State → α → State) (l : List α) (s : State)
    (hg : ∀ t a, (g t a).kernel = t.kernel) : (l.foldl g s).kernel = s.kernel := foldl_kernel hg l s

/-- The first state found by operations that leave the kernel alone has the same kernel. -/
theorem findSome_kernel {α : Type} {f : α → Option State} {s : State} (l : List α)
    (hf : ∀ a t, f a = some t → t.kernel = s.kernel) : ((l.findSome? f).getD s).kernel = s.kernel := by
  induction l with
  | nil => rfl
  | cons a l ih =>
    rw [List.findSome?_cons]
    cases h : f a with
    | none => simpa using ih
    | some t => simpa using hf a t h

/-! ### What is kept -/

theorem Kernel.keeps.refl (k : Kernel) : k.keeps k := ⟨rfl, rfl, id⟩

theorem Kernel.keeps.trans {k l m : Kernel} (h : k.keeps l) (h' : l.keeps m) : k.keeps m :=
  ⟨h'.1.trans h.1, h'.2.1.trans h.2.1, h'.2.2 ∘ h.2.2⟩

theorem Kernel.keeps.of_eq {k l : Kernel} (h : l = k) : k.keeps l := h ▸ Kernel.keeps.refl l

/-- A legal power record, with any uptime and supplies, keeps the kernel. -/
theorem keeps_power {k : Kernel} {s : State} {u : Nat} {q : Pins} {p : Power} (h : k.keeps s.kernel)
    (hp : s.power.legal → p.legal) : k.keeps ⟨s.fuses, s.pending, u, q, p, s.host.window, s.host.barBytes⟩ :=
  h.trans ⟨rfl, rfl, fun hs => ⟨hp hs.1, hs.2⟩⟩

/-- Local uptime and the supplies may change. -/
theorem keeps_core {k : Kernel} {s : State} {u : Nat} {q : Pins} (h : k.keeps s.kernel) :
    k.keeps ⟨s.fuses, s.pending, u, q, s.power, s.host.window, s.host.barBytes⟩ := keeps_power h id

/-- A fold whose every step keeps the kernel keeps it. -/
theorem foldl_keeps {α : Type} {k : Kernel} {g : State → α → State} (hg : ∀ t a, k.keeps t.kernel → k.keeps (g t a).kernel) :
    ∀ (l : List α) {s : State}, k.keeps s.kernel → k.keeps (l.foldl g s).kernel
  | [], _, h => h
  | _ :: l, _, h => foldl_keeps hg l (hg _ _ h)

end Sys2Proof.Machine
end

