-- ==== Sys2Proof/Laws/KernelOps.lean ====
section
/-!
SUPPORT. The operations of the machine that leave the kernel of the state alone: fuses, queue, lands, power record, window and BAR bytes.
-/
namespace Sys2Proof.Machine

set_option linter.all false

/-- The state of a pair that an equation names. -/
theorem pair_kernel {β : Type} {p : β × State} {b : β} {t : State} (h : p = (b, t)) : t.kernel = p.2.kernel := by rw [h]

/-! ### Objects -/

@[simp] theorem setNum_kernel (s : State) (idx : Nat) (sub : Nat) (n : Nat) :
    (State.setNum s idx sub n).kernel = s.kernel := by
  simp [State.setNum]

/-! ### Ops -/

@[simp] theorem send_kernel (s : State) (o : Output) :
    (State.send s o).kernel = s.kernel := by
  simp [State.send]

@[simp] theorem sendAll_kernel (s : State) (os : List Output) :
    (State.sendAll s os).kernel = s.kernel := by
  simp [State.sendAll]

@[simp] theorem useFree_kernel (s : State) (n : Nat) :
    (State.useFree s n).kernel = s.kernel := by
  simp [State.useFree]

@[simp] theorem modCrew_kernel (s : State) (n : Nat) (f : Crew → Crew) :
    (State.modCrew s n f).kernel = s.kernel := by
  simp [State.modCrew]

@[simp] theorem modJob_kernel (s : State) (n : Nat) (f : Job → Job) :
    (State.modJob s n f).kernel = s.kernel := by
  simp [State.modJob]

@[simp] theorem modCtx_kernel (s : State) (n : Nat) (f : Context → Context) :
    (State.modCtx s n f).kernel = s.kernel := by
  simp [State.modCtx]

@[simp] theorem dropCtx_kernel (s : State) (n : Nat) :
    (State.dropCtx s n).kernel = s.kernel := by
  simp [State.dropCtx]

@[simp] theorem modPort_kernel (s : State) (n : Nat) (f : Port → Port) :
    (State.modPort s n f).kernel = s.kernel := by
  simp [State.modPort]

@[simp] theorem raise_kernel (s : State) (r : Raise) :
    (State.raise s r).kernel = s.kernel := by
  unfold State.raise
  repeat' (first | rfl | assumption | (simp; done) | split | (refine foldl_kernel_const _ _ _ (fun _ _ => ?_)) | (refine (foldl_kernel_const _ _ _ (by intros; (repeat' split) <;> simp)).trans ?_) | (refine (foldl_kernel_const _ _ _ (fun _ _ => ?_)).trans ?_) | (refine (pair_kernel (by assumption)).trans ?_) | simp)

@[simp] theorem modQp_kernel (s : State) (q : Nat) (f : QueuePair → QueuePair) :
    (State.modQp s q f).kernel = s.kernel := by
  simp [State.modQp]

@[simp] theorem modCmd_kernel (s : State) (q : Nat) (i : Nat) (f : Cmd → Cmd) :
    (State.modCmd s q i f).kernel = s.kernel := by
  simp [State.modCmd]

@[simp] theorem hold_kernel (s : State) (q : Nat) (p : Posting) :
    (State.hold s q p).kernel = s.kernel := by
  simp [State.hold]

@[simp] theorem withdraw_kernel (s : State) (q : Nat) (i : Nat) :
    (State.withdraw s q i).kernel = s.kernel := by
  simp [State.withdraw]

@[simp] theorem complete_kernel (s : State) (c : Cmd) (r : Result) :
    (State.complete s c r).kernel = s.kernel := by
  simp [State.complete]

/-! ### PoolOps -/

theorem tryTier_of {s t : State} {tier ref use bytes owners} (h : s.tryTier tier ref use bytes owners = .granted t) :
    t.kernel = s.kernel := by
  revert h; unfold State.tryTier; dsimp only
  repeat' split
  all_goals (intro h; cases h)
  rfl

@[simp] theorem alloc_kernel (s : State) (use : BufUse) (ref : BufRef) (bytes : Nat) (owners : List Nat) :
    (State.alloc s use ref bytes owners).2.kernel = s.kernel := by
  unfold State.alloc; dsimp only
  repeat' split
  all_goals first | rfl | (exact tryTier_of (by assumption)) | (refine (tryTier_of (by assumption)).trans ?_; rfl)

@[simp] theorem leave_kernel (s : State) (owner : Nat) (b : Buf) :
    (State.leave s owner b).kernel = s.kernel := by
  simp [State.leave]

@[simp] theorem serveWaiting_kernel (s : State) :
    (State.serveWaiting s).kernel = s.kernel := by
  unfold State.serveWaiting
  repeat' (first | rfl | assumption | (simp; done) | split | (refine foldl_kernel_const _ _ _ (fun _ _ => ?_)) | (refine (foldl_kernel_const _ _ _ (by intros; (repeat' split) <;> simp)).trans ?_) | (refine (foldl_kernel_const _ _ _ (fun _ _ => ?_)).trans ?_) | (refine (pair_kernel (by assumption)).trans ?_) | simp)

@[simp] theorem freeRef_kernel (s : State) (p : BufRef → Bool) :
    (State.freeRef s p).kernel = s.kernel := by
  unfold State.freeRef
  repeat' (first | rfl | assumption | (simp; done) | split | (refine foldl_kernel_const _ _ _ (fun _ _ => ?_)) | (refine (foldl_kernel_const _ _ _ (by intros; (repeat' split) <;> simp)).trans ?_) | (refine (foldl_kernel_const _ _ _ (fun _ _ => ?_)).trans ?_) | (refine (pair_kernel (by assumption)).trans ?_) | simp)

@[simp] theorem undo_kernel (s : State) (c : Cmd) :
    (State.undo s c).kernel = s.kernel := by
  simp [State.undo]

@[simp] theorem endGrants_kernel (s : State) (q : Nat) (i : Nat) :
    (State.endGrants s q i).kernel = s.kernel := by
  unfold State.endGrants; (repeat' split) <;> simp

@[simp] theorem chargeIngress_kernel (s : State) (port : Nat) :
    (State.chargeIngress s port).kernel = s.kernel := by
  simp [State.chargeIngress]

@[simp] theorem releaseIngress_kernel (s : State) (port : Nat) :
    (State.releaseIngress s port).kernel = s.kernel := by
  simp [State.releaseIngress]

@[simp] theorem carve_kernel (s : State) (region : Nat) (keep : Bool) :
    (State.carve s region keep).kernel = s.kernel := by
  unfold State.carve
  repeat' (first | rfl | assumption | (simp; done) | split | (refine foldl_kernel_const _ _ _ (fun _ _ => ?_)) | (refine (foldl_kernel_const _ _ _ (by intros; (repeat' split) <;> simp)).trans ?_) | (refine (foldl_kernel_const _ _ _ (fun _ _ => ?_)).trans ?_) | (refine (pair_kernel (by assumption)).trans ?_) | simp)

@[simp] theorem suspectAt_kernel (s : State) (tier : Nat) (a : Nat) :
    (State.suspectAt s tier a).kernel = s.kernel := by
  simp [State.suspectAt]

@[simp] theorem drawVocab_kernel (s : State) (n : Nat) (bytes : Nat) :
    (State.drawVocab s n bytes).2.kernel = s.kernel := by
  simp [State.drawVocab]

@[simp] theorem drawGrammar_kernel (s : State) (n : Nat) (bytes : Nat) :
    (State.drawGrammar s n bytes).2.kernel = s.kernel := by
  simp [State.drawGrammar]

@[simp] theorem drawText_kernel (s : State) (ref : BufRef) (holder : Nat) (bytes : Nat) :
    (State.drawText s ref holder bytes).kernel = s.kernel := by
  unfold State.drawText
  repeat' (first | rfl | assumption | (simp; done) | split | (refine foldl_kernel_const _ _ _ (fun _ _ => ?_)) | (refine (foldl_kernel_const _ _ _ (by intros; (repeat' split) <;> simp)).trans ?_) | (refine (foldl_kernel_const _ _ _ (fun _ _ => ?_)).trans ?_) | (refine (pair_kernel (by assumption)).trans ?_) | simp)

@[simp] theorem drawTexts_kernel (s : State) :
    (State.drawTexts s).kernel = s.kernel := by
  unfold State.drawTexts
  repeat' (first | rfl | assumption | (simp; done) | split | (refine foldl_kernel_const _ _ _ (fun _ _ => ?_)) | (refine (foldl_kernel_const _ _ _ (by intros; (repeat' split) <;> simp)).trans ?_) | (refine (foldl_kernel_const _ _ _ (fun _ _ => ?_)).trans ?_) | (refine (pair_kernel (by assumption)).trans ?_) | simp)

/-! ### NetOps -/

@[simp] theorem queueFrame_kernel (s : State) (port : Nat) (q : Nat) (f : Frame) :
    (State.queueFrame s port q f).kernel = s.kernel := by
  simp [State.queueFrame]

@[simp] theorem sendOn_kernel (s : State) (port : Nat) (p : Bytes) (crew : Option Nat) (transit : Bool) :
    (State.sendOn s port p crew transit).kernel = s.kernel := by
  simp [State.sendOn]

@[simp] theorem sendPacket_kernel (s : State) (ptype : Nat) (vc : Nat) (dst : Nat) (crew : Option Nat) (tag : Nat) (body : Bytes) :
    (State.sendPacket s ptype vc dst crew tag body).kernel = s.kernel := by
  unfold State.sendPacket; (repeat' split) <;> simp

@[simp] theorem modDomain_kernel (s : State) (f : Domain → Domain) :
    (State.modDomain s f).kernel = s.kernel := by
  simp [State.modDomain]

@[simp] theorem control_kernel (s : State) (dst : Nat) (op : Nat) (job : Nat) (operands : Bytes) :
    (State.control s dst op job operands).kernel = s.kernel := by
  simp [State.control]

@[simp] theorem controlAll_kernel (s : State) (op : Nat) (job : Nat) (operands : Bytes) :
    (State.controlAll s op job operands).kernel = s.kernel := by
  unfold State.controlAll
  repeat' (first | rfl | assumption | (simp; done) | split | (refine foldl_kernel_const _ _ _ (fun _ _ => ?_)) | (refine (foldl_kernel_const _ _ _ (by intros; (repeat' split) <;> simp)).trans ?_) | (refine (foldl_kernel_const _ _ _ (fun _ _ => ?_)).trans ?_) | (refine (pair_kernel (by assumption)).trans ?_) | simp)

/-! ### SampleOps -/

@[simp] theorem raiseEngine_kernel (s : State) (c : Context) (kind : Nat) (addr : Nat) :
    (State.raiseEngine s c kind addr).kernel = s.kernel := by
  simp [State.raiseEngine]

@[simp] theorem raiseEight_kernel (s : State) (c : Context) (sub : Nat) (kind : Nat) (addr : Nat) :
    (State.raiseEight s c sub kind addr).kernel = s.kernel := by
  simp [State.raiseEight]

@[simp] theorem finding_kernel (s : State) (r : Run) (c : Context) (stage : Nat) (tag : Nat) (outcome : Nat) (d : Nat) (t : Nat) (first : Nat) (last : Nat) :
    (State.finding s r c stage tag outcome d t first last).kernel = s.kernel := by
  simp [State.finding]

/-! ### DealOps -/

@[simp] theorem moveBuffer_kernel (s : State) (a : Nat) (b : Nat) :
    (State.moveBuffer s a b).kernel = s.kernel := by
  simp [State.moveBuffer]

@[simp] theorem drawWorking_kernel (s : State) (crew : Nat) (n : Nat) :
    (State.drawWorking s crew n).2.kernel = s.kernel := by
  simp [State.drawWorking]

@[simp] theorem freeCtx_kernel (s : State) (c : Context) :
    (State.freeCtx s c).kernel = s.kernel := by
  simp [State.freeCtx]

@[simp] theorem startCtx_kernel (s : State) (c : Context) :
    (State.startCtx s c).kernel = s.kernel := by
  unfold State.startCtx
  repeat' (first | rfl | assumption | (simp; done) | split | (refine foldl_kernel_const _ _ _ (fun _ _ => ?_)) | (refine (foldl_kernel_const _ _ _ (by intros; (repeat' split) <;> simp)).trans ?_) | (refine (foldl_kernel_const _ _ _ (fun _ _ => ?_)).trans ?_) | (refine (pair_kernel (by assumption)).trans ?_) | simp)

@[simp] theorem exhausted_kernel (s : State) (r : Run) (c : Context) :
    (State.exhausted s r c).kernel = s.kernel := by
  simp [State.exhausted]

@[simp] theorem dealAttempt_kernel (r : Run) (fuel : Nat) (s : State) (c : Context) (n : Nat) :
    (State.dealAttempt r fuel s c n).kernel = s.kernel := by
  induction fuel generalizing n with
  | zero => simp [State.dealAttempt]
  | succ m ih =>
    unfold State.dealAttempt; dsimp only
    repeat' split
    all_goals simp [ih]

@[simp] theorem noteDrop_kernel (s : State) (c : Context) (z0 : Drop) :
    (State.noteDrop s c z0).kernel = s.kernel := by
  unfold State.noteDrop; (repeat' split) <;> simp

@[simp] theorem dropSample_kernel (s : State) (r : Run) (c : Context) (why : Drop) :
    (State.dropSample s r c why).kernel = s.kernel := by
  simp [State.dropSample]

@[simp] theorem dropPeers_kernel (s : State) (n : Nat) :
    (State.dropPeers s n).kernel = s.kernel := by
  unfold State.dropPeers
  repeat' (first | rfl | assumption | (simp; done) | split | (refine foldl_kernel_const _ _ _ (fun _ _ => ?_)) | (refine (foldl_kernel_const _ _ _ (by intros; (repeat' split) <;> simp)).trans ?_) | (refine (foldl_kernel_const _ _ _ (fun _ _ => ?_)).trans ?_) | (refine (pair_kernel (by assumption)).trans ?_) | simp)

@[simp] theorem remakeIn_kernel (s : State) (c : Context) (n : Nat) :
    (State.remakeIn s c n).kernel = s.kernel := by
  unfold State.remakeIn
  repeat' (first | rfl | assumption | (simp; done) | split | (refine foldl_kernel_const _ _ _ (fun _ _ => ?_)) | (refine (foldl_kernel_const _ _ _ (by intros; (repeat' split) <;> simp)).trans ?_) | (refine (foldl_kernel_const _ _ _ (fun _ _ => ?_)).trans ?_) | (refine (pair_kernel (by assumption)).trans ?_) | simp)

@[simp] theorem remakeLater_kernel (s : State) (c : Context) :
    (State.remakeLater s c).kernel = s.kernel := by
  simp [State.remakeLater]

@[simp] theorem remake_kernel (s : State) (c : Context) :
    (State.remake s c).kernel = s.kernel := by
  unfold State.remake; (repeat' split) <;> simp

@[simp] theorem remakeElsewhere_kernel (s : State) (c : Context) :
    (State.remakeElsewhere s c).kernel = s.kernel := by
  unfold State.remakeElsewhere
  repeat' (first | rfl | assumption | (simp; done) | split | (refine foldl_kernel_const _ _ _ (fun _ _ => ?_)) | (refine (foldl_kernel_const _ _ _ (by intros; (repeat' split) <;> simp)).trans ?_) | (refine (foldl_kernel_const _ _ _ (fun _ _ => ?_)).trans ?_) | (refine (pair_kernel (by assumption)).trans ?_) | simp)

@[simp] theorem exhaustRetries_kernel (s : State) (crew : Nat) (retries : Nat) (epoch : Nat) (sid : Nat) (pos : Nat) :
    (State.exhaustRetries s crew retries epoch sid pos).kernel = s.kernel := by
  simp [State.exhaustRetries]

@[simp] theorem failMaking_kernel (s : State) (c : Context) :
    (State.failMaking s c).kernel = s.kernel := by
  simp [State.failMaking]

@[simp] theorem tellBoundary_kernel (s : State) (crew : Nat) (epoch : Nat) :
    (State.tellBoundary s crew epoch).kernel = s.kernel := by
  unfold State.tellBoundary
  repeat' (first | rfl | assumption | (simp; done) | split | (refine foldl_kernel_const _ _ _ (fun _ _ => ?_)) | (refine (foldl_kernel_const _ _ _ (by intros; (repeat' split) <;> simp)).trans ?_) | (refine (foldl_kernel_const _ _ _ (fun _ _ => ?_)).trans ?_) | (refine (pair_kernel (by assumption)).trans ?_) | simp)

@[simp] theorem dealAgain_kernel (s : State) (r : Run) (c : Context) :
    (State.dealAgain s r c).kernel = s.kernel := by
  unfold State.dealAgain; (repeat' split) <;> simp

@[simp] theorem readyPlace_kernel (s : State) (r : Run) (k : RankJob) : (State.readyPlace s r k).2.kernel = s.kernel := by
  unfold State.readyPlace; dsimp only
  split
  all_goals
    split
    · rfl
    · split
      · rw [modJob_kernel]; exact (pair_kernel (by assumption)).trans (alloc_kernel ..)
      · exact alloc_kernel ..

@[simp] theorem dealRank_kernel (s : State) (r : Run) (k : RankJob) : (State.dealRank s r k).2.kernel = s.kernel := by
  unfold State.dealRank; dsimp only
  split
  · rfl
  · split
    · exact (pair_kernel (by assumption)).trans (readyPlace_kernel ..)
    · rename_i h1
      have e := (pair_kernel h1).trans (readyPlace_kernel ..)
      split
      · exact ((pair_kernel (by assumption)).trans (drawWorking_kernel ..)).trans e
      · rw [dealAttempt_kernel, modJob_kernel]
        exact ((pair_kernel (by assumption)).trans (drawWorking_kernel ..)).trans e

@[simp] theorem dealFirst_kernel (r : Run) : ∀ (l : List RankJob) (s : State), (State.dealFirst r l s).kernel = s.kernel
  | [], _ => rfl
  | k :: l, s => by
    unfold State.dealFirst
    split
    · rw [tellBoundary_kernel]; exact (pair_kernel (by assumption)).trans (dealRank_kernel ..)
    · rw [dealFirst_kernel r l]; exact (pair_kernel (by assumption)).trans (dealRank_kernel ..)

@[simp] theorem deal_kernel (s : State) (crew : Nat) :
    (State.deal s crew).kernel = s.kernel := by
  unfold State.deal; (repeat' split) <;> simp

/-! ### CollectorOps -/

@[simp] theorem logTiming_kernel (s : State) (e : Bytes) :
    (State.logTiming s e).kernel = s.kernel := by
  simp [State.logTiming]

@[simp] theorem countChoice_kernel (s : State) (crew : Nat) :
    (State.countChoice s crew).kernel = s.kernel := by
  simp [State.countChoice]

@[simp] theorem answerGrants_kernel (s : State) (crew : Nat) (rank : Nat) :
    (State.answerGrants s crew rank).kernel = s.kernel := by
  unfold State.answerGrants
  repeat' (first | rfl | assumption | (simp; done) | split | (refine foldl_kernel_const _ _ _ (fun _ _ => ?_)) | (refine (foldl_kernel_const _ _ _ (by intros; (repeat' split) <;> simp)).trans ?_) | (refine (foldl_kernel_const _ _ _ (fun _ _ => ?_)).trans ?_) | (refine (pair_kernel (by assumption)).trans ?_) | simp)

@[simp] theorem discardTail_kernel (s : State) (r : Run) (k : RankJob) :
    (State.discardTail s r k).kernel = s.kernel := by
  simp [State.discardTail]

@[simp] theorem checkDrained_kernel (s : State) (crew : Nat) :
    (State.checkDrained s crew).kernel = s.kernel := by
  unfold State.checkDrained
  repeat' (first | rfl | assumption | (simp; done) | split | (refine foldl_kernel_const _ _ _ (fun _ _ => ?_)) | (refine (foldl_kernel_const _ _ _ (by intros; (repeat' split) <;> simp)).trans ?_) | (refine (foldl_kernel_const _ _ _ (fun _ _ => ?_)).trans ?_) | (refine (pair_kernel (by assumption)).trans ?_) | simp)

@[simp] theorem closeBatch_kernel (s : State) (crew : Nat) (rank : Nat) (bk : Nat) :
    (State.closeBatch s crew rank bk).kernel = s.kernel := by
  unfold State.closeBatch; (repeat' split) <;> simp

@[simp] theorem writeOut_kernel (s : State) (r : Run) (rank : Nat) (epoch : Nat) (pos : Nat) (h : Hdr) (out : Contribution) :
    (State.writeOut s r rank epoch pos h out).kernel = s.kernel := by
  unfold State.writeOut; (repeat' split) <;> simp

@[simp] theorem crabDecision_kernel (s : State) (r : Run) (c : Context) (x : Source) :
    (State.crabDecision s r c x).kernel = s.kernel := by
  simp [State.crabDecision]

@[simp] theorem judgeCrab_kernel (s : State) (n : Nat) :
    (State.judgeCrab s n).kernel = s.kernel := by
  unfold State.judgeCrab; (repeat' split) <;> simp

@[simp] theorem judgeCrabs_kernel (s : State) (crew : Nat) :
    (State.judgeCrabs s crew).kernel = s.kernel := by
  unfold State.judgeCrabs
  repeat' (first | rfl | assumption | (simp; done) | split | (refine foldl_kernel_const _ _ _ (fun _ _ => ?_)) | (refine (foldl_kernel_const _ _ _ (by intros; (repeat' split) <;> simp)).trans ?_) | (refine (foldl_kernel_const _ _ _ (fun _ _ => ?_)).trans ?_) | (refine (pair_kernel (by assumption)).trans ?_) | simp)

@[simp] theorem startPeer_kernel (s : State) (c : Context) (apart : List Nat) :
    (State.startPeer s c apart).kernel = s.kernel := by
  unfold State.startPeer
  repeat' (first | rfl | assumption | (simp; done) | split | (refine foldl_kernel_const _ _ _ (fun _ _ => ?_)) | (refine (foldl_kernel_const _ _ _ (by intros; (repeat' split) <;> simp)).trans ?_) | (refine (foldl_kernel_const _ _ _ (fun _ _ => ?_)).trans ?_) | (refine (pair_kernel (by assumption)).trans ?_) | simp)

@[simp] theorem mismatch_kernel (s : State) (c : Context) :
    (State.mismatch s c).kernel = s.kernel := by
  unfold State.mismatch
  repeat' (first | rfl | assumption | (simp; done) | split | (refine foldl_kernel_const _ _ _ (fun _ _ => ?_)) | (refine (foldl_kernel_const _ _ _ (by intros; (repeat' split) <;> simp)).trans ?_) | (refine (foldl_kernel_const _ _ _ (fun _ _ => ?_)).trans ?_) | (refine (pair_kernel (by assumption)).trans ?_) | simp)

@[simp] theorem rewriteOut_kernel (s : State) (r : Run) (c : Context) (h : Hdr) (out : Contribution) (z0 : RewriteAt) :
    (State.rewriteOut s r c h out z0).kernel = s.kernel := by
  unfold State.rewriteOut; (repeat' split) <;> simp

@[simp] theorem accept_kernel (s : State) (r : Run) (c : Context) (probation : Bool) :
    (State.accept s r c probation).kernel = s.kernel := by
  unfold State.accept; (repeat' split) <;> simp

@[simp] theorem acceptedAfar_kernel (s : State) (crew : Nat) :
    (State.acceptedAfar s crew).kernel = s.kernel := by
  unfold State.acceptedAfar; (repeat' split) <;> simp

@[simp] theorem collect_kernel (s : State) (crew : Nat) :
    (State.collect s crew).kernel = s.kernel := by
  unfold State.collect
  repeat' (first | rfl | assumption | (simp; done) | split | (refine foldl_kernel_const _ _ _ (fun _ _ => ?_)) | (refine (foldl_kernel_const _ _ _ (by intros; (repeat' split) <;> simp)).trans ?_) | (refine (foldl_kernel_const _ _ _ (fun _ _ => ?_)).trans ?_) | (refine (pair_kernel (by assumption)).trans ?_) | simp)

@[simp] theorem packBuffer_kernel (s : State) (r : Run) (rank bk : Nat) : (State.packBuffer s r rank bk).2.kernel = s.kernel := by
  unfold State.packBuffer; dsimp only
  split
  · rfl
  · split
    · rw [modJob_kernel]; exact (pair_kernel (by assumption)).trans (alloc_kernel ..)
    · rename_i h
      have e := (pair_kernel h).trans (alloc_kernel ..)
      split
      · exact e
      · rw [modJob_kernel]; exact e

@[simp] theorem packBuffers_kernel (crew rank : Nat) : ∀ (n bk : Nat) (s : State),
    (State.packBuffers crew rank n bk s).2.kernel = s.kernel
  | 0, _, _ => rfl
  | n + 1, bk, s => by
    unfold State.packBuffers
    split
    · rfl
    · split
      · rw [packBuffers_kernel]; exact (pair_kernel (by assumption)).trans (packBuffer_kernel ..)
      · exact packBuffer_kernel ..

@[simp] theorem writeSeqRow_kernel (s : State) (r : Run) (h : Heat) (n : Nat) (row : PackRow) :
    (State.writeSeqRow s r h n row).kernel = s.kernel := by
  simp [State.writeSeqRow]

@[simp] theorem logChoices_kernel (s : State) (r : Run) (h : Heat) (base : Nat) (skip : Nat) (rows : List PackRow) :
    (State.logChoices s r h base skip rows).kernel = s.kernel := by
  unfold State.logChoices
  repeat' (first | rfl | assumption | (simp; done) | split | (refine foldl_kernel_const _ _ _ (fun _ _ => ?_)) | (refine (foldl_kernel_const _ _ _ (by intros; (repeat' split) <;> simp)).trans ?_) | (refine (foldl_kernel_const _ _ _ (fun _ _ => ?_)).trans ?_) | (refine (pair_kernel (by assumption)).trans ?_) | simp)

@[simp] theorem beginPack_kernel (s : State) (r : Run) (h : Heat) (base : Nat) (skip : Nat) (kept : Nat) (rows : List PackRow) :
    (State.beginPack s r h base skip kept rows).kernel = s.kernel := by
  simp [State.beginPack]

@[simp] theorem endPack_kernel (s : State) (r : Run) (h : Heat) :
    (State.endPack s r h).kernel = s.kernel := by
  simp [State.endPack]

@[simp] theorem packHeat_kernel (s : State) (crew : Nat) (rank : Nat) (epoch : Nat) (heat : Nat) :
    (State.packHeat s crew rank epoch heat).kernel = s.kernel := by
  unfold State.packHeat
  repeat' (first | rfl | assumption | (simp; done) | split | (refine foldl_kernel_const _ _ _ (fun _ _ => ?_)) | (refine (foldl_kernel_const _ _ _ (by intros; (repeat' split) <;> simp)).trans ?_) | (refine (foldl_kernel_const _ _ _ (fun _ _ => ?_)).trans ?_) | (refine (pair_kernel (by assumption)).trans ?_) | simp)

@[simp] theorem deadlineSlot_kernel (r : Run) (rank : Nat) (bk : Nat) (s : State) (slot : Nat) :
    (State.deadlineSlot r rank bk s slot).kernel = s.kernel := by
  unfold State.deadlineSlot
  repeat' (first | rfl | assumption | (simp; done) | split | (refine foldl_kernel_const _ _ _ (fun _ _ => ?_)) | (refine (foldl_kernel_const _ _ _ (by intros; (repeat' split) <;> simp)).trans ?_) | (refine (foldl_kernel_const _ _ _ (fun _ _ => ?_)).trans ?_) | (refine (pair_kernel (by assumption)).trans ?_) | simp)

@[simp] theorem miss_kernel (s : State) (r : Run) (rank : Nat) (bk : Nat) :
    (State.miss s r rank bk).kernel = s.kernel := by
  simp [State.miss]

@[simp] theorem deadline_kernel (s : State) (crew : Nat) (rank : Nat) (bk : Nat) :
    (State.deadline s crew rank bk).kernel = s.kernel := by
  unfold State.deadline; dsimp only
  repeat' (first | rfl | assumption | (simp; done) | split | (refine foldl_kernel_const _ _ _ (fun _ _ => ?_)) | (refine (foldl_kernel_const _ _ _ (by intros; (repeat' split) <;> simp)).trans ?_) | (refine (foldl_kernel_const _ _ _ (fun _ _ => ?_)).trans ?_) | (refine (pair_kernel (by assumption)).trans ?_) | simp)

@[simp] theorem delivered_kernel (s : State) (crew : Nat) (rank : Nat) (bk : Nat) :
    (State.delivered s crew rank bk).kernel = s.kernel := by
  unfold State.delivered; (repeat' split) <;> simp

/-! ### LoadOps -/

@[simp] theorem joinShard_kernel (s : State) (crew : Nat) (w : Nat × Nat × Bool) :
    (State.joinShard s crew w).2.kernel = s.kernel := by
  unfold State.joinShard
  repeat' (first | rfl | assumption | (simp; done) | split | (refine foldl_kernel_const _ _ _ (fun _ _ => ?_)) | (refine (foldl_kernel_const _ _ _ (by intros; (repeat' split) <;> simp)).trans ?_) | (refine (foldl_kernel_const _ _ _ (fun _ _ => ?_)).trans ?_) | (refine (pair_kernel (by assumption)).trans ?_) | simp)

@[simp] theorem afterFail_kernel (s : State) (t : State) :
    (State.afterFail s t).kernel = s.kernel := by
  simp [State.afterFail]

@[simp] theorem takeTables_kernel (crew : Nat) : ∀ (l : List (Nat × Nat)) (s : State), (State.takeTables s crew l).2.kernel = s.kernel
  | [], _ => rfl
  | _ :: l, s => by
    unfold State.takeTables
    split
    · exact takeTables_kernel crew l s
    · split
      · rw [takeTables_kernel]; exact (pair_kernel (by assumption)).trans (alloc_kernel ..)
      · exact alloc_kernel ..

@[simp] theorem freeTables_kernel (s : State) (crew : Nat) :
    (State.freeTables s crew).kernel = s.kernel := by
  simp [State.freeTables]

@[simp] theorem joinResident_kernel (s : State) (crew : Nat) (shards : List (Nat × Nat × Bool)) :
    (State.joinResident s crew shards).kernel = s.kernel := by
  have all : ∀ (l : List (Nat × Nat × Bool)) (t : Bool × State),
      (l.foldl (fun (t : Bool × State) w => if t.1 then t.2.joinShard crew w else t) t).2.kernel = t.2.kernel := by
    intro l
    induction l with
    | nil => intro t; rfl
    | cons w l ih => intro t; rw [List.foldl_cons, ih]; split <;> simp
  unfold State.joinResident
  split
  · rename_i h; exact (pair_kernel h).trans (all _ _)
  · simp

@[simp] theorem leaveResidents_kernel (s : State) (crew : Nat) :
    (State.leaveResidents s crew).kernel = s.kernel := by
  unfold State.leaveResidents
  repeat' (first | rfl | assumption | (simp; done) | split | (refine foldl_kernel_const _ _ _ (fun _ _ => ?_)) | (refine (foldl_kernel_const _ _ _ (by intros; (repeat' split) <;> simp)).trans ?_) | (refine (foldl_kernel_const _ _ _ (fun _ _ => ?_)).trans ?_) | (refine (pair_kernel (by assumption)).trans ?_) | simp)

@[simp] theorem setLoaded_kernel (s : State) (crew : Nat) (rc : Recipe) :
    (State.setLoaded s crew rc).kernel = s.kernel := by
  unfold State.setLoaded; dsimp only; (repeat' split) <;> simp (disch := intros; (repeat' split) <;> simp [*]) [foldl_kernel_const]

/-! ### SinkOps -/

@[simp] theorem enterReadonly_kernel (s : State) :
    (State.enterReadonly s).kernel = s.kernel := by
  simp [State.enterReadonly]

@[simp] theorem compressFault_kernel (s : State) (crew : Nat) (block : Nat) :
    (State.compressFault s crew block).kernel = s.kernel := by
  simp [State.compressFault]

@[simp] theorem modSink_kernel (s : State) (n : Nat) (f : Sink → Sink) :
    (State.modSink s n f).kernel = s.kernel := by
  simp [State.modSink]

@[simp] theorem sinkEvent_kernel (s : State) (n : Nat) (e : SinkEvent) :
    (State.sinkEvent s n e).kernel = s.kernel := by
  unfold State.sinkEvent; (repeat' split) <;> simp

@[simp] theorem storePiece_kernel (s : State) (n : Nat) (k : Sink) (orig : Bytes) (z : Bytes × Bool) :
    (State.storePiece s n k orig z).kernel = s.kernel := by
  unfold State.storePiece
  repeat' (first | rfl | assumption | (simp; done) | split | (refine foldl_kernel_const _ _ _ (fun _ _ => ?_)) | (refine (foldl_kernel_const _ _ _ (by intros; (repeat' split) <;> simp)).trans ?_) | (refine (foldl_kernel_const _ _ _ (fun _ _ => ?_)).trans ?_) | (refine (pair_kernel (by assumption)).trans ?_) | simp)

@[simp] theorem storeBlock_kernel (s : State) (n : Nat) :
    (State.storeBlock s n).kernel = s.kernel := by
  unfold State.storeBlock; (repeat' split) <;> simp

@[simp] theorem storeAll_kernel : ∀ (n : Nat) (s : State) (k : Nat), (State.storeAll n s k).kernel = s.kernel
  | 0, _, _ => rfl
  | n + 1, s, k => by
    unfold State.storeAll; dsimp only
    repeat' split
    all_goals simp [storeAll_kernel n]

@[simp] theorem modDataset_kernel (s : State) (n : Nat) (f : Dataset → Dataset) :
    (State.modDataset s n f).kernel = s.kernel := by
  simp [State.modDataset]

@[simp] theorem freeBlocks_kernel (s : State) (slba : Nat) (nlb : Nat) :
    (State.freeBlocks s slba nlb).kernel = s.kernel := by
  unfold State.freeBlocks; (repeat' split) <;> simp

@[simp] theorem seal_kernel (s : State) (n : Nat) :
    (State.seal s n).kernel = s.kernel := by
  unfold State.seal
  repeat' (first | rfl | assumption | (simp; done) | split | (refine foldl_kernel_const _ _ _ (fun _ _ => ?_)) | (refine (foldl_kernel_const _ _ _ (by intros; (repeat' split) <;> simp)).trans ?_) | (refine (foldl_kernel_const _ _ _ (fun _ _ => ?_)).trans ?_) | (refine (pair_kernel (by assumption)).trans ?_) | simp)

@[simp] theorem append_kernel (s : State) (n : Nat) (t : Stream) :
    (State.append s n t).kernel = s.kernel := by
  unfold State.append; (repeat' split) <;> simp

@[simp] theorem writeBack_kernel (s : State) (n : Nat) (t : Stream) :
    (State.writeBack s n t).kernel = s.kernel := by
  unfold State.writeBack
  repeat' (first | rfl | assumption | (simp; done) | split | (refine foldl_kernel_const _ _ _ (fun _ _ => ?_)) | (refine (foldl_kernel_const _ _ _ (by intros; (repeat' split) <;> simp)).trans ?_) | (refine (foldl_kernel_const _ _ _ (fun _ _ => ?_)).trans ?_) | (refine (pair_kernel (by assumption)).trans ?_) | simp)

@[simp] theorem modStream_kernel (s : State) (sink : Nat) (num : Nat) (f : Stream → Stream) :
    (State.modStream s sink num f).kernel = s.kernel := by
  simp [State.modStream]

@[simp] theorem abortStream_kernel (s : State) (t : Stream) :
    (State.abortStream s t).kernel = s.kernel := by
  simp [State.abortStream]

@[simp] theorem filterStream_kernel (closing : Bool) (s : State) (t : Stream) :
    (State.filterStream closing s t).kernel = s.kernel := by
  unfold State.filterStream
  repeat' (first | rfl | assumption | (simp; done) | split | (refine foldl_kernel_const _ _ _ (fun _ _ => ?_)) | (refine (foldl_kernel_const _ _ _ (by intros; (repeat' split) <;> simp)).trans ?_) | (refine (foldl_kernel_const _ _ _ (fun _ _ => ?_)).trans ?_) | (refine (pair_kernel (by assumption)).trans ?_) | simp)

@[simp] theorem takeKept_kernel (s : State) (t : Stream) :
    (State.takeKept s t).kernel = s.kernel := by
  simp [State.takeKept]

@[simp] theorem keepTotals_kernel (s : State) (n : Nat) :
    (State.keepTotals s n).kernel = s.kernel := by
  unfold State.keepTotals; (repeat' split) <;> simp

@[simp] theorem sinkGone_kernel (s : State) (n : Nat) (discarded : Nat) :
    (State.sinkGone s n discarded).kernel = s.kernel := by
  simp [State.sinkGone]

@[simp] theorem sealDone_kernel (s : State) (n : Nat) (x : Seal) :
    (State.sealDone s n x).kernel = s.kernel := by
  unfold State.sealDone; (repeat' split) <;> simp

@[simp] theorem settleSeals_kernel (s : State) : (State.settleSeals s).kernel = s.kernel := by
  have done (l : List Cmd) (t : State) : (l.foldl (fun s c => s.complete c .ok) t).kernel = t.kernel :=
    foldl_kernel (fun _ _ => complete_kernel ..) l t
  unfold State.settleSeals; dsimp only
  rw [done]
  refine (foldl_kernel (fun t k => ?_) _ _).trans (foldl_kernel (fun t k => foldl_kernel (fun t x => ?_) _ t) _ s)
  · rw [done]; simp
  · simp

@[simp] theorem closeSink_kernel (s : State) (n : Nat) :
    (State.closeSink s n).kernel = s.kernel := by
  unfold State.closeSink; dsimp only; (repeat' split) <;> simp (disch := intros; (repeat' split) <;> simp [*]) [foldl_kernel_const]

@[simp] theorem discardSink_kernel (s : State) (n : Nat) :
    (State.discardSink s n).kernel = s.kernel := by
  unfold State.discardSink
  repeat' (first | rfl | assumption | (simp; done) | split | (refine foldl_kernel_const _ _ _ (fun _ _ => ?_)) | (refine (foldl_kernel_const _ _ _ (by intros; (repeat' split) <;> simp)).trans ?_) | (refine (foldl_kernel_const _ _ _ (fun _ _ => ?_)).trans ?_) | (refine (pair_kernel (by assumption)).trans ?_) | simp)

/-! ### CrewOps -/

@[simp] theorem formMap_kernel (s : State) :
    (State.formMap s).kernel = s.kernel := by
  simp [State.formMap]

@[simp] theorem setEight_kernel (s : State) (e : Nat) (v : Option (Nat × List Nat)) :
    (State.setEight s e v).kernel = s.kernel := by
  simp [State.setEight]

@[simp] theorem modRp_kernel (s : State) (n : Nat) (f : RocePair → RocePair) :
    (State.modRp s n f).kernel = s.kernel := by
  simp [State.modRp]

@[simp] theorem logAdmission_kernel (s : State) (crew : Nat) (f : Nat × Nat) :
    (State.logAdmission s crew f).kernel = s.kernel := by
  simp [State.logAdmission]

@[simp] theorem recheckTimed_kernel (s : State) :
    (State.recheckTimed s).kernel = s.kernel := by
  unfold State.recheckTimed
  repeat' (first | rfl | assumption | (simp; done) | split | (refine foldl_kernel_const _ _ _ (fun _ _ => ?_)) | (refine (foldl_kernel_const _ _ _ (by intros; (repeat' split) <;> simp)).trans ?_) | (refine (foldl_kernel_const _ _ _ (fun _ _ => ?_)).trans ?_) | (refine (pair_kernel (by assumption)).trans ?_) | simp)

@[simp] theorem mapChanged_kernel (s : State) (crew : Nat) (eight : Nat) (phys : Nat) :
    (State.mapChanged s crew eight phys).kernel = s.kernel := by
  unfold State.mapChanged; (repeat' split) <;> simp

@[simp] theorem dropWrites_kernel (s : State) (crew : Nat) :
    (State.dropWrites s crew).kernel = s.kernel := by
  simp [State.dropWrites]

@[simp] theorem holdRetries_kernel (s : State) (crew : Nat) (j : Job) :
    (State.holdRetries s crew j).kernel = s.kernel := by
  unfold State.holdRetries
  repeat' (first | rfl | assumption | (simp; done) | split | (refine foldl_kernel_const _ _ _ (fun _ _ => ?_)) | (refine (foldl_kernel_const _ _ _ (by intros; (repeat' split) <;> simp)).trans ?_) | (refine (foldl_kernel_const _ _ _ (fun _ _ => ?_)).trans ?_) | (refine (pair_kernel (by assumption)).trans ?_) | simp)

@[simp] theorem leaveLists_kernel (s : State) (crew : Nat) : (State.leaveLists s crew).kernel = s.kernel := by
  unfold State.leaveLists; dsimp only
  rw [serveWaiting_kernel]
  refine foldl_kernel_const _ _ _ fun t b => foldl_kernel_const _ _ _ fun t o => ?_
  split <;> simp

@[simp] theorem resetCrew_kernel (s : State) (n : Nat) :
    (State.resetCrew s n).kernel = s.kernel := by
  unfold State.resetCrew; dsimp only; (repeat' split) <;> simp (disch := intros; (repeat' split) <;> simp [*]) [foldl_kernel_const]

@[simp] theorem resetCrews_kernel (s : State) (ns : List Nat) :
    (State.resetCrews s ns).kernel = s.kernel := by
  unfold State.resetCrews
  repeat' (first | rfl | assumption | (simp; done) | split | (refine foldl_kernel_const _ _ _ (fun _ _ => ?_)) | (refine (foldl_kernel_const _ _ _ (by intros; (repeat' split) <;> simp)).trans ?_) | (refine (foldl_kernel_const _ _ _ (fun _ _ => ?_)).trans ?_) | (refine (pair_kernel (by assumption)).trans ?_) | simp)

/-! ### PortOps -/

@[simp] theorem setPortState_kernel (s : State) (n : Nat) (st : Nat) :
    (State.setPortState s n st).kernel = s.kernel := by
  unfold State.setPortState; (repeat' split) <;> simp

@[simp] theorem noteTopology_kernel (s : State) (n : Nat) :
    (State.noteTopology s n).kernel = s.kernel := by
  unfold State.noteTopology; (repeat' split) <;> simp

@[simp] theorem fencePort_kernel (s : State) (n : Nat) (cause : Nat) :
    (State.fencePort s n cause).kernel = s.kernel := by
  simp [State.fencePort]

@[simp] theorem downPort_kernel (s : State) (n : Nat) :
    (State.downPort s n).kernel = s.kernel := by
  simp [State.downPort]

@[simp] theorem downPorts_kernel (s : State) :
    (State.downPorts s).kernel = s.kernel := by
  unfold State.downPorts
  repeat' (first | rfl | assumption | (simp; done) | split | (refine foldl_kernel_const _ _ _ (fun _ _ => ?_)) | (refine (foldl_kernel_const _ _ _ (by intros; (repeat' split) <;> simp)).trans ?_) | (refine (foldl_kernel_const _ _ _ (fun _ _ => ?_)).trans ?_) | (refine (pair_kernel (by assumption)).trans ?_) | simp)

@[simp] theorem downUnlicensedPort_kernel (s : State) (n : Nat) :
    (State.downUnlicensedPort s n).kernel = s.kernel := by
  simp [State.downUnlicensedPort]

@[simp] theorem retrain_kernel (s : State) (n : Nat) (proto : Bool) :
    (State.retrain s n proto).kernel = s.kernel := by
  unfold State.retrain; (repeat' split) <;> simp

@[simp] theorem trainPort_kernel (s : State) (n : Nat) :
    (State.trainPort s n).kernel = s.kernel := by
  simp [State.trainPort]

@[simp] theorem writeTopology_kernel (s : State) :
    (State.writeTopology s).kernel = s.kernel := by
  simp [State.writeTopology]

/-! ### Flags -/

@[simp] theorem setDeverr_kernel (s : State) :
    (State.setDeverr s).kernel = s.kernel := by
  simp [State.setDeverr]

@[simp] theorem clearDeverr_kernel (s : State) (sameCycle : Bool) :
    (State.clearDeverr s sameCycle).kernel = s.kernel := by
  simp [State.clearDeverr]

/-! ### Faults -/

@[simp] theorem remakeAll_kernel (s : State) (p : Context → Bool) :
    (State.remakeAll s p).kernel = s.kernel := by
  unfold State.remakeAll
  repeat' (first | rfl | assumption | (simp; done) | split | (refine foldl_kernel_const _ _ _ (fun _ _ => ?_)) | (refine (foldl_kernel_const _ _ _ (by intros; (repeat' split) <;> simp)).trans ?_) | (refine (foldl_kernel_const _ _ _ (fun _ _ => ?_)).trans ?_) | (refine (pair_kernel (by assumption)).trans ?_) | simp)

@[simp] theorem loseEight_kernel (s : State) (eight : Nat) :
    (State.loseEight s eight).kernel = s.kernel := by
  unfold State.loseEight
  repeat' (first | rfl | assumption | (simp; done) | split | (refine foldl_kernel_const _ _ _ (fun _ _ => ?_)) | (refine (foldl_kernel_const _ _ _ (by intros; (repeat' split) <;> simp)).trans ?_) | (refine (foldl_kernel_const _ _ _ (fun _ _ => ?_)).trans ?_) | (refine (pair_kernel (by assumption)).trans ?_) | simp)

@[simp] theorem replaceEight_kernel (s : State) (eight : Nat) :
    (State.replaceEight s eight).kernel = s.kernel := by
  unfold State.replaceEight
  repeat' (first | rfl | assumption | (simp; done) | split | (refine foldl_kernel_const _ _ _ (fun _ _ => ?_)) | (refine (foldl_kernel_const _ _ _ (by intros; (repeat' split) <;> simp)).trans ?_) | (refine (foldl_kernel_const _ _ _ (fun _ _ => ?_)).trans ?_) | (refine (pair_kernel (by assumption)).trans ?_) | simp)

@[simp] theorem replaceEngine_kernel (s : State) (eight : Nat) (lane : Nat) :
    (State.replaceEngine s eight lane).kernel = s.kernel := by
  unfold State.replaceEngine
  repeat' (first | rfl | assumption | (simp; done) | split | (refine foldl_kernel_const _ _ _ (fun _ _ => ?_)) | (refine (foldl_kernel_const _ _ _ (by intros; (repeat' split) <;> simp)).trans ?_) | (refine (foldl_kernel_const _ _ _ (fun _ _ => ?_)).trans ?_) | (refine (pair_kernel (by assumption)).trans ?_) | simp)

@[simp] theorem failLun_kernel (s : State) (ch : Nat) (pos : Nat) :
    (State.failLun s ch pos).kernel = s.kernel := by
  simp [State.failLun]

@[simp] theorem fence_kernel (s : State) (u : UnitRef) :
    (State.fence s u).kernel = s.kernel := by
  unfold State.fence
  repeat' (first | rfl | assumption | (simp; done) | split | (refine foldl_kernel_const _ _ _ (fun _ _ => ?_)) | (refine (foldl_kernel_const _ _ _ (by intros; (repeat' split) <;> simp)).trans ?_) | (refine (foldl_kernel_const _ _ _ (fun _ _ => ?_)).trans ?_) | (refine (pair_kernel (by assumption)).trans ?_) | simp)

@[simp] theorem demand_kernel (s : State) (m : FaultMsg) (u : UnitRef) (crossing : Bool) :
    (State.demand s m u crossing).kernel = s.kernel := by
  unfold State.demand; (repeat' split) <;> simp

@[simp] theorem stopDevice_kernel (s : State) :
    (State.stopDevice s).kernel = s.kernel := by
  unfold State.stopDevice
  repeat' (first | rfl | assumption | (simp; done) | split | (refine foldl_kernel_const _ _ _ (fun _ _ => ?_)) | (refine (foldl_kernel_const _ _ _ (by intros; (repeat' split) <;> simp)).trans ?_) | (refine (foldl_kernel_const _ _ _ (fun _ _ => ?_)).trans ?_) | (refine (pair_kernel (by assumption)).trans ?_) | simp)

@[simp] theorem crossing_kernel (s : State) :
    (State.crossing s).kernel = s.kernel := by
  simp [State.crossing]

@[simp] theorem score_kernel (s : State) (m : FaultMsg) :
    (State.score s m).kernel = s.kernel := by
  unfold State.score
  repeat' (first | rfl | assumption | (simp; done) | split | (refine foldl_kernel_const _ _ _ (fun _ _ => ?_)) | (refine (foldl_kernel_const _ _ _ (by intros; (repeat' split) <;> simp)).trans ?_) | (refine (foldl_kernel_const _ _ _ (fun _ _ => ?_)).trans ?_) | (refine (pair_kernel (by assumption)).trans ?_) | simp)

@[simp] theorem failJobs_kernel (s : State) (crew : Option Nat) :
    (State.failJobs s crew).kernel = s.kernel := by
  simp [State.failJobs]

@[simp] theorem react_kernel (s : State) (m : FaultMsg) (judged : Bool) :
    (State.react s m judged).kernel = s.kernel := by
  simp [State.react]

@[simp] theorem take_kernel (s : State) (m : FaultMsg) (fresh : Bool) :
    (State.take s m fresh).kernel = s.kernel := by
  simp [State.take]

@[simp] theorem settleFor_kernel : ∀ (n : Nat) (s : State), (State.settleFor n s).kernel = s.kernel
  | 0, _ => rfl
  | n + 1, s => by
    unfold State.settleFor
    split
    · rfl
    · rw [settleFor_kernel]; simp

@[simp] theorem settle_kernel (s : State) :
    (State.settle s).kernel = s.kernel := by
  simp [State.settle]

/-! ### PowerOps -/

@[simp] theorem setSlot_kernel (s : State) (n : Nat) (f : FwSlot → FwSlot) :
    (State.setSlot s n f).kernel = s.kernel := by
  simp [State.setSlot]

@[simp] theorem failSlot_kernel (s : State) (n : Nat) (v : Nat) :
    (State.failSlot s n v).kernel = s.kernel := by
  simp [State.failSlot]

@[simp] theorem runSlot_kernel (s : State) (n : Nat) (commit : Bool) :
    (State.runSlot s n commit).kernel = s.kernel := by
  simp [State.runSlot]

@[simp] theorem trySlots_kernel (s : State) (n : Nat) (commit : Bool) :
    (State.trySlots s n commit).kernel = s.kernel := by
  simp [State.trySlots]

@[simp] theorem chooseSlot_kernel (s : State) :
    (State.chooseSlot s).kernel = s.kernel := by
  unfold State.chooseSlot
  repeat' (first | rfl | assumption | (simp; done) | split | (refine foldl_kernel_const _ _ _ (fun _ _ => ?_)) | (refine (foldl_kernel_const _ _ _ (by intros; (repeat' split) <;> simp)).trans ?_) | (refine (foldl_kernel_const _ _ _ (fun _ _ => ?_)).trans ?_) | (refine (pair_kernel (by assumption)).trans ?_) | simp)

@[simp] theorem raiseCounter_kernel (s : State) :
    (State.raiseCounter s).kernel = s.kernel := by
  simp [State.raiseCounter]

@[simp] theorem checkLicences_kernel (s : State) :
    (State.checkLicences s).kernel = s.kernel := by
  simp [State.checkLicences]

@[simp] theorem dropQp_kernel (s : State) (q : Nat) :
    (State.dropQp s q).kernel = s.kernel := by
  unfold State.dropQp
  repeat' (first | rfl | assumption | (simp; done) | split | (refine foldl_kernel_const _ _ _ (fun _ _ => ?_)) | (refine (foldl_kernel_const _ _ _ (by intros; (repeat' split) <;> simp)).trans ?_) | (refine (foldl_kernel_const _ _ _ (fun _ _ => ?_)).trans ?_) | (refine (pair_kernel (by assumption)).trans ?_) | simp)

end Sys2Proof.Machine
end

