-- ==== Sys2Proof/Laws/KernelRows.lean ====
section
/-!
SUPPORT. The effects of the command families that leave the kernel of the state alone.
-/
namespace Sys2Proof.Machine

set_option linter.all false

/-! ### HostOps -/

@[simp] theorem createQp_kernel (s : State) (qid : Nat) (ctx : Bytes) :
    (State.createQp s qid ctx).kernel = s.kernel := by
  simp [State.createQp]

@[simp] theorem enableAdmin_kernel (s : State) :
    (State.enableAdmin s).kernel = s.kernel := by
  unfold State.enableAdmin
  repeat' (first | rfl | assumption | (simp; done) | split | (refine foldl_kernel_const _ _ _ (fun _ _ => ?_)) | (refine (foldl_kernel_const _ _ _ (by intros; (repeat' split) <;> simp)).trans ?_) | (refine (foldl_kernel_const _ _ _ (fun _ _ => ?_)).trans ?_) | (refine (pair_kernel (by assumption)).trans ?_) | simp)

@[simp] theorem writeAen_kernel (s : State) :
    (State.writeAen s).kernel = s.kernel := by
  simp [State.writeAen]

@[simp] theorem errQp_kernel (s : State) (q : Nat) :
    (State.errQp s q).kernel = s.kernel := by
  unfold State.errQp; (repeat' split) <;> simp

@[simp] theorem setTail_kernel (s : State) (q : Nat) (tail : Nat) :
    (State.setTail s q tail).kernel = s.kernel := by
  unfold State.setTail; (repeat' split) <;> simp

@[simp] theorem setHead_kernel (s : State) (q : Nat) (head : Nat) :
    (State.setHead s q head).kernel = s.kernel := by
  unfold State.setHead; (repeat' split) <;> simp

@[simp] theorem leaveRing_kernel (s : State) (p : QueuePair) (fresh : Bool) :
    (State.leaveRing s p fresh).kernel = s.kernel := by
  simp [State.leaveRing]

@[simp] theorem grant_kernel (s : State) (q : Nat) (i : Nat) (first : Nat) (count : Nat) :
    (State.grant s q i first count).kernel = s.kernel := by
  unfold State.grant; dsimp only
  repeat' (first | rfl | assumption | (simp; done) | split | (refine foldl_kernel_const _ _ _ (fun _ _ => ?_)) | (refine (foldl_kernel_const _ _ _ (by intros; (repeat' split) <;> simp)).trans ?_) | (refine (foldl_kernel_const _ _ _ (fun _ _ => ?_)).trans ?_) | (refine (pair_kernel (by assumption)).trans ?_) | simp)

@[simp] theorem sliceDone_kernel (s : State) (first : Nat) :
    (State.sliceDone s first).kernel = s.kernel := by
  unfold State.sliceDone; (repeat' split) <;> simp

@[simp] theorem grantExpired_kernel (s : State) (q : Nat) (i : Nat) :
    (State.grantExpired s q i).kernel = s.kernel := by
  unfold State.grantExpired; (repeat' split) <;> simp

@[simp] theorem toHost_kernel (s : State) (c : Cmd) (b : Bytes) :
    (State.toHost s c b).kernel = s.kernel := by
  simp [State.toHost]

@[simp] theorem onCmd_kernel (s : State) (q : Nat) (i : Nat) (opc : Nat) (fid : Option Nat) (f : Cmd → State) (hf : ∀ v0, (f v0).kernel = s.kernel) :
    (State.onCmd s q i opc fid f).kernel = s.kernel := by
  unfold State.onCmd; (repeat' split) <;> simp [hf]

/-! ### AuditOps -/

@[simp] theorem audit_kernel (s : State) (a : Audit) :
    (State.audit s a).kernel = s.kernel := by
  simp [State.audit]

/-! ### AdminRows -/

@[simp] theorem identify_kernel (s : State) (c : Cmd) :
    (State.identify s c).kernel = s.kernel := by
  simp [State.identify]

@[simp] theorem getLog_kernel (s : State) (c : Cmd) :
    (State.getLog s c).kernel = s.kernel := by
  simp [State.getLog]

@[simp] theorem getFeature_kernel (s : State) (c : Cmd) :
    (State.getFeature s c).kernel = s.kernel := by
  unfold State.getFeature; (repeat' split) <;> simp

@[simp] theorem fwDownload_kernel (s : State) (c : Cmd) :
    (State.fwDownload s c).kernel = s.kernel := by
  simp [State.fwDownload]

@[simp] theorem fwCommit_kernel (s : State) (c : Cmd) :
    (State.fwCommit s c).kernel = s.kernel := by
  unfold State.fwCommit; (repeat' split) <;> simp

@[simp] theorem qpCreate_kernel (s : State) (c : Cmd) :
    (State.qpCreate s c).kernel = s.kernel := by
  unfold State.qpCreate
  repeat' (first | rfl | assumption | (simp; done) | split | (refine foldl_kernel_const _ _ _ (fun _ _ => ?_)) | (refine (foldl_kernel_const _ _ _ (by intros; (repeat' split) <;> simp)).trans ?_) | (refine (foldl_kernel_const _ _ _ (fun _ _ => ?_)).trans ?_) | (refine (pair_kernel (by assumption)).trans ?_) | simp)

@[simp] theorem endByRequest_kernel (s : State) (c : Cmd) :
    (State.endByRequest s c).kernel = s.kernel := by
  simp [State.endByRequest]

@[simp] theorem abortCmd_kernel (s : State) (c : Cmd) (sameCycle : Bool) :
    (State.abortCmd s c sameCycle).kernel = s.kernel := by
  unfold State.abortCmd; (repeat' split) <;> simp

/-! ### MetaOps -/

@[simp] theorem addDataset_kernel (s : State) (d : Dataset) :
    (State.addDataset s d).kernel = s.kernel := by
  simp [State.addDataset]

@[simp] theorem registrationFailed_kernel (s : State) (c : Cmd) (f : RegFail) :
    (State.registrationFailed s c f).kernel = s.kernel := by
  simp [State.registrationFailed]

@[simp] theorem finish_kernel (s : State) (c : Cmd) :
    (State.finish s c).kernel = s.kernel := by
  unfold State.finish; (repeat' split) <;> simp

@[simp] theorem settlePrograms_kernel (s : State) :
    (State.settlePrograms s).kernel = s.kernel := by
  unfold State.settlePrograms
  repeat' (first | rfl | assumption | (simp; done) | split | (refine foldl_kernel_const _ _ _ (fun _ _ => ?_)) | (refine (foldl_kernel_const _ _ _ (by intros; (repeat' split) <;> simp)).trans ?_) | (refine (foldl_kernel_const _ _ _ (fun _ _ => ?_)).trans ?_) | (refine (pair_kernel (by assumption)).trans ?_) | simp)

@[simp] theorem awaitPrograms_kernel (s : State) (c : Cmd) (seqs : List Nat) (cached : Bool) :
    (State.awaitPrograms s c seqs cached).kernel = s.kernel := by
  simp [State.awaitPrograms]

@[simp] theorem settleSecure_kernel (s : State) :
    (State.settleSecure s).kernel = s.kernel := by
  unfold State.settleSecure
  repeat' (first | rfl | assumption | (simp; done) | split | (refine foldl_kernel_const _ _ _ (fun _ _ => ?_)) | (refine (foldl_kernel_const _ _ _ (by intros; (repeat' split) <;> simp)).trans ?_) | (refine (foldl_kernel_const _ _ _ (fun _ _ => ?_)).trans ?_) | (refine (pair_kernel (by assumption)).trans ?_) | simp)

@[simp] theorem setMedia_kernel (s : State) (m : Media) :
    (State.setMedia s m).kernel = s.kernel := by
  simp [State.setMedia]

@[simp] theorem writeRecord_kernel (s : State) (c : Cmd) (data : Bytes) :
    (State.writeRecord s c data).kernel = s.kernel := by
  unfold State.writeRecord; (repeat' split) <;> simp

/-! ### MediaCmds -/

@[simp] theorem noRoom_kernel (s : State) (c : Cmd) :
    (State.noRoom s c).kernel = s.kernel := by
  simp [State.noRoom]

@[simp] theorem mediaCmd_kernel (s : State) (c : Cmd) (blank : Result) (f : State → State) (hf : ∀ v0, (f v0).kernel = v0.kernel) :
    (State.mediaCmd s c blank f).kernel = s.kernel := by
  simp [State.mediaCmd, hf]

@[simp] theorem staged_kernel (s : State) (c : Cmd) (f : State → State) (hf : ∀ t, (f t).kernel = t.kernel) :
    (State.staged s c f).kernel = s.kernel := by
  unfold State.staged; dsimp only
  split
  · exact (pair_kernel (by assumption)).trans (alloc_kernel ..)
  · rw [freeRef_kernel, hf]; exact (pair_kernel (by assumption)).trans (alloc_kernel ..)

@[simp] theorem readMedia_kernel (s : State) (c : Cmd) : (State.readMedia s c).kernel = s.kernel := by
  unfold State.readMedia
  refine mediaCmd_kernel _ _ _ _ fun t => ?_
  repeat' split
  all_goals simp

@[simp] theorem writeMedia_kernel (s : State) (c : Cmd) :
    (State.writeMedia s c).kernel = s.kernel := by
  unfold State.writeMedia; dsimp only; (repeat' split) <;> simp (disch := intros; (repeat' split) <;> simp [*]) [foldl_kernel_const]

@[simp] theorem deallocateCmd_kernel (s : State) (c : Cmd) : (State.deallocateCmd s c).kernel = s.kernel := by
  unfold State.deallocateCmd
  refine mediaCmd_kernel _ _ _ _ fun t => ?_
  repeat' split
  all_goals simp

@[simp] theorem secureCmd_kernel (s : State) (c : Cmd) : (State.secureCmd s c).kernel = s.kernel := by
  unfold State.secureCmd
  refine mediaCmd_kernel _ _ _ _ fun t => ?_
  dsimp only
  repeat' split
  all_goals simp

@[simp] theorem flushCmd_kernel (s : State) (c : Cmd) :
    (State.flushCmd s c).kernel = s.kernel := by
  simp [State.flushCmd]

/-! ### DomainOps -/

@[simp] theorem sendRoute_kernel (s : State) (ptype : Nat) (vc : Nat) (dst : Nat) (route : List Nat) (tag : Nat) (body : Bytes) :
    (State.sendRoute s ptype vc dst route tag body).kernel = s.kernel := by
  unfold State.sendRoute; (repeat' split) <;> simp

@[simp] theorem distributeTo_kernel (s : State) (called : Member → Nat) :
    (State.distributeTo s called).kernel = s.kernel := by
  unfold State.distributeTo
  repeat' (first | rfl | assumption | (simp; done) | split | (refine foldl_kernel_const _ _ _ (fun _ _ => ?_)) | (refine (foldl_kernel_const _ _ _ (by intros; (repeat' split) <;> simp)).trans ?_) | (refine (foldl_kernel_const _ _ _ (fun _ _ => ?_)).trans ?_) | (refine (pair_kernel (by assumption)).trans ?_) | simp)

@[simp] theorem distribute_kernel (s : State) :
    (State.distribute s).kernel = s.kernel := by
  simp [State.distribute]

@[simp] theorem sendExchange_kernel (s : State) (dset : Nat) (shard : Nat) (dst : Nat) (b : Bytes) :
    (State.sendExchange s dset shard dst b).kernel = s.kernel := by
  unfold State.sendExchange
  repeat' (first | rfl | assumption | (simp; done) | split | (refine foldl_kernel_const _ _ _ (fun _ _ => ?_)) | (refine (foldl_kernel_const _ _ _ (by intros; (repeat' split) <;> simp)).trans ?_) | (refine (foldl_kernel_const _ _ _ (fun _ _ => ?_)).trans ?_) | (refine (pair_kernel (by assumption)).trans ?_) | simp)

@[simp] theorem sendShardOf_kernel (s : State) (d : Dataset) (shard : Nat) (dst : Nat) :
    (State.sendShardOf s d shard dst).kernel = s.kernel := by
  unfold State.sendShardOf; (repeat' split) <;> simp

@[simp] theorem sendShard_kernel (s : State) (dset : Nat) (shard : Nat) (dst : Nat) :
    (State.sendShard s dset shard dst).kernel = s.kernel := by
  unfold State.sendShard; (repeat' split) <;> simp

@[simp] theorem orderCopy_kernel (s : State) (c : Copy) :
    (State.orderCopy s c).kernel = s.kernel := by
  simp [State.orderCopy]

@[simp] theorem loseShards_kernel (s : State) (l : List (Nat × Nat)) :
    (State.loseShards s l).kernel = s.kernel := by
  unfold State.loseShards
  repeat' (first | rfl | assumption | (simp; done) | split | (refine foldl_kernel_const _ _ _ (fun _ _ => ?_)) | (refine (foldl_kernel_const _ _ _ (by intros; (repeat' split) <;> simp)).trans ?_) | (refine (foldl_kernel_const _ _ _ (fun _ _ => ?_)).trans ?_) | (refine (pair_kernel (by assumption)).trans ?_) | simp)

@[simp] theorem rehome_kernel (s : State) (lost : Nat) (p : Placement) :
    (State.rehome s lost p).kernel = s.kernel := by
  unfold State.rehome
  repeat' (first | rfl | assumption | (simp; done) | split | (refine foldl_kernel_const _ _ _ (fun _ _ => ?_)) | (refine (foldl_kernel_const _ _ _ (by intros; (repeat' split) <;> simp)).trans ?_) | (refine (foldl_kernel_const _ _ _ (fun _ _ => ?_)).trans ?_) | (refine (pair_kernel (by assumption)).trans ?_) | simp)

@[simp] theorem failDomainJobs_kernel (s : State) (lost : Nat) :
    (State.failDomainJobs s lost).kernel = s.kernel := by
  unfold State.failDomainJobs
  repeat' (first | rfl | assumption | (simp; done) | split | (refine foldl_kernel_const _ _ _ (fun _ _ => ?_)) | (refine (foldl_kernel_const _ _ _ (by intros; (repeat' split) <;> simp)).trans ?_) | (refine (foldl_kernel_const _ _ _ (fun _ _ => ?_)).trans ?_) | (refine (pair_kernel (by assumption)).trans ?_) | simp)

@[simp] theorem sendTables_kernel (s : State) (dset : Nat) (sets : Nat) (data : Bytes) :
    (State.sendTables s dset sets data).kernel = s.kernel := by
  unfold State.sendTables
  repeat' (first | rfl | assumption | (simp; done) | split | (refine foldl_kernel_const _ _ _ (fun _ _ => ?_)) | (refine (foldl_kernel_const _ _ _ (by intros; (repeat' split) <;> simp)).trans ?_) | (refine (foldl_kernel_const _ _ _ (fun _ _ => ?_)).trans ?_) | (refine (pair_kernel (by assumption)).trans ?_) | simp)

@[simp] theorem resendTables_kernel (s : State) (dsets : List Nat) :
    (State.resendTables s dsets).kernel = s.kernel := by
  unfold State.resendTables
  repeat' (first | rfl | assumption | (simp; done) | split | (refine foldl_kernel_const _ _ _ (fun _ _ => ?_)) | (refine (foldl_kernel_const _ _ _ (by intros; (repeat' split) <;> simp)).trans ?_) | (refine (foldl_kernel_const _ _ _ (fun _ _ => ?_)).trans ?_) | (refine (pair_kernel (by assumption)).trans ?_) | simp)

@[simp] theorem endDomainRegister_kernel (s : State) (c : Cmd) :
    (State.endDomainRegister s c).kernel = s.kernel := by
  simp [State.endDomainRegister]

@[simp] theorem settleCopies_kernel (s : State) :
    (State.settleCopies s).kernel = s.kernel := by
  unfold State.settleCopies
  repeat' (first | rfl | assumption | (simp; done) | split | (refine foldl_kernel_const _ _ _ (fun _ _ => ?_)) | (refine (foldl_kernel_const _ _ _ (by intros; (repeat' split) <;> simp)).trans ?_) | (refine (foldl_kernel_const _ _ _ (fun _ _ => ?_)).trans ?_) | (refine (pair_kernel (by assumption)).trans ?_) | simp)

@[simp] theorem loseWorker_kernel (s : State) (id : Nat) :
    (State.loseWorker s id).kernel = s.kernel := by
  unfold State.loseWorker; dsimp only; (repeat' split) <;> simp (disch := intros; (repeat' split) <;> simp [*]) [foldl_kernel_const]

@[simp] theorem reroute_kernel (s : State) :
    (State.reroute s).kernel = s.kernel := by
  unfold State.reroute
  repeat' (first | rfl | assumption | (simp; done) | split | (refine foldl_kernel_const _ _ _ (fun _ _ => ?_)) | (refine (foldl_kernel_const _ _ _ (by intros; (repeat' split) <;> simp)).trans ?_) | (refine (foldl_kernel_const _ _ _ (fun _ _ => ?_)).trans ?_) | (refine (pair_kernel (by assumption)).trans ?_) | simp)

@[simp] theorem recoverPort_kernel (s : State) (n : Nat) (proto : Bool) :
    (State.recoverPort s n proto).kernel = s.kernel := by
  unfold State.recoverPort
  repeat' (first | rfl | assumption | (simp; done) | split | (refine foldl_kernel_const _ _ _ (fun _ _ => ?_)) | (refine (foldl_kernel_const _ _ _ (by intros; (repeat' split) <;> simp)).trans ?_) | (refine (foldl_kernel_const _ _ _ (fun _ _ => ?_)).trans ?_) | (refine (pair_kernel (by assumption)).trans ?_) | simp)

@[simp] theorem peerChanged_kernel (s : State) (n : Nat) (peer : Nat) :
    (State.peerChanged s n peer).kernel = s.kernel := by
  simp [State.peerChanged]

@[simp] theorem expel_kernel (s : State) (id : Nat) :
    (State.expel s id).kernel = s.kernel := by
  simp [State.expel]

@[simp] theorem suspect_kernel (s : State) (id : Nat) :
    (State.suspect s id).kernel = s.kernel := by
  simp [State.suspect]

/-! ### JobOps -/

@[simp] theorem jobCmd_kernel (s : State) (c : Cmd) (states : List Nat) (f : Crew → State) (hf : ∀ v0, (f v0).kernel = s.kernel) :
    (State.jobCmd s c states f).kernel = s.kernel := by
  unfold State.jobCmd; (repeat' split) <;> simp [hf]

@[simp] theorem drawReserve_kernel (s : State) (r : Run) :
    (State.drawReserve s r).kernel = s.kernel := by
  unfold State.drawReserve
  repeat' (first | rfl | assumption | (simp; done) | split | (refine foldl_kernel_const _ _ _ (fun _ _ => ?_)) | (refine (foldl_kernel_const _ _ _ (by intros; (repeat' split) <;> simp)).trans ?_) | (refine (foldl_kernel_const _ _ _ (fun _ _ => ?_)).trans ?_) | (refine (pair_kernel (by assumption)).trans ?_) | simp)

@[simp] theorem openWith_kernel (s : State) (c : Cmd) (k : Crew) (rc : Recipe) (j : Job) :
    (State.openWith s c k rc j).kernel = s.kernel := by
  simp [State.openWith]

@[simp] theorem beginDealing_kernel (s : State) (job : Nat) :
    (State.beginDealing s job).kernel = s.kernel := by
  unfold State.beginDealing; (repeat' split) <;> simp

theorem claim_of (s : State) (x : Claim) {t : State} (h : State.claim s x = some t) : t.kernel = s.kernel := by
  revert h; unfold State.claim; dsimp only
  repeat' split
  all_goals (intro h; cases h)
  all_goals (repeat' (first | rfl | assumption | (simp; done) | split | (refine foldl_kernel_const _ _ _ (fun _ _ => ?_)) | (refine (foldl_kernel_const _ _ _ (by intros; (repeat' split) <;> simp)).trans ?_) | (refine (foldl_kernel_const _ _ _ (fun _ _ => ?_)).trans ?_) | (refine (pair_kernel (by assumption)).trans ?_) | simp))

@[simp] theorem refuseOpen_kernel (s : State) (c : Cmd) (k : Crew) (rc : Recipe) (r : Result × Bool) :
    (State.refuseOpen s c k rc r).kernel = s.kernel := by
  unfold State.refuseOpen; (repeat' split) <;> simp

theorem claim_getD (s : State) (x : Claim) : ((s.claim x).getD s).kernel = s.kernel := by
  cases h : s.claim x with
  | none => rfl
  | some t => exact claim_of s x h

@[simp] theorem openEpoch_kernel (s : State) (c : Cmd) (k : Crew) : (State.openEpoch s c k).kernel = s.kernel := by
  unfold State.openEpoch
  repeat' (first | rfl | (simp; done) | split | simp [claim_getD])
  cases h : State.claim _ _ with
  | none => simp
  | some t => simpa using claim_of _ _ h

@[simp] theorem claimAnswered_kernel (s : State) (job : Nat) (reason : Nat) (id : Nat) :
    (State.claimAnswered s job reason id).kernel = s.kernel := by
  unfold State.claimAnswered; (repeat' split) <;> simp

@[simp] theorem writeTokens_kernel (s : State) (c : Cmd) (r : Run) :
    (State.writeTokens s c r).kernel = s.kernel := by
  simp [State.writeTokens]

@[simp] theorem endJob_kernel (s : State) (r : Run) :
    (State.endJob s r).kernel = s.kernel := by
  unfold State.endJob
  repeat' (first | rfl | assumption | (simp; done) | split | (refine foldl_kernel_const _ _ _ (fun _ _ => ?_)) | (refine (foldl_kernel_const _ _ _ (by intros; (repeat' split) <;> simp)).trans ?_) | (refine (foldl_kernel_const _ _ _ (fun _ _ => ?_)).trans ?_) | (refine (pair_kernel (by assumption)).trans ?_) | (refine (claim_of (by assumption)).trans ?_) | simp)

/-! ### CatalogueRows -/

@[simp] theorem whenMounted_kernel (s : State) (f : State → State) (hf : ∀ v0, (f v0).kernel = v0.kernel) :
    (State.whenMounted s f).kernel = s.kernel := by
  simp [State.whenMounted, hf]

@[simp] theorem registerCmd_kernel (s : State) (c : Cmd) : (State.registerCmd s c).kernel = s.kernel := by
  unfold State.registerCmd
  split
  · rfl
  · refine whenMounted_kernel _ _ fun t => ?_
    repeat' split
    all_goals simp

@[simp] theorem removeDataset_kernel (s : State) (c : Cmd) : (State.removeDataset s c).kernel = s.kernel := by
  unfold State.removeDataset
  split
  · rfl
  · refine whenMounted_kernel _ _ fun t => ?_
    repeat' split
    all_goals simp

@[simp] theorem loadVocab_kernel (s : State) (c : Cmd) : (State.loadVocab s c).kernel = s.kernel := by
  unfold State.loadVocab
  refine whenMounted_kernel _ _ fun t => ?_
  dsimp only
  repeat' split
  all_goals try rw [writeRecord_kernel]
  all_goals first | exact (pair_kernel (by assumption)).trans (drawVocab_kernel ..) | simp

@[simp] theorem removeVocab_kernel (s : State) (c : Cmd) :
    (State.removeVocab s c).kernel = s.kernel := by
  unfold State.removeVocab; (repeat' split) <;> simp

@[simp] theorem loadGrammar_kernel (s : State) (c : Cmd) : (State.loadGrammar s c).kernel = s.kernel := by
  unfold State.loadGrammar
  refine whenMounted_kernel _ _ fun t => ?_
  dsimp only
  repeat' split
  all_goals try rw [writeRecord_kernel]
  all_goals first | exact (pair_kernel (by assumption)).trans (drawGrammar_kernel ..) | simp

@[simp] theorem removeGrammar_kernel (s : State) (c : Cmd) :
    (State.removeGrammar s c).kernel = s.kernel := by
  simp [State.removeGrammar]

/-! ### CrewRows -/

@[simp] theorem addCrew_kernel (s : State) (k : Crew) :
    (State.addCrew s k).kernel = s.kernel := by
  simp [State.addCrew]

@[simp] theorem formCrew_kernel (s : State) (c : Cmd) :
    (State.formCrew s c).kernel = s.kernel := by
  simp [State.formCrew]

@[simp] theorem dissolveCrew_kernel (s : State) (c : Cmd) :
    (State.dissolveCrew s c).kernel = s.kernel := by
  unfold State.dissolveCrew
  repeat' (first | rfl | assumption | (simp; done) | split | (refine foldl_kernel_const _ _ _ (fun _ _ => ?_)) | (refine (foldl_kernel_const _ _ _ (by intros; (repeat' split) <;> simp)).trans ?_) | (refine (foldl_kernel_const _ _ _ (fun _ _ => ?_)).trans ?_) | (refine (pair_kernel (by assumption)).trans ?_) | (refine (claim_of (by assumption)).trans ?_) | simp)

@[simp] theorem joinCrew_kernel (s : State) (c : Cmd) :
    (State.joinCrew s c).kernel = s.kernel := by
  unfold State.joinCrew
  repeat' (first | rfl | assumption | (simp; done) | split | (refine foldl_kernel_const _ _ _ (fun _ _ => ?_)) | (refine (foldl_kernel_const _ _ _ (by intros; (repeat' split) <;> simp)).trans ?_) | (refine (foldl_kernel_const _ _ _ (fun _ _ => ?_)).trans ?_) | (refine (pair_kernel (by assumption)).trans ?_) | (refine (claim_of (by assumption)).trans ?_) | simp)

/-! ### PortTx -/

@[simp] theorem modLink_kernel (s : State) (port : Nat) (f : Link → Link) :
    (State.modLink s port f).kernel = s.kernel := by
  simp [State.modLink]

@[simp] theorem sendFlit_kernel (s : State) (port : Nat) (vc : Nat) (sop : Bool) (eop : Bool) (payload : Bytes) :
    (State.sendFlit s port vc sop eop payload).kernel = s.kernel := by
  unfold State.sendFlit; (repeat' split) <;> simp

@[simp] theorem sendFlits_kernel (s : State) (port : Nat) (b : Bytes) :
    (State.sendFlits s port b).kernel = s.kernel := by
  unfold State.sendFlits
  repeat' (first | rfl | assumption | (simp; done) | split | (refine foldl_kernel_const _ _ _ (fun _ _ => ?_)) | (refine (foldl_kernel_const _ _ _ (by intros; (repeat' split) <;> simp)).trans ?_) | (refine (foldl_kernel_const _ _ _ (fun _ _ => ?_)).trans ?_) | (refine (pair_kernel (by assumption)).trans ?_) | (refine (claim_of (by assumption)).trans ?_) | simp)

@[simp] theorem sendControlFlit_kernel (s : State) (port : Nat) (type : Nat) :
    (State.sendControlFlit s port type).kernel = s.kernel := by
  unfold State.sendControlFlit; (repeat' split) <;> simp

@[simp] theorem replay_kernel (s : State) (port : Nat) :
    (State.replay s port).kernel = s.kernel := by
  unfold State.replay; (repeat' split) <;> simp

@[simp] theorem replayOn_kernel (s : State) (port : Nat) :
    (State.replayOn s port).kernel = s.kernel := by
  unfold State.replayOn; (repeat' split) <;> simp

@[simp] theorem queueReply_kernel (s : State) (p : RocePair) (o : Output) (ext : Nat) :
    (State.queueReply s p o ext).kernel = s.kernel := by
  simp [State.queueReply]

@[simp] theorem keepFrames_kernel (s : State) (port : Nat) (keep : Frame → Bool) :
    (State.keepFrames s port keep).kernel = s.kernel := by
  simp [State.keepFrames]

@[simp] theorem paceTake_kernel (s : State) (lqpn : Nat) (len : Nat) :
    (State.paceTake s lqpn len).kernel = s.kernel := by
  unfold State.paceTake; (repeat' split) <;> simp

@[simp] theorem queueAll_kernel (s : State) (port : Nat) (crew : Nat) (l : List Frame) :
    (State.queueAll s port crew l).kernel = s.kernel := by
  unfold State.queueAll
  repeat' (first | rfl | assumption | (simp; done) | split | (refine foldl_kernel_const _ _ _ (fun _ _ => ?_)) | (refine (foldl_kernel_const _ _ _ (by intros; (repeat' split) <;> simp)).trans ?_) | (refine (foldl_kernel_const _ _ _ (fun _ _ => ?_)).trans ?_) | (refine (pair_kernel (by assumption)).trans ?_) | (refine (claim_of (by assumption)).trans ?_) | simp)

@[simp] theorem sendWrite_kernel (s : State) (f : Frame) :
    (State.sendWrite s f).kernel = s.kernel := by
  unfold State.sendWrite; (repeat' split) <;> simp

@[simp] theorem popFrame_kernel (s : State) (port : Nat) (q : Nat) (f : Frame) :
    (State.popFrame s port q f).kernel = s.kernel := by
  simp [State.popFrame]

@[simp] theorem transmit_kernel (s : State) (port : Nat) :
    (State.transmit s port).kernel = s.kernel := by
  unfold State.transmit; (repeat' split) <;> simp

/-! ### RoceRows -/

@[simp] theorem modBatchesOn_kernel (s : State) (lqpn : Nat) (f : Batch → Batch) :
    (State.modBatchesOn s lqpn f).kernel = s.kernel := by
  simp [State.modBatchesOn]

@[simp] theorem unsend_kernel (s : State) (p : RocePair) :
    (State.unsend s p).kernel = s.kernel := by
  simp [State.unsend]

@[simp] theorem setRocePair_kernel (s : State) (c : Cmd) :
    (State.setRocePair s c).kernel = s.kernel := by
  unfold State.setRocePair
  repeat' (first | rfl | assumption | (simp; done) | split | (refine foldl_kernel_const _ _ _ (fun _ _ => ?_)) | (refine (foldl_kernel_const _ _ _ (by intros; (repeat' split) <;> simp)).trans ?_) | (refine (foldl_kernel_const _ _ _ (fun _ _ => ?_)).trans ?_) | (refine (pair_kernel (by assumption)).trans ?_) | (refine (claim_of (by assumption)).trans ?_) | simp)

@[simp] theorem removeRocePair_kernel (s : State) (c : Cmd) :
    (State.removeRocePair s c).kernel = s.kernel := by
  unfold State.removeRocePair; (repeat' split) <;> simp

@[simp] theorem startBatch_kernel (s : State) (crew : Nat) (rank : Nat) :
    (State.startBatch s crew rank).kernel = s.kernel := by
  unfold State.startBatch; (repeat' split) <;> simp

@[simp] theorem queueDesc_kernel (s : State) (p : RocePair) (crew : Nat) (k : RankJob) (rowBytes : Nat) (b : Batch) :
    (State.queueDesc s p crew k rowBytes b).kernel = s.kernel := by
  simp [State.queueDesc]

@[simp] theorem ackBatch_kernel (s : State) (lqpn : Nat) (crew : Nat) (rank : Nat) (bk : Nat) :
    (State.ackBatch s lqpn crew rank bk).kernel = s.kernel := by
  unfold State.ackBatch; (repeat' split) <;> simp

@[simp] theorem rdmaAck_kernel (s : State) (lqpn : Nat) (psn : Nat) :
    (State.rdmaAck s lqpn psn).kernel = s.kernel := by
  unfold State.rdmaAck
  repeat' (first | rfl | assumption | (simp; done) | split | (refine foldl_kernel_const _ _ _ (fun _ _ => ?_)) | (refine (foldl_kernel_const _ _ _ (by intros; (repeat' split) <;> simp)).trans ?_) | (refine (foldl_kernel_const _ _ _ (fun _ _ => ?_)).trans ?_) | (refine (pair_kernel (by assumption)).trans ?_) | (refine (claim_of (by assumption)).trans ?_) | simp)

@[simp] theorem rocePairError_kernel (s : State) (p : RocePair) :
    (State.rocePairError s p).kernel = s.kernel := by
  simp [State.rocePairError]

@[simp] theorem resend_kernel (s : State) (p : RocePair) :
    (State.resend s p).kernel = s.kernel := by
  unfold State.resend
  repeat' (first | rfl | assumption | (simp; done) | split | (refine foldl_kernel_const _ _ _ (fun _ _ => ?_)) | (refine (foldl_kernel_const _ _ _ (by intros; (repeat' split) <;> simp)).trans ?_) | (refine (foldl_kernel_const _ _ _ (fun _ _ => ?_)).trans ?_) | (refine (pair_kernel (by assumption)).trans ?_) | (refine (claim_of (by assumption)).trans ?_) | simp)

@[simp] theorem transportTimeout_kernel (s : State) (lqpn : Nat) :
    (State.transportTimeout s lqpn).kernel = s.kernel := by
  unfold State.transportTimeout; (repeat' split) <;> simp

@[simp] theorem rnrNak_kernel (s : State) (lqpn : Nat) :
    (State.rnrNak s lqpn).kernel = s.kernel := by
  unfold State.rnrNak; (repeat' split) <;> simp

@[simp] theorem dmaWrites_kernel (s : State) (addr : Nat) (b : Bytes) (relaxed : Bool) :
    (State.dmaWrites s addr b relaxed).kernel = s.kernel := by
  unfold State.dmaWrites
  repeat' (first | rfl | assumption | (simp; done) | split | (refine foldl_kernel_const _ _ _ (fun _ _ => ?_)) | (refine (foldl_kernel_const _ _ _ (by intros; (repeat' split) <;> simp)).trans ?_) | (refine (foldl_kernel_const _ _ _ (fun _ _ => ?_)).trans ?_) | (refine (pair_kernel (by assumption)).trans ?_) | (refine (claim_of (by assumption)).trans ?_) | simp)

@[simp] theorem cePacket_kernel (s : State) (lqpn : Nat) (us : Nat) :
    (State.cePacket s lqpn us).kernel = s.kernel := by
  unfold State.cePacket; (repeat' split) <;> simp

@[simp] theorem cnp_kernel (s : State) (lqpn : Nat) (us : Nat) :
    (State.cnp s lqpn us).kernel = s.kernel := by
  unfold State.cnp; (repeat' split) <;> simp

@[simp] theorem recoverRate_kernel (s : State) (lqpn : Nat) :
    (State.recoverRate s lqpn).kernel = s.kernel := by
  simp [State.recoverRate]

@[simp] theorem pfcFrame_kernel (s : State) (port : Nat) (pause : List Nat) (release : List Nat) :
    (State.pfcFrame s port pause release).kernel = s.kernel := by
  simp [State.pfcFrame]

@[simp] theorem pfcExpired_kernel (s : State) (port : Nat) (prio : Nat) :
    (State.pfcExpired s port prio).kernel = s.kernel := by
  simp [State.pfcExpired]

@[simp] theorem judgeIngress_kernel (s : State) (port : Nat) :
    (State.judgeIngress s port).kernel = s.kernel := by
  unfold State.judgeIngress; (repeat' split) <;> simp

@[simp] theorem discardFrame_kernel (s : State) (port : Nat) :
    (State.discardFrame s port).kernel = s.kernel := by
  simp [State.discardFrame]

@[simp] theorem neighbour_kernel (s : State) (port : Nat) (f : NeighbourFrame) :
    (State.neighbour s port f).kernel = s.kernel := by
  unfold State.neighbour; (repeat' split) <;> simp

/-! ### RolloutRows -/

@[simp] theorem openSink_kernel (s : State) (c : Cmd) :
    (State.openSink s c).kernel = s.kernel := by
  unfold State.openSink
  repeat' (first | rfl | assumption | (simp; done) | split | (refine foldl_kernel_const _ _ _ (fun _ _ => ?_)) | (refine (foldl_kernel_const _ _ _ (by intros; (repeat' split) <;> simp)).trans ?_) | (refine (foldl_kernel_const _ _ _ (fun _ _ => ?_)).trans ?_) | (refine (pair_kernel (by assumption)).trans ?_) | (refine (claim_of (by assumption)).trans ?_) | simp)

@[simp] theorem flushSink_kernel (s : State) (c : Cmd) :
    (State.flushSink s c).kernel = s.kernel := by
  unfold State.flushSink; (repeat' split) <;> simp

@[simp] theorem closeSinkCmd_kernel (s : State) (c : Cmd) :
    (State.closeSinkCmd s c).kernel = s.kernel := by
  simp [State.closeSinkCmd]

@[simp] theorem takeMessage_kernel (s : State) (b : Bytes) :
    (State.takeMessage s b).kernel = s.kernel := by
  unfold State.takeMessage; (repeat' split) <;> simp

@[simp] theorem nextMessage_kernel (s : State) :
    (State.nextMessage s).kernel = s.kernel := by
  unfold State.nextMessage
  repeat' (first | rfl | assumption | (simp; done) | split | (refine foldl_kernel_const _ _ _ (fun _ _ => ?_)) | (refine (foldl_kernel_const _ _ _ (by intros; (repeat' split) <;> simp)).trans ?_) | (refine (foldl_kernel_const _ _ _ (fun _ _ => ?_)).trans ?_) | (refine (pair_kernel (by assumption)).trans ?_) | (refine (claim_of (by assumption)).trans ?_) | simp)

@[simp] theorem runRolloutFilter_kernel (s : State) (sink : Nat) (stream : Nat) :
    (State.runRolloutFilter s sink stream).kernel = s.kernel := by
  unfold State.runRolloutFilter; (repeat' split) <;> simp

@[simp] theorem recordWritten_kernel (s : State) (sink : Nat) (stream : Nat) :
    (State.recordWritten s sink stream).kernel = s.kernel := by
  unfold State.recordWritten; (repeat' split) <;> simp

/-! ### Startup -/

@[simp] theorem toPhase_kernel (s : State) (p : Phase) :
    (State.toPhase s p).kernel = s.kernel := by
  simp [State.toPhase]

@[simp] theorem loadFuses_kernel (s : State) :
    (State.loadFuses s).kernel = s.kernel := by
  simp [State.loadFuses]

@[simp] theorem restore_kernel (s : State) :
    (State.restore s).kernel = s.kernel := by
  unfold State.restore
  repeat' (first | rfl | assumption | (simp; done) | split | (refine foldl_kernel_const _ _ _ (fun _ _ => ?_)) | (refine (foldl_kernel_const _ _ _ (by intros; (repeat' split) <;> simp)).trans ?_) | (refine (foldl_kernel_const _ _ _ (fun _ _ => ?_)).trans ?_) | (refine (pair_kernel (by assumption)).trans ?_) | (refine (claim_of (by assumption)).trans ?_) | simp)

@[simp] theorem downUnlicensed_kernel (s : State) :
    (State.downUnlicensed s).kernel = s.kernel := by
  unfold State.downUnlicensed
  repeat' (first | rfl | assumption | (simp; done) | split | (refine foldl_kernel_const _ _ _ (fun _ _ => ?_)) | (refine (foldl_kernel_const _ _ _ (by intros; (repeat' split) <;> simp)).trans ?_) | (refine (foldl_kernel_const _ _ _ (fun _ _ => ?_)).trans ?_) | (refine (pair_kernel (by assumption)).trans ?_) | (refine (claim_of (by assumption)).trans ?_) | simp)

@[simp] theorem trainedBy_kernel (s : State) (bit_ : Nat) (fellBack : Bool) :
    (State.trainedBy s bit_ fellBack).kernel = s.kernel := by
  simp [State.trainedBy]

@[simp] theorem failUnit_kernel (s : State) (u : UnitRef) (r : Raise) :
    (State.failUnit s u r).kernel = s.kernel := by
  simp [State.failUnit]

@[simp] theorem memoryTrained_kernel (s : State) (hbm : List Nat) (lp : List Nat) (hbmBack : Bool) (lpBack : Bool) :
    (State.memoryTrained s hbm lp hbmBack lpBack).kernel = s.kernel := by
  unfold State.memoryTrained
  repeat' (first | rfl | assumption | (simp; done) | split | (refine foldl_kernel_const _ _ _ (fun _ _ => ?_)) | (refine (foldl_kernel_const _ _ _ (by intros; (repeat' split) <;> simp)).trans ?_) | (refine (foldl_kernel_const _ _ _ (fun _ _ => ?_)).trans ?_) | (refine (pair_kernel (by assumption)).trans ?_) | (refine (claim_of (by assumption)).trans ?_) | simp)

@[simp] theorem cxlTrained_kernel (s : State) (speed : Nat) (width : Nat) (flit : Nat) (fellBack : Bool) :
    (State.cxlTrained s speed width flit fellBack).kernel = s.kernel := by
  unfold State.cxlTrained
  repeat' (first | rfl | assumption | (simp; done) | split | (refine foldl_kernel_const _ _ _ (fun _ _ => ?_)) | (refine (foldl_kernel_const _ _ _ (by intros; (repeat' split) <;> simp)).trans ?_) | (refine (foldl_kernel_const _ _ _ (fun _ _ => ?_)).trans ?_) | (refine (pair_kernel (by assumption)).trans ?_) | (refine (claim_of (by assumption)).trans ?_) | simp)

@[simp] theorem selfTested_kernel (s : State) (engines : List Nat) (units : List (Nat × Nat)) :
    (State.selfTested s engines units).kernel = s.kernel := by
  unfold State.selfTested; dsimp only; (repeat' split) <;> simp (disch := intros; (repeat' split) <;> simp [*]) [foldl_kernel_const]

@[simp] theorem noteStart_kernel (s : State) :
    (State.noteStart s).kernel = s.kernel := by
  simp [State.noteStart]

@[simp] theorem heldAen_kernel (s : State) :
    (State.heldAen s).kernel = s.kernel := by
  simp [State.heldAen]

@[simp] theorem recoverWrite_kernel (s : State) (b : Bytes) :
    (State.recoverWrite s b).kernel = s.kernel := by
  simp [State.recoverWrite]

@[simp] theorem recoverEnd_kernel (s : State) (b : Bytes) :
    (State.recoverEnd s b).kernel = s.kernel := by
  simp [State.recoverEnd]

@[simp] theorem mountIdentified_kernel (s : State) (g : NandGeometry) :
    (State.mountIdentified s g).kernel = s.kernel := by
  simp [State.mountIdentified]

@[simp] theorem mountEnd_kernel (s : State) :
    (State.mountEnd s).kernel = s.kernel := by
  simp [State.mountEnd]

@[simp] theorem mountReady_kernel (s : State) (step : Nat) (g : NandGeometry) :
    (State.mountReady s step g).kernel = s.kernel := by
  unfold State.mountReady; (repeat' split) <;> simp

/-! ### DictOps -/

@[simp] theorem respond_kernel (s : State) (m : DictMsg) (r : DictResp) :
    (State.respond s m r).kernel = s.kernel := by
  simp [State.respond]

@[simp] theorem modSessions_kernel (s : State) (f : List Session → List Session) :
    (State.modSessions s f).kernel = s.kernel := by
  simp [State.modSessions]

@[simp] theorem modSession_kernel (s : State) (sid : Nat) (f : Session → Session) :
    (State.modSession s sid f).kernel = s.kernel := by
  simp [State.modSession]

@[simp] theorem dropSession_kernel (s : State) (sid : Nat) :
    (State.dropSession s sid).kernel = s.kernel := by
  simp [State.dropSession]

@[simp] theorem dictRead_kernel (s : State) (m : DictMsg) :
    (State.dictRead s m).kernel = s.kernel := by
  unfold State.dictRead; (repeat' split) <;> simp

@[simp] theorem putNum_kernel (s : State) (w : DictWrite) :
    (putNum s w).kernel = s.kernel := by
  simp [putNum]

@[simp] theorem putOcts_kernel (s : State) (w : DictWrite) :
    (putOcts s w).kernel = s.kernel := by
  simp [putOcts]

/-! ### SampleRows -/

@[simp] theorem outcome_kernel (s : State) (r : Run) (c : Context) (z0 : Context ⊕ Drop) :
    (State.outcome s r c z0).kernel = s.kernel := by
  unfold State.outcome; (repeat' split) <;> simp

@[simp] theorem blocksArrive_kernel (s : State) (n : Nat) :
    (State.blocksArrive s n).kernel = s.kernel := by
  unfold State.blocksArrive
  repeat' (first | rfl | assumption | (simp; done) | split | (refine foldl_kernel_const _ _ _ (fun _ _ => ?_)) | (refine (foldl_kernel_const _ _ _ (by intros; (repeat' split) <;> simp)).trans ?_) | (refine (foldl_kernel_const _ _ _ (fun _ _ => ?_)).trans ?_) | (refine (pair_kernel (by assumption)).trans ?_) | (refine (claim_of (by assumption)).trans ?_) | simp)

theorem stageDecode_kernel (s : State) (r : Run) (c : Context) (d : Bytes) : (stageDecode s r c d).1.kernel = s.kernel := by
  unfold stageDecode; dsimp only
  repeat' split
  all_goals simp

theorem stageDecompress_kernel (s : State) (r : Run) (c : Context) (d : Bytes) : (stageDecompress s r c d).1.kernel = s.kernel := by
  unfold stageDecompress; dsimp only
  repeat' split
  all_goals simp

theorem stageTokenize_kernel (s : State) (r : Run) (c : Context) (d : Bytes) : (stageTokenize s r c d).1.kernel = s.kernel := by
  unfold stageTokenize; dsimp only
  repeat' split
  all_goals simp

theorem stageMember_kernel (s : State) (r : Run) (c : Context) (d : Bytes) : (stageMember s r c d).1.kernel = s.kernel := by
  unfold stageMember; dsimp only
  repeat' split
  all_goals simp

theorem stageGraph_kernel (s : State) (r : Run) (c : Context) (d : Bytes) : (stageGraph s r c d).1.kernel = s.kernel := by
  unfold stageGraph; dsimp only
  repeat' split
  all_goals simp

theorem stageGather_kernel (s : State) (r : Run) (c : Context) (d : Bytes) : (stageGather s r c d).1.kernel = s.kernel := by
  unfold stageGather; dsimp only
  repeat' split
  all_goals simp

@[simp] theorem stageUnit_kernel (s : State) (r : Run) (c : Context) (d : Bytes) : (stageUnit s r c d).1.kernel = s.kernel := by
  unfold stageUnit
  split
  exacts [stageDecode_kernel .., stageDecompress_kernel .., stageTokenize_kernel .., stageMember_kernel .., stageGraph_kernel ..,
    stageGather_kernel ..]

@[simp] theorem unitResult_kernel (s : State) (n : Nat) : (State.unitResult s n).kernel = s.kernel := by
  unfold State.unitResult
  split
  · rfl
  · split
    · rfl
    · split
      · rfl
      · rename_i c _ _ r _ _
        have h := stageUnit_kernel s r c (rcpStage r.rc.image c.stage)
        revert h
        generalize stageUnit s r c (rcpStage r.rc.image c.stage) = z
        intro h
        split <;> simpa using h

@[simp] theorem capAbort_kernel (s : State) (n : Nat) :
    (State.capAbort s n).kernel = s.kernel := by
  unfold State.capAbort; (repeat' split) <;> simp

@[simp] theorem noteCrab_kernel (s : State) (c : Context) (j : Job) :
    (State.noteCrab s c j).kernel = s.kernel := by
  simp [State.noteCrab]

@[simp] theorem crabExpiry_kernel (s : State) (n : Nat) :
    (State.crabExpiry s n).kernel = s.kernel := by
  unfold State.crabExpiry; (repeat' split) <;> simp

@[simp] theorem sendPrepared_kernel (s : State) (r : Run) (c : Context) (dst : Nat) (tag : Nat) (out : Contribution) :
    (State.sendPrepared s r c dst tag out).kernel = s.kernel := by
  unfold State.sendPrepared
  repeat' (first | rfl | assumption | (simp; done) | split | (refine foldl_kernel_const _ _ _ (fun _ _ => ?_)) | (refine (foldl_kernel_const _ _ _ (by intros; (repeat' split) <;> simp)).trans ?_) | (refine (foldl_kernel_const _ _ _ (fun _ _ => ?_)).trans ?_) | (refine (pair_kernel (by assumption)).trans ?_) | (refine (claim_of (by assumption)).trans ?_) | simp)

@[simp] theorem releaseSample_kernel (s : State) (n : Nat) :
    (State.releaseSample s n).kernel = s.kernel := by
  unfold State.releaseSample; (repeat' split) <;> simp

@[simp] theorem parityFault_kernel (s : State) (unit : Nat) (addr : Nat) (sub : Nat) (phys : Option Nat) (crew : Option Nat) (sid : Nat) :
    (State.parityFault s unit addr sub phys crew sid).kernel = s.kernel := by
  unfold State.parityFault; (repeat' split) <;> simp

@[simp] theorem dropBatchWrites_kernel (s : State) (crew : Nat) (rank : Nat) (k : Nat) :
    (State.dropBatchWrites s crew rank k).kernel = s.kernel := by
  simp [State.dropBatchWrites]

@[simp] theorem remakeRow_kernel (s : State) (r : Run) (h : Hdr) (w : Rewrite) (at_ : RewriteAt) :
    (State.remakeRow s r h w at_).kernel = s.kernel := by
  unfold State.remakeRow; (repeat' split) <;> simp

@[simp] theorem batchParity_kernel (s : State) (crew : Nat) (rank : Nat) (k : Nat) (slot : Nat) (unit : Nat) (addr : Nat) :
    (State.batchParity s crew rank k slot unit addr).kernel = s.kernel := by
  unfold State.batchParity
  repeat' (first | rfl | assumption | (simp; done) | split | (refine foldl_kernel_const _ _ _ (fun _ _ => ?_)) | (refine (foldl_kernel_const _ _ _ (by intros; (repeat' split) <;> simp)).trans ?_) | (refine (foldl_kernel_const _ _ _ (fun _ _ => ?_)).trans ?_) | (refine (pair_kernel (by assumption)).trans ?_) | (refine (claim_of (by assumption)).trans ?_) | simp)

@[simp] theorem heatParity_kernel (s : State) (crew : Nat) (rank : Nat) (epoch : Nat) (heat : Nat) (index : Nat) (unit : Nat) (addr : Nat) :
    (State.heatParity s crew rank epoch heat index unit addr).kernel = s.kernel := by
  unfold State.heatParity; (repeat' split) <;> simp

@[simp] theorem copyGranule_kernel (s : State) (dset : Nat) (i : Nat) (g : Nat) :
    (State.copyGranule s dset i g).kernel = s.kernel := by
  unfold State.copyGranule; (repeat' split) <;> simp

@[simp] theorem residentParity_kernel (s : State) (n : Nat) (dset : Nat) (i : Nat) (g : Nat) (unit : Nat) (addr : Nat) :
    (State.residentParity s n dset i g unit addr).kernel = s.kernel := by
  unfold State.residentParity; (repeat' split) <;> simp

@[simp] theorem parity_kernel (s : State) (z0 : ParityAt) :
    (State.parity s z0).kernel = s.kernel := by
  unfold State.parity; (repeat' split) <;> simp

@[simp] theorem noResponse_kernel (s : State) (n : Nat) :
    (State.noResponse s n).kernel = s.kernel := by
  unfold State.noResponse; (repeat' split) <;> simp

/-! ### PoolRows -/

@[simp] theorem request_kernel (s : State) (use : BufUse) (holder : Nat) (bytes : Nat) :
    (State.request s use holder bytes).kernel = s.kernel := by
  unfold State.request
  repeat' (first | rfl | assumption | (simp; done) | split | (refine foldl_kernel_const _ _ _ (fun _ _ => ?_)) | (refine (foldl_kernel_const _ _ _ (by intros; (repeat' split) <;> simp)).trans ?_) | (refine (foldl_kernel_const _ _ _ (fun _ _ => ?_)).trans ?_) | (refine (pair_kernel (by assumption)).trans ?_) | (refine (claim_of (by assumption)).trans ?_) | simp)

@[simp] theorem freeBuffer_kernel (s : State) (requester : Nat) (id : Nat) :
    (State.freeBuffer s requester id).kernel = s.kernel := by
  unfold State.freeBuffer; (repeat' split) <;> simp

@[simp] theorem addOwner_kernel (s : State) (owner : Nat) (id : Nat) :
    (State.addOwner s owner id).kernel = s.kernel := by
  unfold State.addOwner; (repeat' split) <;> simp

@[simp] theorem tendCache_kernel (s : State) (tier : Nat) (pool : Nat) (cls : Nat) :
    (State.tendCache s tier pool cls).kernel = s.kernel := by
  simp [State.tendCache]

@[simp] theorem exhaustedPool_kernel (s : State) (cls : Nat) (tier : Nat) (pool : Nat) :
    (State.exhaustedPool s cls tier pool).kernel = s.kernel := by
  simp [State.exhaustedPool]

@[simp] theorem quarantineDone_kernel (s : State) (b : Nat) (passed : Bool) :
    (State.quarantineDone s b passed).kernel = s.kernel := by
  simp [State.quarantineDone]

/-! ### PortRows -/

@[simp] theorem portComesUp_kernel (s : State) (n : Nat) :
    (State.portComesUp s n).kernel = s.kernel := by
  unfold State.portComesUp; (repeat' split) <;> simp

@[simp] theorem portTrained_kernel (s : State) (n : Nat) (r : TrainResult) :
    (State.portTrained s n r).kernel = s.kernel := by
  unfold State.portTrained
  repeat' (first | rfl | assumption | (simp; done) | split | (refine foldl_kernel_const _ _ _ (fun _ _ => ?_)) | (refine (foldl_kernel_const _ _ _ (by intros; (repeat' split) <;> simp)).trans ?_) | (refine (foldl_kernel_const _ _ _ (fun _ _ => ?_)).trans ?_) | (refine (pair_kernel (by assumption)).trans ?_) | (refine (claim_of (by assumption)).trans ?_) | simp)

@[simp] theorem lanesLost_kernel (s : State) (n : Nat) (lanes : Nat) :
    (State.lanesLost s n lanes).kernel = s.kernel := by
  unfold State.lanesLost; (repeat' split) <;> simp

@[simp] theorem overheadEnds_kernel (s : State) (n : Nat) :
    (State.overheadEnds s n).kernel = s.kernel := by
  simp [State.overheadEnds]

@[simp] theorem fecCorrects_kernel (s : State) (n : Nat) (k : Nat) :
    (State.fecCorrects s n k).kernel = s.kernel := by
  simp [State.fecCorrects]

@[simp] theorem handshakeFlit_kernel (s : State) (n : Nat) (f : Bytes) :
    (State.handshakeFlit s n f).kernel = s.kernel := by
  unfold State.handshakeFlit; (repeat' split) <;> simp

@[simp] theorem nak_kernel (s : State) (n : Nat) :
    (State.nak s n).kernel = s.kernel := by
  simp [State.nak]

@[simp] theorem acknowledge_kernel (s : State) (n : Nat) :
    (State.acknowledge s n).kernel = s.kernel := by
  unfold State.acknowledge; (repeat' split) <;> simp

@[simp] theorem dataFlit_kernel (s : State) (n : Nat) (f : Bytes) :
    (State.dataFlit s n f).kernel = s.kernel := by
  unfold State.dataFlit; (repeat' split) <;> simp

@[simp] theorem idleFlit_kernel (s : State) (n : Nat) (f : Bytes) :
    (State.idleFlit s n f).kernel = s.kernel := by
  unfold State.idleFlit; (repeat' split) <;> simp

@[simp] theorem nakFlit_kernel (s : State) (n : Nat) (f : Bytes) :
    (State.nakFlit s n f).kernel = s.kernel := by
  unfold State.nakFlit; (repeat' split) <;> simp

@[simp] theorem nakAgain_kernel (s : State) (n : Nat) :
    (State.nakAgain s n).kernel = s.kernel := by
  unfold State.nakAgain; (repeat' split) <;> simp

@[simp] theorem replayTimedOut_kernel (s : State) (n : Nat) :
    (State.replayTimedOut s n).kernel = s.kernel := by
  simp [State.replayTimedOut]

@[simp] theorem returnCredit_kernel (s : State) (n : Nat) (vc : Nat) :
    (State.returnCredit s n vc).kernel = s.kernel := by
  unfold State.returnCredit; (repeat' split) <;> simp

@[simp] theorem badSample_kernel (s : State) (src : Nat) :
    (State.badSample s src).kernel = s.kernel := by
  unfold State.badSample; (repeat' split) <;> simp

@[simp] theorem routePacket_kernel (s : State) (n : Nat) (p : Bytes) :
    (State.routePacket s n p).kernel = s.kernel := by
  simp [State.routePacket]

@[simp] theorem packetIn_kernel (s : State) (n : Nat) (vc : Nat) :
    (State.packetIn s n vc).kernel = s.kernel := by
  unfold State.packetIn
  repeat' (first | rfl | assumption | (simp; done) | split | (refine foldl_kernel_const _ _ _ (fun _ _ => ?_)) | (refine (foldl_kernel_const _ _ _ (by intros; (repeat' split) <;> simp)).trans ?_) | (refine (foldl_kernel_const _ _ _ (fun _ _ => ?_)).trans ?_) | (refine (pair_kernel (by assumption)).trans ?_) | (refine (claim_of (by assumption)).trans ?_) | simp)

/-! ### DomainRows -/

@[simp] theorem probe_kernel (s : State) (route : List Nat) :
    (State.probe s route).kernel = s.kernel := by
  unfold State.probe; (repeat' split) <;> simp

@[simp] theorem beginForm_kernel (s : State) (c : Cmd) :
    (State.beginForm s c).kernel = s.kernel := by
  unfold State.beginForm
  repeat' (first | rfl | assumption | (simp; done) | split | (refine foldl_kernel_const _ _ _ (fun _ _ => ?_)) | (refine (foldl_kernel_const _ _ _ (by intros; (repeat' split) <;> simp)).trans ?_) | (refine (foldl_kernel_const _ _ _ (fun _ _ => ?_)).trans ?_) | (refine (pair_kernel (by assumption)).trans ?_) | (refine (claim_of (by assumption)).trans ?_) | simp)

@[simp] theorem endForm_kernel (s : State) (c : Cmd) :
    (State.endForm s c).kernel = s.kernel := by
  simp [State.endForm]

@[simp] theorem nextDepth_kernel (s : State) (c : Cmd) :
    (State.nextDepth s c).kernel = s.kernel := by
  unfold State.nextDepth; dsimp only
  repeat' (first | rfl | assumption | (simp; done) | split | (refine foldl_kernel_const _ _ _ (fun _ _ => ?_)) | (refine (foldl_kernel_const _ _ _ (by intros; (repeat' split) <;> simp)).trans ?_) | (refine (foldl_kernel_const _ _ _ (fun _ _ => ?_)).trans ?_) | (refine (pair_kernel (by assumption)).trans ?_) | (refine (claim_of (by assumption)).trans ?_) | simp)

@[simp] theorem formDomain_kernel (s : State) (q : Nat) (i : Nat) :
    (State.formDomain s q i).kernel = s.kernel := by
  unfold State.formDomain; (repeat' split) <;> simp

@[simp] theorem dissolveDomain_kernel (s : State) (c : Cmd) :
    (State.dissolveDomain s c).kernel = s.kernel := by
  unfold State.dissolveDomain; (repeat' split) <;> simp

@[simp] theorem beginDomainRegister_kernel (s : State) (c : Cmd) :
    (State.beginDomainRegister s c).kernel = s.kernel := by
  unfold State.beginDomainRegister
  repeat' (first | rfl | assumption | (simp; done) | split | (refine foldl_kernel_const _ _ _ (fun _ _ => ?_)) | (refine (foldl_kernel_const _ _ _ (by intros; (repeat' split) <;> simp)).trans ?_) | (refine (foldl_kernel_const _ _ _ (fun _ _ => ?_)).trans ?_) | (refine (pair_kernel (by assumption)).trans ?_) | (refine (claim_of (by assumption)).trans ?_) | simp)

@[simp] theorem registerDomain_kernel (s : State) (c : Cmd) :
    (State.registerDomain s c).kernel = s.kernel := by
  unfold State.registerDomain; dsimp only; (repeat' split) <;> simp (disch := intros; (repeat' split) <;> simp [*]) [foldl_kernel_const]

@[simp] theorem sendReport_kernel (s : State) :
    (State.sendReport s).kernel = s.kernel := by
  simp [State.sendReport]

theorem takeInbox_of {s t : State} {n a b} (h : s.takeInbox n = some (a, b, t)) : t.kernel = s.kernel := by
  revert h; unfold State.takeInbox
  split <;> (intro h; cases h)
  simp

@[simp] theorem takeReport_kernel (s : State) : (State.takeReport s).kernel = s.kernel := by
  unfold State.takeReport; dsimp only
  split
  · rfl
  · rename_i h
    refine Eq.trans ?_ (takeInbox_of h)
    repeat' split
    all_goals simp

@[simp] theorem reportTimeout_kernel (s : State) (id : Nat) :
    (State.reportTimeout s id).kernel = s.kernel := by
  simp [State.reportTimeout]

@[simp] theorem endProbation_kernel (s : State) (id : Nat) :
    (State.endProbation s id).kernel = s.kernel := by
  simp [State.endProbation]

@[simp] theorem controlId_kernel (s : State) (ops : Bytes) :
    (State.controlId s ops).kernel = s.kernel := by
  simp [State.controlId]

@[simp] theorem controlOpen_kernel (s : State) (src job : Nat) (ops : Bytes) : (State.controlOpen s src job ops).kernel = s.kernel := by
  unfold State.controlOpen; dsimp only
  split
  · split
    · rfl
    · exact (foldl_kernel_const _ _ _ fun _ _ => openEpoch_kernel _ _ _).trans (by simp)
  · split
    · rfl
    · split
      · simp
      · rename_i h
        simpa using claim_of _ _ h
  · split <;> simp
  · rfl

@[simp] theorem controlEpoch_kernel (s : State) (job : Nat) (ops : Bytes) :
    (State.controlEpoch s job ops).kernel = s.kernel := by
  simp [State.controlEpoch]

@[simp] theorem controlAbort_kernel (s : State) (job : Nat) (ops : Bytes) :
    (State.controlAbort s job ops).kernel = s.kernel := by
  unfold State.controlAbort
  repeat' (first | rfl | assumption | (simp; done) | split | (refine foldl_kernel_const _ _ _ (fun _ _ => ?_)) | (refine (foldl_kernel_const _ _ _ (by intros; (repeat' split) <;> simp)).trans ?_) | (refine (foldl_kernel_const _ _ _ (fun _ _ => ?_)).trans ?_) | (refine (pair_kernel (by assumption)).trans ?_) | (refine (claim_of (by assumption)).trans ?_) | simp)

@[simp] theorem controlExpel_kernel (s : State) (ops : Bytes) :
    (State.controlExpel s ops).kernel = s.kernel := by
  simp [State.controlExpel]

@[simp] theorem controlProbation_kernel (s : State) (ops : Bytes) :
    (State.controlProbation s ops).kernel = s.kernel := by
  simp [State.controlProbation]

@[simp] theorem takeControl_kernel (s : State) : (State.takeControl s).kernel = s.kernel := by
  unfold State.takeControl; dsimp only
  split
  · rfl
  · rename_i h
    refine Eq.trans ?_ (takeInbox_of h)
    repeat' split
    all_goals simp

@[simp] theorem answerProbe_kernel (s : State) (port : Nat) (p : Bytes) :
    (State.answerProbe s port p).kernel = s.kernel := by
  simp [State.answerProbe]

@[simp] theorem takeProbe_kernel (s : State) : (State.takeProbe s).kernel = s.kernel := by
  unfold State.takeProbe; dsimp only
  split
  · rfl
  · rename_i h
    refine Eq.trans ?_ (takeInbox_of h)
    repeat' split
    all_goals simp

@[simp] theorem takePrepare_kernel (s : State) : (State.takePrepare s).kernel = s.kernel := by
  unfold State.takePrepare; dsimp only
  split
  · rfl
  · rename_i h
    repeat' split
    all_goals first | rfl | (exact takeInbox_of h) | skip
    all_goals
      rw [startCtx_kernel]
      exact ((pair_kernel (by assumption)).trans (drawWorking_kernel ..)).trans (takeInbox_of h)

@[simp] theorem arrive_kernel (s : State) (c : Context) (r : Run) (src : Nat) (bytes : Bytes) (probation : Bool) :
    (State.arrive s c r src bytes probation).kernel = s.kernel := by
  simp [State.arrive]

@[simp] theorem differing_kernel (s : State) (a : Nat) (b : Nat) :
    (State.differing s a b).kernel = s.kernel := by
  unfold State.differing
  repeat' (first | rfl | assumption | (simp; done) | split | (refine foldl_kernel_const _ _ _ (fun _ _ => ?_)) | (refine (foldl_kernel_const _ _ _ (by intros; (repeat' split) <;> simp)).trans ?_) | (refine (foldl_kernel_const _ _ _ (fun _ _ => ?_)).trans ?_) | (refine (pair_kernel (by assumption)).trans ?_) | (refine (claim_of (by assumption)).trans ?_) | simp)

@[simp] theorem wholeSample_kernel (s : State) (src : Nat) (tag : Nat) (coded : Bool) (got : Bytes) :
    (State.wholeSample s src tag coded got).kernel = s.kernel := by
  unfold State.wholeSample; (repeat' split) <;> simp

@[simp] theorem takePrepared_kernel (s : State) : (State.takePrepared s).kernel = s.kernel := by
  unfold State.takePrepared; dsimp only
  split
  · rfl
  · rename_i h
    repeat' split
    all_goals first | rfl | simp [takeInbox_of h]

@[simp] theorem storeCopy_kernel (s : State) (dset : Nat) (shard : Nat) (b : Bytes) :
    (State.storeCopy s dset shard b).kernel = s.kernel := by
  unfold State.storeCopy
  repeat' (first | rfl | assumption | (simp; done) | split | (refine foldl_kernel_const _ _ _ (fun _ _ => ?_)) | (refine (foldl_kernel_const _ _ _ (by intros; (repeat' split) <;> simp)).trans ?_) | (refine (foldl_kernel_const _ _ _ (fun _ _ => ?_)).trans ?_) | (refine (pair_kernel (by assumption)).trans ?_) | (refine (claim_of (by assumption)).trans ?_) | simp)

@[simp] theorem dropCopy_kernel (s : State) (dset : Nat) (shard : Nat) :
    (State.dropCopy s dset shard).kernel = s.kernel := by
  simp [State.dropCopy]

@[simp] theorem takeDomainTables_kernel (s : State) (dset : Nat) :
    (State.takeDomainTables s dset).kernel = s.kernel := by
  unfold State.takeDomainTables
  repeat' (first | rfl | assumption | (simp; done) | split | (refine foldl_kernel_const _ _ _ (fun _ _ => ?_)) | (refine (foldl_kernel_const _ _ _ (by intros; (repeat' split) <;> simp)).trans ?_) | (refine (foldl_kernel_const _ _ _ (fun _ _ => ?_)).trans ?_) | (refine (pair_kernel (by assumption)).trans ?_) | (refine (claim_of (by assumption)).trans ?_) | simp)

@[simp] theorem takeExchange_kernel (s : State) : (State.takeExchange s).kernel = s.kernel := by
  unfold State.takeExchange; dsimp only
  split
  · rfl
  · rename_i h
    refine Eq.trans ?_ (takeInbox_of h)
    repeat' split
    all_goals simp

@[simp] theorem copyHeld_kernel (s : State) (dset : Nat) (shard : Nat) :
    (State.copyHeld s dset shard).kernel = s.kernel := by
  unfold State.copyHeld; (repeat' split) <;> simp

@[simp] theorem copyDone_kernel (s : State) (dset : Nat) (shard : Nat) :
    (State.copyDone s dset shard).kernel = s.kernel := by
  unfold State.copyDone; (repeat' split) <;> simp

@[simp] theorem copyWhole_kernel (s : State) (dset : Nat) (shard : Nat) :
    (State.copyWhole s dset shard).kernel = s.kernel := by
  simp [State.copyWhole]

@[simp] theorem openTimeout_kernel (s : State) (crew : Nat) :
    (State.openTimeout s crew).kernel = s.kernel := by
  unfold State.openTimeout; (repeat' split) <;> simp

/-! ### DictRows -/

@[simp] theorem dictOpen_kernel (s : State) (m : DictMsg) :
    (State.dictOpen s m).kernel = s.kernel := by
  simp [State.dictOpen]

@[simp] theorem proveFailed_kernel (s : State) (m : DictMsg) (x : Option Session) :
    (State.proveFailed s m x).kernel = s.kernel := by
  simp [State.proveFailed]

@[simp] theorem dictProve_kernel (s : State) (m : DictMsg) :
    (State.dictProve s m).kernel = s.kernel := by
  unfold State.dictProve; (repeat' split) <;> simp

@[simp] theorem dictClose_kernel (s : State) (m : DictMsg) :
    (State.dictClose s m).kernel = s.kernel := by
  unfold State.dictClose; (repeat' split) <;> simp

@[simp] theorem sessionTimedOut_kernel (s : State) (sid : Nat) (opened : Bool) :
    (State.sessionTimedOut s sid opened).kernel = s.kernel := by
  unfold State.sessionTimedOut; (repeat' split) <;> simp

@[simp] theorem settleBucket_kernel (s : State) (port : Nat) (q : Nat) (f : TxQueue → TxQueue) :
    (State.settleBucket s port q f).kernel = s.kernel := by
  simp [State.settleBucket]

@[simp] theorem plainAct_kernel (s : State) (w : DictWrite) :
    (plainAct s w).kernel = s.kernel := by
  unfold plainAct; (repeat' split) <;> simp

@[simp] theorem closeSlot_kernel (s : State) (w : DictWrite) :
    (closeSlot s w).kernel = s.kernel := by
  simp [closeSlot]

@[simp] theorem remodePort_kernel (s : State) (n : Nat) :
    (State.remodePort s n).kernel = s.kernel := by
  simp [State.remodePort]

@[simp] theorem eachQueue_kernel (s : State) (f : State → Nat → Nat → State) (hf : ∀ t n q, (f t n q).kernel = t.kernel) :
    (s.eachQueue f).kernel = s.kernel :=
  foldl_kernel_const _ _ _ fun t n => foldl_kernel_const _ _ t fun t q => hf t n q

@[simp] theorem settleBuckets_kernel (s : State) :
    (State.settleBuckets s).kernel = s.kernel := by
  simp [State.settleBuckets]

@[simp] theorem capBuckets_kernel (s : State) :
    (State.capBuckets s).kernel = s.kernel := by
  simp [State.capBuckets]

@[simp] theorem remodePorts_kernel (s : State) (changed : List Nat) :
    (State.remodePorts s changed).kernel = s.kernel := by
  unfold State.remodePorts
  repeat' (first | rfl | assumption | (simp; done) | split | (refine foldl_kernel_const _ _ _ (fun _ _ => ?_)) | (refine (foldl_kernel_const _ _ _ (by intros; (repeat' split) <;> simp)).trans ?_) | (refine (foldl_kernel_const _ _ _ (fun _ _ => ?_)).trans ?_) | (refine (pair_kernel (by assumption)).trans ?_) | (refine (claim_of (by assumption)).trans ?_) | simp)

@[simp] theorem restoreDefaults_kernel (s : State) (y1 : DictWrite) :
    (restoreDefaults s y1).kernel = s.kernel := by
  simp [restoreDefaults]

@[simp] theorem emptyKeys_kernel (s : State) (y1 : DictWrite) :
    (emptyKeys s y1).kernel = s.kernel := by
  simp [emptyKeys]

@[simp] theorem closeSlots_kernel (s : State) (y1 : DictWrite) :
    (closeSlots s y1).kernel = s.kernel := by
  simp [closeSlots]

@[simp] theorem calibrate_kernel (s : State) (w : DictWrite) :
    (calibrate s w).kernel = s.kernel := by
  simp [calibrate]

@[simp] theorem installLicence_kernel (s : State) (w : DictWrite) :
    (installLicence s w).kernel = s.kernel := by
  unfold installLicence; (repeat' split) <;> simp

@[simp] theorem enableLicence_kernel (s : State) (w : DictWrite) :
    (enableLicence s w).kernel = s.kernel := by
  unfold enableLicence; (repeat' split) <;> simp

@[simp] theorem removeLicence_kernel (s : State) (w : DictWrite) :
    (removeLicence s w).kernel = s.kernel := by
  unfold removeLicence; (repeat' split) <;> simp

@[simp] theorem beginFormat_kernel (s : State) (y1 : DictWrite) :
    (beginFormat s y1).kernel = s.kernel := by
  simp [beginFormat]

@[simp] theorem ackFaults_kernel (s : State) (w : DictWrite) :
    (ackFaults s w).kernel = s.kernel := by
  simp [ackFaults]

@[simp] theorem setMode_kernel (s : State) (w : DictWrite) :
    (setMode s w).kernel = s.kernel := by
  simp [setMode]

@[simp] theorem retrainPort_kernel (s : State) (w : DictWrite) :
    (retrainPort s w).kernel = s.kernel := by
  unfold retrainPort
  repeat' (first | rfl | assumption | (simp; done) | split | (refine foldl_kernel_const _ _ _ (fun _ _ => ?_)) | (refine (foldl_kernel_const _ _ _ (by intros; (repeat' split) <;> simp)).trans ?_) | (refine (foldl_kernel_const _ _ _ (fun _ _ => ?_)).trans ?_) | (refine (pair_kernel (by assumption)).trans ?_) | (refine (claim_of (by assumption)).trans ?_) | simp)

@[simp] theorem setBurst_kernel (s : State) (w : DictWrite) :
    (setBurst s w).kernel = s.kernel := by
  simp [setBurst]

@[simp] theorem spdmEffect_kernel (s : State) (t : Transport) (r : SpdmReq) :
    (State.spdmEffect s t r).kernel = s.kernel := by
  unfold State.spdmEffect; (repeat' split) <;> simp

@[simp] theorem spdm_kernel (s : State) (t : Transport) (r : SpdmReq) :
    (State.spdm s t r).kernel = s.kernel := by
  simp [State.spdm]

/-! ### FaultRows -/

@[simp] theorem reactedTo_kernel (s : State) (f : State → State) (hf : ∀ v0, (f v0).kernel = v0.kernel) :
    (State.reactedTo s f).kernel = s.kernel := by
  simp [State.reactedTo, hf]

@[simp] theorem faultIn_kernel (s : State) (f : FaultIn) (fresh : Bool) :
    (State.faultIn s f fresh).kernel = s.kernel := by
  simp [State.faultIn]

@[simp] theorem flushWindow_kernel (s : State) (unit : Nat) (sub : Nat) (kind : Nat) (phys : Nat) :
    (State.flushWindow s unit sub kind phys).kernel = s.kernel := by
  unfold State.flushWindow
  repeat' (first | rfl | assumption | (simp; done) | split | (refine foldl_kernel_const _ _ _ (fun _ _ => ?_)) | (refine (foldl_kernel_const _ _ _ (by intros; (repeat' split) <;> simp)).trans ?_) | (refine (foldl_kernel_const _ _ _ (fun _ _ => ?_)).trans ?_) | (refine (pair_kernel (by assumption)).trans ?_) | (refine (claim_of (by assumption)).trans ?_) | simp)

@[simp] theorem halveScores_kernel (s : State) :
    (State.halveScores s).kernel = s.kernel := by
  simp [State.halveScores]

@[simp] theorem fenceWindowEnds_kernel (s : State) (crew : Nat) :
    (State.fenceWindowEnds s crew).kernel = s.kernel := by
  simp [State.fenceWindowEnds]

@[simp] theorem commonCauseEnds_kernel (s : State) :
    (State.commonCauseEnds s).kernel = s.kernel := by
  simp [State.commonCauseEnds]

/-! ### HostRows -/

@[simp] theorem astsWrite_kernel (s : State) (value : BitVec 32) (setSameCycle : Bool) :
    (State.astsWrite s value setSameCycle).kernel = s.kernel := by
  simp [State.astsWrite]

@[simp] theorem cacheLine_kernel (s : State) (n : Nat) :
    (State.cacheLine s n).kernel = s.kernel := by
  simp [State.cacheLine]

@[simp] theorem lineRead_kernel (s : State) (z0 : WatchedLine) :
    (State.lineRead s z0).kernel = s.kernel := by
  unfold State.lineRead; (repeat' split) <;> simp

@[simp] theorem dmaFailed_kernel (s : State) (p : DmaPurpose) :
    (State.dmaFailed s p).kernel = s.kernel := by
  unfold State.dmaFailed; (repeat' split) <;> simp

@[simp] theorem ideFailed_kernel (s : State) (stream : Nat) :
    (State.ideFailed s stream).kernel = s.kernel := by
  simp [State.ideFailed]

/-! ### IngestRows -/

@[simp] theorem openIngest_kernel (s : State) (c : Cmd) :
    (State.openIngest s c).kernel = s.kernel := by
  unfold State.openIngest
  repeat' (first | rfl | assumption | (simp; done) | split | (refine foldl_kernel_const _ _ _ (fun _ _ => ?_)) | (refine (foldl_kernel_const _ _ _ (by intros; (repeat' split) <;> simp)).trans ?_) | (refine (foldl_kernel_const _ _ _ (fun _ _ => ?_)).trans ?_) | (refine (pair_kernel (by assumption)).trans ?_) | (refine (claim_of (by assumption)).trans ?_) | simp)

@[simp] theorem modIngest_kernel (s : State) (n : Nat) (f : Ingest → Ingest) :
    (State.modIngest s n f).kernel = s.kernel := by
  simp [State.modIngest]

@[simp] theorem settleIngest_kernel (s : State) (n : Nat) :
    (State.settleIngest s n).kernel = s.kernel := by
  unfold State.settleIngest
  repeat' (first | rfl | assumption | (simp; done) | split | (refine foldl_kernel_const _ _ _ (fun _ _ => ?_)) | (refine (foldl_kernel_const _ _ _ (by intros; (repeat' split) <;> simp)).trans ?_) | (refine (foldl_kernel_const _ _ _ (fun _ _ => ?_)).trans ?_) | (refine (pair_kernel (by assumption)).trans ?_) | (refine (claim_of (by assumption)).trans ?_) | simp)

@[simp] theorem noteSeqs_kernel (s : State) (g : Ingest) (seqs : List Nat) :
    (State.noteSeqs s g seqs).kernel = s.kernel := by
  unfold State.noteSeqs
  repeat' (first | rfl | assumption | (simp; done) | split | (refine foldl_kernel_const _ _ _ (fun _ _ => ?_)) | (refine (foldl_kernel_const _ _ _ (by intros; (repeat' split) <;> simp)).trans ?_) | (refine (foldl_kernel_const _ _ _ (fun _ _ => ?_)).trans ?_) | (refine (pair_kernel (by assumption)).trans ?_) | (refine (claim_of (by assumption)).trans ?_) | simp)

@[simp] theorem ingestBlock_kernel (s : State) (n : Nat) :
    (State.ingestBlock s n).kernel = s.kernel := by
  unfold State.ingestBlock; dsimp only; (repeat' split) <;> simp (disch := intros; (repeat' split) <;> simp [*]) [foldl_kernel_const]

@[simp] theorem compress_kernel (s : State) (z0 : BlockStream) :
    (State.compress s z0).kernel = s.kernel := by
  unfold State.compress; (repeat' split) <;> simp

@[simp] theorem ingestData_kernel (s : State) (c : Cmd) : (State.ingestData s c).kernel = s.kernel := by
  unfold State.ingestData
  refine mediaCmd_kernel _ _ _ _ fun t => ?_
  dsimp only
  repeat' split
  all_goals simp

@[simp] theorem closeIngest_kernel (s : State) (c : Cmd) :
    (State.closeIngest s c).kernel = s.kernel := by
  unfold State.closeIngest; (repeat' split) <;> simp

/-! ### JobRows -/

@[simp] theorem rejectLoad_kernel (s : State) (c : Cmd) (f : LoadFail) :
    (State.rejectLoad s c f).kernel = s.kernel := by
  simp [State.rejectLoad]

@[simp] theorem loadCmd_kernel (s : State) (c : Cmd) : (State.loadCmd s c).kernel = s.kernel := by
  unfold State.loadCmd
  refine jobCmd_kernel _ _ _ _ fun k => ?_
  dsimp only
  repeat' split
  all_goals simp
  exact (pair_kernel (by assumption)).trans (takeTables_kernel ..)

@[simp] theorem tablesBuilt_kernel (s : State) (crew : Nat) :
    (State.tablesBuilt s crew).kernel = s.kernel := by
  unfold State.tablesBuilt
  repeat' (first | rfl | assumption | (simp; done) | split | (refine foldl_kernel_const _ _ _ (fun _ _ => ?_)) | (refine (foldl_kernel_const _ _ _ (by intros; (repeat' split) <;> simp)).trans ?_) | (refine (foldl_kernel_const _ _ _ (fun _ _ => ?_)).trans ?_) | (refine (pair_kernel (by assumption)).trans ?_) | (refine (claim_of (by assumption)).trans ?_) | simp)

@[simp] theorem openCmd_kernel (s : State) (c : Cmd) :
    (State.openCmd s c).kernel = s.kernel := by
  simp [State.openCmd]

@[simp] theorem requestCmd_kernel (s : State) (c : Cmd) : (State.requestCmd s c).kernel = s.kernel := by
  unfold State.requestCmd
  refine jobCmd_kernel _ _ _ _ fun k => ?_
  dsimp only
  repeat' split
  all_goals simp

@[simp] theorem suspendCmd_kernel (s : State) (c : Cmd) :
    (State.suspendCmd s c).kernel = s.kernel := by
  unfold State.suspendCmd; dsimp only; (repeat' split) <;> simp (disch := intros; (repeat' split) <;> simp [*]) [foldl_kernel_const]

@[simp] theorem suspendDrained_kernel (s : State) (crew : Nat) :
    (State.suspendDrained s crew).kernel = s.kernel := by
  unfold State.suspendDrained; (repeat' split) <;> simp

@[simp] theorem resumeCmd_kernel (s : State) (c : Cmd) :
    (State.resumeCmd s c).kernel = s.kernel := by
  simp [State.resumeCmd]

@[simp] theorem closeCmd_kernel (s : State) (c : Cmd) :
    (State.closeCmd s c).kernel = s.kernel := by
  unfold State.closeCmd; dsimp only; (repeat' split) <;> simp (disch := intros; (repeat' split) <;> simp [*]) [foldl_kernel_const]

@[simp] theorem closeDrained_kernel (s : State) (crew : Nat) :
    (State.closeDrained s crew).kernel = s.kernel := by
  unfold State.closeDrained; (repeat' split) <;> simp

@[simp] theorem resetCmd_kernel (s : State) (c : Cmd) :
    (State.resetCmd s c).kernel = s.kernel := by
  unfold State.resetCmd; (repeat' split) <;> simp

/-! ### MediaRows -/

@[simp] theorem raiseLun_kernel (s : State) (l : Loc) (kind : Nat) (addr : Nat) :
    (State.raiseLun s l kind addr).kernel = s.kernel := by
  simp [State.raiseLun]

@[simp] theorem readStage_kernel (s : State) (space : Nat) (lmu : Nat) (stage : Nat) (l : Loc) :
    (State.readStage s space lmu stage l).kernel = s.kernel := by
  unfold State.readStage
  dsimp only
  split
  · rw [raiseLun_kernel]; rfl
  · rw [raiseLun_kernel, setMedia_kernel]
  · rw [raise_kernel, setMedia_kernel, useFree_kernel]
  · rfl

@[simp] theorem landPage_kernel (s : State) (l : Loc) :
    (State.landPage s l).kernel = s.kernel := by
  simp [State.landPage]

@[simp] theorem renameSeq_kernel (s : State) (old : Nat) (new : Nat) :
    (State.renameSeq s old new).kernel = s.kernel := by
  simp [State.renameSeq]

@[simp] theorem failWrite_kernel (s : State) (c : Cmd) :
    (State.failWrite s c).kernel = s.kernel := by
  simp [State.failWrite]

@[simp] theorem writeFault_kernel (s : State) (p : Page) :
    (State.writeFault s p).kernel = s.kernel := by
  unfold State.writeFault
  repeat' (first | rfl | assumption | (simp; done) | split | (refine foldl_kernel_const _ _ _ (fun _ _ => ?_)) | (refine (foldl_kernel_const _ _ _ (by intros; (repeat' split) <;> simp)).trans ?_) | (refine (foldl_kernel_const _ _ _ (fun _ _ => ?_)).trans ?_) | (refine (pair_kernel (by assumption)).trans ?_) | (refine (claim_of (by assumption)).trans ?_) | simp)

@[simp] theorem programFailed_kernel (s : State) (p : Page) :
    (State.programFailed s p).kernel = s.kernel := by
  unfold State.programFailed; dsimp only; (repeat' split) <;> simp (disch := intros; (repeat' split) <;> simp [*]) [foldl_kernel_const]

@[simp] theorem stoppedFailure_kernel (s : State) (p : Page) :
    (State.stoppedFailure s p).kernel = s.kernel := by
  unfold State.stoppedFailure
  repeat' (first | rfl | assumption | (simp; done) | split | (refine foldl_kernel_const _ _ _ (fun _ _ => ?_)) | (refine (foldl_kernel_const _ _ _ (by intros; (repeat' split) <;> simp)).trans ?_) | (refine (foldl_kernel_const _ _ _ (fun _ _ => ?_)).trans ?_) | (refine (pair_kernel (by assumption)).trans ?_) | (refine (claim_of (by assumption)).trans ?_) | simp)

@[simp] theorem patrol_kernel (s : State) (g : Nat) (k : Nat) (slot : Nat) (stage : Nat) (bits : Nat) :
    (State.patrol s g k slot stage bits).kernel = s.kernel := by
  unfold State.patrol
  repeat' (first | rfl | assumption | (simp; done) | split | (refine foldl_kernel_const _ _ _ (fun _ _ => ?_)) | (refine (foldl_kernel_const _ _ _ (by intros; (repeat' split) <;> simp)).trans ?_) | (refine (foldl_kernel_const _ _ _ (fun _ _ => ?_)).trans ?_) | (refine (pair_kernel (by assumption)).trans ?_) | (refine (claim_of (by assumption)).trans ?_) | simp)

@[simp] theorem formatEnd_kernel (s : State) :
    (State.formatEnd s).kernel = s.kernel := by
  unfold State.formatEnd
  repeat' (first | rfl | assumption | (simp; done) | split | (refine foldl_kernel_const _ _ _ (fun _ _ => ?_)) | (refine (foldl_kernel_const _ _ _ (by intros; (repeat' split) <;> simp)).trans ?_) | (refine (foldl_kernel_const _ _ _ (fun _ _ => ?_)).trans ?_) | (refine (pair_kernel (by assumption)).trans ?_) | (refine (claim_of (by assumption)).trans ?_) | simp)

/-! ### PowerRows -/

@[simp] theorem quietMedia_kernel (s : State) (ps3 : Bool) :
    (State.quietMedia s ps3).kernel = s.kernel := by
  simp [State.quietMedia]

@[simp] theorem emptyCrews_kernel (s : State) :
    (State.emptyCrews s).kernel = s.kernel := by
  simp [State.emptyCrews]

@[simp] theorem sleepPorts_kernel (s : State) :
    (State.sleepPorts s).kernel = s.kernel := by
  unfold State.sleepPorts
  repeat' (first | rfl | assumption | (simp; done) | split | (refine foldl_kernel_const _ _ _ (fun _ _ => ?_)) | (refine (foldl_kernel_const _ _ _ (by intros; (repeat' split) <;> simp)).trans ?_) | (refine (foldl_kernel_const _ _ _ (fun _ _ => ?_)).trans ?_) | (refine (pair_kernel (by assumption)).trans ?_) | (refine (claim_of (by assumption)).trans ?_) | simp)

@[simp] theorem wakePorts_kernel (s : State) :
    (State.wakePorts s).kernel = s.kernel := by
  unfold State.wakePorts
  repeat' (first | rfl | assumption | (simp; done) | split | (refine foldl_kernel_const _ _ _ (fun _ _ => ?_)) | (refine (foldl_kernel_const _ _ _ (by intros; (repeat' split) <;> simp)).trans ?_) | (refine (foldl_kernel_const _ _ _ (fun _ _ => ?_)).trans ?_) | (refine (pair_kernel (by assumption)).trans ?_) | (refine (claim_of (by assumption)).trans ?_) | simp)

/-! ### Step -/

@[simp] theorem withFetchWord_kernel (s : State) (nbits : Nat) (w : Nat) :
    (State.withFetchWord s nbits w).kernel = s.kernel := by
  unfold State.withFetchWord
  repeat' (first | rfl | assumption | (simp; done) | split | (refine foldl_kernel_const _ _ _ (fun _ _ => ?_)) | (refine (foldl_kernel_const _ _ _ (by intros; (repeat' split) <;> simp)).trans ?_) | (refine (foldl_kernel_const _ _ _ (fun _ _ => ?_)).trans ?_) | (refine (pair_kernel (by assumption)).trans ?_) | (refine (claim_of (by assumption)).trans ?_) | simp)

end Sys2Proof.Machine
end

