-- ==== Sys2Proof/Laws/Kept.lean ====
section
/-!
SUPPORT. The operations that change the power record, the supplies or the stores, and what they keep all the same: each lemma
takes what is kept up to a state to what is kept after the operation.
-/
namespace Sys2Proof.Machine

variable {k : Kernel} {s : State}

/-- A legal power record, with any uptime and supplies, keeps the kernel. -/
theorem setPower_keeps {p : Power} (h : k.keeps s.kernel) (hp : s.power.legal → p.legal) :
    k.keeps ({ s with power := p } : State).kernel := keeps_power (s := s) h hp

/-- Only the power state changes, to a legal one. -/
theorem setState_keeps {p : Power} (h : k.keeps s.kernel) (h5 : p.state ≤ 5) (ht : p.thermalStep = s.power.thermalStep)
    (hw : p.powerStep = s.power.powerStep) : k.keeps ({ s with power := p } : State).kernel :=
  setPower_keeps h fun hp => ⟨h5, ht ▸ hp.2.1, hw ▸ hp.2.2⟩

@[simp] theorem coldTime_keeps (h : k.keeps s.kernel) : k.keeps s.coldTime.kernel := keeps_core h

@[simp] theorem tryStart_keeps (h : k.keeps s.kernel) : k.keeps s.tryStart.kernel := by
  unfold State.tryStart; split
  · exact keeps_core h
  · exact h

@[simp] theorem railsGood_keeps (h : k.keeps s.kernel) : k.keeps s.railsGood.kernel := by
  unfold State.railsGood; dsimp only
  rw [foldl_kernel_const _ _ _ fun _ _ => trainPort_kernel ..]
  exact keeps_core h

@[simp] theorem startMount_keeps (h : k.keeps s.kernel) : k.keeps s.startMount.kernel := keeps_core h

@[simp] theorem poolsReady_keeps (raw : Nat) (h : k.keeps s.kernel) : k.keeps (s.poolsReady raw).kernel := by
  unfold State.poolsReady; dsimp only
  split <;> simp [h]

@[simp] theorem stepReady_keeps (n raw : Nat) (h : k.keeps s.kernel) : k.keeps (s.stepReady n raw).kernel := by
  unfold State.stepReady
  split
  · exact h
  split
  · split
    · rw [toPhase_kernel]; exact keeps_core h
    · exact h
  all_goals simp [h]

@[simp] theorem releasePads_keeps (h : k.keeps s.kernel) : k.keeps s.releasePads.kernel := keeps_core h

@[simp] theorem vinRise_keeps (dv : Nat) (h : k.keeps s.kernel) : k.keeps (s.vinRise dv).kernel := by
  unfold State.vinRise; split
  · exact h
  · exact keeps_core h

@[simp] theorem latchPads_keeps (h : k.keeps s.kernel) : k.keeps s.latchPads.kernel := keeps_core h

theorem idle_keeps (h : k.keeps s.kernel) : k.keeps s.idle.kernel := by
  unfold State.idle; split
  · exact keeps_core h
  · exact h

@[simp] theorem leavePs1_keeps (h : k.keeps s.kernel) : k.keeps s.leavePs1.kernel := by
  unfold State.leavePs1; split
  · exact setState_keeps h (Nat.le_of_ble_eq_true rfl) rfl rfl
  · exact h

@[simp] theorem barWrite_keeps (bar off : Nat) (b : Bytes) (h : k.keeps s.kernel) : k.keeps (s.barWrite bar off b).kernel :=
  h.trans ⟨rfl, rfl, fun hs => ⟨hs.1, hs.2.1, putCells_wf b hs.2.2⟩⟩

@[simp] theorem setPba_keeps (v : Nat) (on : Bool) (h : k.keeps s.kernel) : k.keeps (s.setPba v on).kernel := by
  unfold State.setPba; exact barWrite_keeps _ _ _ h

@[simp] theorem signal_keeps (v : Nat) (h : k.keeps s.kernel) : k.keeps (s.signal v).kernel := by
  unfold State.signal; split <;> simp [h]

@[simp] theorem wipe_keeps (h : k.keeps s.kernel) : k.keeps s.wipe.kernel :=
  h.trans ⟨rfl, rfl, fun _ => ⟨⟨Nat.zero_le 5, Nat.zero_le 12, Nat.zero_le 12⟩, cellsWf_nil, cellsWf_nil⟩⟩

@[simp] theorem deviceReset_keeps (cause : Nat) (h : k.keeps s.kernel) : k.keeps (s.deviceReset cause).kernel := by
  unfold State.deviceReset
  exact keeps_core (wipe_keeps (s := { s with media := s.media.landed }) h)

@[simp] theorem restart_keeps (h : k.keeps s.kernel) : k.keeps s.restart.kernel := by
  unfold State.restart; split
  · exact h
  · exact tryStart_keeps h

@[simp] theorem brownOut_keeps (h : k.keeps s.kernel) : k.keeps s.brownOut.kernel := by
  have hw : k.keeps ({ s with media := s.media.cutShort } : State).wipe.kernel := wipe_keeps h
  exact restart_keeps (keeps_power hw fun hp => hp)

@[simp] theorem powerLost_keeps (h : k.keeps s.kernel) : k.keeps s.powerLost.kernel :=
  keeps_core (coldTime_keeps (wipe_keeps (s := { s with media := s.media.cutShort }) h))

@[simp] theorem linkReset_keeps (h : k.keeps s.kernel) : k.keeps s.linkReset.kernel := by
  have drops : ∀ (l : List Nat) (t : State), (l.foldl (fun s q => s.dropQp q) t).kernel = t.kernel :=
    fun l t => foldl_kernel_const _ l t fun _ _ => dropQp_kernel ..
  have sinks : ∀ (l : List Nat) (t : State), (l.foldl State.closeSink t).kernel = t.kernel :=
    fun l t => foldl_kernel_const _ l t fun _ _ => closeSink_kernel ..
  have last : ∀ (t : State) (hi : HostIf) (d : Dict) (p : BufRef → Bool), hi.window = t.host.window → hi.barBytes = [] →
      k.keeps t.kernel → k.keeps (({ t with host := hi, dict := d } : State).freeRef p).kernel := by
    intro t hi d p hw hb ht
    rw [freeRef_kernel]
    refine ht.trans ⟨rfl, rfl, fun hs => ⟨hs.1, ?_, ?_⟩⟩
    · show cellsWf _ hi.window = true
      rw [hw]; exact hs.2.1
    · show cellsWf _ hi.barBytes = true
      rw [hb]; exact cellsWf_nil
  unfold State.linkReset
  refine last _ _ _ _ rfl rfl ?_
  rw [sinks, resetCrews_kernel, drops]
  exact h

@[simp] theorem post_keeps (q : Nat) (h : k.keeps s.kernel) : k.keeps (s.post q).kernel := by
  unfold State.post; dsimp only
  repeat' split
  all_goals simp [h]

@[simp] theorem postAll_keeps : ∀ (n : Nat) {s : State} (q : Nat), k.keeps s.kernel → k.keeps (State.postAll n s q).kernel
  | 0, _, _, h => h
  | n + 1, _, q, h => postAll_keeps n q (post_keeps q h)

@[simp] theorem deleteQp_keeps (q : Nat) (h : k.keeps s.kernel) : k.keeps (s.deleteQp q).kernel := by
  unfold State.deleteQp
  simp only [dropQp_kernel]
  refine postAll_keeps _ _ ?_
  rw [foldl_kernel_const _ _ _ fun _ _ => by simp]
  exact h

@[simp] theorem clearAen_keeps (h : k.keeps s.kernel) : k.keeps s.clearAen.kernel := by
  unfold State.clearAen; dsimp only
  split
  · exact deleteQp_keeps 0 h
  · exact h

@[simp] theorem fetchCapsule_keeps (c p : Bytes) (h : k.keeps s.kernel) : k.keeps (s.fetchCapsule c p).kernel := by
  have h0 : k.keeps ({ s with power := { s.power with state := 0 } } : State).kernel :=
    setState_keeps h (Nat.le_of_ble_eq_true rfl) rfl rfl
  have h1 (q : QueuePair) (fresh : Bool) : k.keeps (({ s with power := { s.power with state := 0 } } : State).leaveRing q fresh).kernel := by
    rw [leaveRing_kernel]; exact h0
  unfold State.fetchCapsule
  split
  · exact h
  · split
    · exact h
    · rename_i q fresh _
      have h2 := h1 q fresh
      revert h2
      generalize State.leaveRing _ q fresh = t
      intro h2
      dsimp only
      repeat' split
      · rw [hold_kernel]; exact h2
      · rw [complete_kernel]; exact h2
      · exact h2

@[simp] theorem windowByte_keeps (a : Nat) (b : Byte) (h : k.keeps s.kernel) : k.keeps (s.windowByte a b).kernel := by
  unfold State.windowByte; split
  · exact h.trans ⟨rfl, rfl, fun hs => ⟨hs.1, putCell_wf hs.2.1, hs.2.2⟩⟩
  · exact h

@[simp] theorem windowWrite_keeps (off : Nat) (data : Bytes) (h : k.keeps s.kernel) : k.keeps (s.windowWrite off data).kernel := by
  unfold State.windowWrite
  exact foldl_keeps (fun t a ht => windowByte_keeps _ _ ht) _ h

@[simp] theorem regWord_keeps (off v : Nat) (h : k.keeps s.kernel) : k.keeps (s.regWord off v).kernel := by
  unfold State.regWord
  split
  · rw [kernel_mk, kernel_eta]; exact h
  split
  · split
    · rw [writeAen_kernel]; exact h
    · exact clearAen_keeps h
  split
  · split
    · rw [clearDeverr_kernel]; exact h
    · exact h
  split
  · exact h
  split
  · extract_lets q
    split
    · split
      · exact h
      · split
        · rw [setTail_kernel]; exact h
        · rw [setHead_kernel]; exact h
    · exact h
  split
  · split
    · rw [sliceDone_kernel]; exact h
    · rw [kernel_mk, kernel_eta]; exact h
  split
  · exact barWrite_keeps _ _ _ h
  · exact h

@[simp] theorem msixWrite_keeps (off : Nat) (b : Bytes) (h : k.keeps s.kernel) : k.keeps (s.msixWrite off b).kernel := by
  unfold State.msixWrite; dsimp only
  split
  · rw [send_kernel]; exact setPba_keeps _ _ (barWrite_keeps _ _ _ h)
  · exact barWrite_keeps _ _ _ h

@[simp] theorem regWrite_keeps (bar off size value : Nat) (h : k.keeps s.kernel) : k.keeps (s.regWrite bar off size value).kernel := by
  unfold State.regWrite; dsimp only
  repeat' split
  all_goals simp [h]

@[simp] theorem qpDelete_keeps (c : Cmd) (h : k.keeps s.kernel) : k.keeps (s.qpDelete c).kernel := by
  unfold State.qpDelete; dsimp only
  split <;> simp [h]

@[simp] theorem cxlWrite_keeps (crew rank : Nat) (h : k.keeps s.kernel) : k.keeps (s.cxlWrite crew rank).kernel := by
  unfold State.cxlWrite; dsimp only
  repeat' split
  all_goals simp [h]

@[simp] theorem responderRequest_keeps (p : RocePacket) (q : RocePair) (h : k.keeps s.kernel) :
    k.keeps (s.responderRequest p q).kernel := by
  unfold State.responderRequest; dsimp only
  repeat' split
  all_goals try rw [judgeIngress_kernel]
  all_goals simp [h]

@[simp] theorem roceRequest_keeps (p : RocePacket) (h : k.keeps s.kernel) : k.keeps (s.roceRequest p).kernel := by
  unfold State.roceRequest
  repeat' split
  all_goals simp [h]

@[simp] theorem interruptSink_keeps (n : Nat) (h : k.keeps s.kernel) : k.keeps (s.interruptSink n).kernel := by
  have h1 (l : List (Nat × Nat)) : k.keeps (l.foldl (fun s x => s.signal x.2)
      ({ s with host := { s.host with sinkSignals := s.host.sinkSignals.filter fun x => x.1 != n } } : State)).kernel :=
    foldl_keeps (fun t x ht => signal_keeps _ ht) l h
  unfold State.interruptSink; dsimp only
  repeat' split
  · apply signal_keeps; rw [modSink_kernel]; exact h1 _
  · exact h1 _
  · exact h1 _

@[simp] theorem endPs3Wake_keeps (h : k.keeps s.kernel) : k.keeps s.endPs3Wake.kernel := by
  unfold State.endPs3Wake; dsimp only
  split
  · exact h
  · have h5 : (if s.power.entry.isSome then 4 else 0) ≤ 5 := by split <;> decide
    split
    · apply releasePads_keeps; exact setState_keeps h h5 rfl rfl
    · exact setState_keeps h h5 rfl rfl

@[simp] theorem completeStart_keeps (h : k.keeps s.kernel) : k.keeps s.completeStart.kernel := by
  unfold State.completeStart
  split
  · exact h
  · apply endPs3Wake_keeps
    rw [heldAen_kernel, writeTopology_kernel, noteStart_kernel, raiseCounter_kernel, toPhase_kernel]
    exact h

@[simp] theorem watchdog_keeps (h : k.keeps s.kernel) : k.keeps s.watchdog.kernel := by
  unfold State.watchdog
  split
  · exact h
  · apply tryStart_keeps
    apply deviceReset_keeps
    rw [kernel_mk, kernel_eta]
    exact h

@[simp] theorem faultInterrupt_keeps (h : k.keeps s.kernel) : k.keeps s.faultInterrupt.kernel := by
  unfold State.faultInterrupt
  split
  · exact signal_keeps _ h
  · exact h

@[simp] theorem resetLink_keeps (kind : LinkResetKind) (h : k.keeps s.kernel) : k.keeps (s.resetLink kind).kernel := by
  have hl := linkReset_keeps h
  revert hl
  unfold State.resetLink
  generalize s.linkReset = t
  intro hl
  dsimp only
  repeat' split
  all_goals simp [h, hl]

@[simp] theorem delayOver_keeps (q : Nat) (h : k.keeps s.kernel) : k.keeps (s.delayOver q).kernel := by
  unfold State.delayOver
  repeat' split
  all_goals simp [h]

@[simp] theorem pwrokFall_keeps (l : List Nat) (h : k.keeps s.kernel) : k.keeps (s.pwrokFall l).kernel := by
  unfold State.pwrokFall; dsimp only
  split
  · exact h
  · exact keeps_core (wipe_keeps (s := { s with media := _ }) h)

@[simp] theorem resetLow_keeps (h : k.keeps s.kernel) : k.keeps s.resetLow.kernel := keeps_core (deviceReset_keeps 1 h)

@[simp] theorem resetFall_keeps (n : Nat) (h : k.keeps s.kernel) : k.keeps (s.resetFall n).kernel := by
  unfold State.resetFall
  repeat' split
  all_goals simp [h]

@[simp] theorem inputFault_keeps (c dv : Nat) (h : k.keeps s.kernel) : k.keeps (s.inputFault c dv).kernel := by
  unfold State.inputFault; dsimp only
  repeat' split
  · exact h
  · exact powerLost_keeps (keeps_core h)
  · exact brownOut_keeps (keeps_core h)

@[simp] theorem slowclkLost_keeps (h : k.keeps s.kernel) : k.keeps s.slowclkLost.kernel := by
  unfold State.slowclkLost; dsimp only
  repeat' split
  · exact h
  · exact h
  · exact brownOut_keeps (keeps_core h)

@[simp] theorem overTemperature_keeps (n : Nat) (t : Int) (h : k.keeps s.kernel) : k.keeps (s.overTemperature n t).kernel := by
  unfold State.overTemperature; dsimp only
  split
  · have h1 : k.keeps ({ s with power := { s.power with temps := s.power.temps.set n t } } : State).kernel :=
      setPower_keeps h fun hp => hp
    refine keeps_core (s := (State.raise _ _).settle) ?_
    rw [settle_kernel, raise_kernel]
    exact h1
  · exact h

@[simp] theorem hwTrip_keeps (n : Nat) (h : k.keeps s.kernel) : k.keeps (s.hwTrip n).kernel := by
  unfold State.hwTrip; dsimp only
  split
  · exact keeps_core (wipe_keeps (s := { s with media := _, power := _ }) (keeps_power h fun hp => hp))
  · exact h

/-! ### Power states -/

@[simp] theorem enterPs2_keeps (h : k.keeps s.kernel) : k.keeps s.enterPs2.kernel := by
  have h1 : k.keeps s.sleepPorts.kernel := by rw [sleepPorts_kernel]; exact h
  exact keeps_power (s := s.sleepPorts) (p := { s.sleepPorts.power with state := 2, entry := none }) h1
    fun hp => ⟨Nat.le_of_ble_eq_true rfl, hp.2⟩

@[simp] theorem enterPs3_keeps (h : k.keeps s.kernel) : k.keeps s.enterPs3.kernel := by
  have h1 : k.keeps s.sleepPorts.kernel := by rw [sleepPorts_kernel]; exact h
  exact keeps_power (s := s.sleepPorts) (p := { s.sleepPorts.power with state := 3, entry := none }) h1
    fun hp => ⟨Nat.le_of_ble_eq_true rfl, hp.2⟩

@[simp] theorem beginWake_keeps (c : Nat) (h : k.keeps s.kernel) : k.keeps (s.beginWake c).kernel := by
  unfold State.beginWake; dsimp only
  split
  · exact setState_keeps h (Nat.le_of_ble_eq_true rfl) rfl rfl
  · split
    · exact linkReset_keeps (setState_keeps h (Nat.le_of_ble_eq_true rfl) rfl rfl)
    · exact h

@[simp] theorem wakeBy_keeps (b : Nat) (h : k.keeps s.kernel) : k.keeps (s.wakeBy b).kernel := by
  unfold State.wakeBy; dsimp only
  split
  · exact leavePs1_keeps h
  · exact beginWake_keeps _ h
  · exact beginWake_keeps _ h
  · exact setPower_keeps h fun hp => hp
  · exact setPower_keeps h fun hp => hp
  · exact h

@[simp] theorem quiesce_keeps (target : Nat) (h : k.keeps s.kernel) : k.keeps (s.quiesce target).kernel := by
  unfold State.quiesce; dsimp only
  split <;> simp [h]

@[simp] theorem enterSleep_keeps (target : Nat) (h : k.keeps s.kernel) : k.keeps (s.enterSleep target).kernel := by
  unfold State.enterSleep
  split
  · exact enterPs3_keeps h
  · exact enterPs2_keeps h

@[simp] theorem finishEntry_keeps (target latched : Nat) (h : k.keeps s.kernel) : k.keeps (s.finishEntry target latched).kernel := by
  have h1 : k.keeps ((s.quiesce target).enterSleep target).kernel := enterSleep_keeps _ (quiesce_keeps _ h)
  unfold State.finishEntry
  split
  · exact h1
  · exact beginWake_keeps _ h1

@[simp] theorem beginEntry_keeps (target : Nat) (h : k.keeps s.kernel) : k.keeps (s.beginEntry target).kernel := by
  unfold State.beginEntry; dsimp only
  split
  · split
    · exact finishEntry_keeps 3 0 (setPower_keeps h fun hp => hp)
    · exact h
  · exact h
  · exact setPower_keeps h fun hp => hp
  · exact setPower_keeps h fun hp => hp
  · exact setState_keeps h (Nat.le_of_ble_eq_true rfl) rfl rfl

@[simp] theorem entryQuiesced_keeps (h : k.keeps s.kernel) : k.keeps s.entryQuiesced.kernel := by
  unfold State.entryQuiesced
  repeat' split
  all_goals simp [h]

@[simp] theorem entryAbandoned_keeps (h : k.keeps s.kernel) : k.keeps s.entryAbandoned.kernel := by
  unfold State.entryAbandoned
  split
  · exact setState_keeps h (Nat.le_of_ble_eq_true rfl) rfl rfl
  · exact h

@[simp] theorem enterPs1_keeps (h : k.keeps s.kernel) : k.keeps s.enterPs1.kernel := by
  unfold State.enterPs1; dsimp only
  split
  · exact setState_keeps h (Nat.le_of_ble_eq_true rfl) rfl rfl
  · exact h

@[simp] theorem reachPs0_keeps (h : k.keeps s.kernel) : k.keeps s.reachPs0.kernel := by
  have h5 : (if s.power.entry.isSome then 4 else 0) ≤ 5 := by split <;> decide
  unfold State.reachPs0; dsimp only
  rw [wakePorts_kernel]
  split
  · apply releasePads_keeps; exact setState_keeps h h5 rfl rfl
  · exact setState_keeps h h5 rfl rfl

@[simp] theorem wakeReady_keeps (n : Nat) (h : k.keeps s.kernel) : k.keeps (s.wakeReady n).kernel := by
  unfold State.wakeReady; dsimp only
  split
  · exact h
  · split
    · exact keeps_power (s := s) h fun hp => hp
    · exact keeps_power (s := s) h fun hp => hp
    · exact keeps_power (s := s) h fun hp => hp
    · exact reachPs0_keeps h
    · split
      · exact h
      · exact setPower_keeps h fun hp => hp

@[simp] theorem releaseWrite_keeps (w : DictWrite) (h : k.keeps s.kernel) : k.keeps (releaseWrite s w).kernel := by
  have h1 : k.keeps ({ s with power := { s.power with releasePending := true } } : State).kernel := setPower_keeps h fun hp => hp
  unfold releaseWrite; dsimp only
  repeat' split
  all_goals exact h1

@[simp] theorem episode_keeps (n : Nat) (r : Raise) (h : k.keeps s.kernel) : k.keeps (s.episode n r).kernel := by
  unfold State.episode
  split
  · rw [raise_kernel]; exact setPower_keeps h fun hp => hp
  · exact h

@[simp] theorem thermalTick_keeps (raw : List Int) (h : k.keeps s.kernel) : k.keeps (s.thermalTick raw).kernel := by
  unfold State.thermalTick; dsimp only
  split
  · apply episode_keeps
    exact setPower_keeps h fun hp => ⟨hp.1, Nat.min_le_left .., hp.2.2⟩
  · repeat' split
    · exact setPower_keeps h fun hp => hp
    · exact setPower_keeps h fun hp => hp
    · exact setPower_keeps h fun hp => ⟨hp.1, (Nat.sub_le ..).trans hp.2.1, hp.2.2⟩

@[simp] theorem sense_keeps (raw : List Int) (h : k.keeps s.kernel) : k.keeps (s.sense raw).kernel := by
  unfold State.sense; split
  · exact setPower_keeps h fun hp => hp
  · exact h

@[simp] theorem measured_keeps (w dv : Nat) (h : k.keeps s.kernel) : k.keeps (s.measured w dv).kernel := by
  unfold State.measured; dsimp only
  split
  · apply episode_keeps
    exact keeps_power (s := s) h fun hp => ⟨hp.1, hp.2.1, Nat.min_le_left ..⟩
  · repeat' split
    · exact keeps_power (s := s) h fun hp => hp
    · exact keeps_power (s := s) h fun hp => hp
    · exact keeps_power (s := s) h fun hp => ⟨hp.1, hp.2.1, (Nat.sub_le ..).trans hp.2.2⟩

end Sys2Proof.Machine
end

