-- ==== Sys2Proof/Laws/KeptRows.lean ====
section
/-!
SUPPORT. What the shared forms of a meaning keep: a command at its queue pair, an event of the host or the media, a dictionary
request and a dictionary WRITE by its rule.
-/
namespace Sys2Proof.Machine

variable {k : Kernel} {s : State}

/-- What a command's outcome keeps: it is a next state that keeps the kernel. -/
def outKeeps (k : Kernel) (o : Host.Outcome State Fault Refusal) : Prop := ∃ t, o = .next t ∧ k.keeps t.kernel

theorem outKeeps_settle {t : State} (h : k.keeps t.kernel) : outKeeps k (.next t.settle) := ⟨_, rfl, by rw [settle_kernel]; exact h⟩

theorem atCmd_keeps (q i opc : Nat) (fid : Option Nat) (f : Cmd → State → State) (h : k.keeps s.kernel)
    (hf : ∀ c, k.keeps (f c s).kernel) : outKeeps k (s.atCmd q i opc fid f) := by
  apply outKeeps_settle
  unfold State.onCmd; split
  · exact hf _
  · exact h

theorem onHost_keeps (f : State → State) (h : k.keeps s.kernel) (hf : k.keeps (f s).kernel) : outKeeps k (s.onHost f) := by
  apply outKeeps_settle; split
  · exact hf
  · exact h

theorem onMedia_keeps (f : State → State) (h : k.keeps s.kernel) (hf : k.keeps (f s).kernel) : outKeeps k (s.onMedia f) := by
  apply outKeeps_settle; split
  · exact hf
  · exact h

theorem onRequest_keeps (m : DictMsg) (mine : Bool) (f : State → State) (h : k.keeps s.kernel)
    (hf : k.keeps (f s.leavePs1).kernel) : outKeeps k (s.onRequest m mine f) := by
  apply outKeeps_settle
  split
  · exact h
  · split
    · rw [respond_kernel]; exact leavePs1_keeps h
    · split
      · exact hf
      · exact h

/-- A rule whose effects keep the kernel. -/
structure RuleKeeps (r : WriteRule) : Prop where
  act : ∀ (k : Kernel) (t : State) w, k.keeps t.kernel → k.keeps (r.act t w).kernel
  after : ∀ (k : Kernel) (t : State) w, k.keeps t.kernel → k.keeps (r.after t w).kernel

theorem commitWrite_keeps {rule : WriteRule} (hr : RuleKeeps rule) (m : DictMsg) (x : Option Session) (w : DictWrite) (r : ObjRow)
    (h : k.keeps s.kernel) : k.keeps (s.commitWrite m x w r rule).kernel := by
  unfold State.commitWrite
  split
  · rw [respond_kernel]; exact h
  · apply hr.after
    rw [respond_kernel, audit_kernel]
    exact hr.act _ _ _ h

theorem takeValue_keeps {rule : WriteRule} (hr : RuleKeeps rule) (m : DictMsg) (x : Option Session) (w : Bytes → DictWrite) (r : ObjRow)
    (h : k.keeps s.kernel) : k.keeps (s.takeValue m x w r rule).kernel := by
  unfold State.takeValue
  split
  · exact commitWrite_keeps hr _ _ _ _ h
  · have hk (o : Option (Nat × Nat × Bytes)) :
        k.keeps (match x with | some x => s.modSession x.sid fun y => { y with octs := o } | none => s).kernel := by
      split <;> simp [h]
    dsimp only
    split
    · rw [respond_kernel]; exact hk _
    · split
      · exact commitWrite_keeps hr _ _ _ _ (hk _)
      · split
        · rw [respond_kernel]; exact hk _
        · rw [respond_kernel]; exact hk _

theorem sessionWrite_keeps {rule : WriteRule} (hr : RuleKeeps rule) (m : DictMsg) (h : k.keeps s.kernel) :
    k.keeps (s.sessionWrite m rule).kernel := by
  unfold State.sessionWrite
  repeat' split
  all_goals first | simp [h]; done | skip
  exact takeValue_keeps hr _ _ _ _ (by simp [h])

theorem claimWrite_keeps {rule : WriteRule} (hr : RuleKeeps rule) (m : DictMsg) (h : k.keeps s.kernel) :
    k.keeps (s.claimWrite m rule).kernel := by
  unfold State.claimWrite
  repeat' split
  all_goals first | simp [h]; done | skip
  exact takeValue_keeps hr _ _ _ _ h

theorem writeRow_keeps {rule : WriteRule} (hr : RuleKeeps rule) (m : DictMsg) (mine) (h : k.keeps s.kernel) :
    outKeeps k (s.writeRow m mine rule) :=
  onRequest_keeps _ _ _ h (sessionWrite_keeps hr _ (leavePs1_keeps h))

end Sys2Proof.Machine
end

