-- ==== Sys2Proof/Laws/State.lean ====
section
/-!
SUPPORT. Field by field, what each named update of the state changes and what it leaves alone.
-/
namespace Sys2Proof.Machine

/-! ### send -/

@[simp] theorem send_sent (s : State) (o : Output) :
    (s.send o).sent = o :: s.sent := rfl
@[simp] theorem send_pending (s : State) (o : Output) : (s.send o).pending = s.pending := rfl
@[simp] theorem send_free (s : State) (o : Output) : (s.send o).free = s.free := rfl
@[simp] theorem send_uptime (s : State) (o : Output) : (s.send o).uptime = s.uptime := rfl
@[simp] theorem send_pins (s : State) (o : Output) : (s.send o).pins = s.pins := rfl
@[simp] theorem send_power (s : State) (o : Output) : (s.send o).power = s.power := rfl
@[simp] theorem send_startup (s : State) (o : Output) : (s.send o).startup = s.startup := rfl
@[simp] theorem send_fuses (s : State) (o : Output) : (s.send o).fuses = s.fuses := rfl
@[simp] theorem send_host (s : State) (o : Output) : (s.send o).host = s.host := rfl
@[simp] theorem send_catalogue (s : State) (o : Output) : (s.send o).catalogue = s.catalogue := rfl
@[simp] theorem send_regLog (s : State) (o : Output) : (s.send o).regLog = s.regLog := rfl
@[simp] theorem send_concealLog (s : State) (o : Output) : (s.send o).concealLog = s.concealLog := rfl
@[simp] theorem send_timingLog (s : State) (o : Output) : (s.send o).timingLog = s.timingLog := rfl
@[simp] theorem send_topology (s : State) (o : Output) : (s.send o).topology = s.topology := rfl
@[simp] theorem send_vocabs (s : State) (o : Output) : (s.send o).vocabs = s.vocabs := rfl
@[simp] theorem send_grammars (s : State) (o : Output) : (s.send o).grammars = s.grammars := rfl
@[simp] theorem send_crews (s : State) (o : Output) : (s.send o).crews = s.crews := rfl
@[simp] theorem send_contexts (s : State) (o : Output) : (s.send o).contexts = s.contexts := rfl
@[simp] theorem send_residents (s : State) (o : Output) : (s.send o).residents = s.residents := rfl
@[simp] theorem send_sinks (s : State) (o : Output) : (s.send o).sinks = s.sinks := rfl
@[simp] theorem send_sinkTotals (s : State) (o : Output) : (s.send o).sinkTotals = s.sinkTotals := rfl
@[simp] theorem send_streams (s : State) (o : Output) : (s.send o).streams = s.streams := rfl
@[simp] theorem send_ingress (s : State) (o : Output) : (s.send o).ingress = s.ingress := rfl
@[simp] theorem send_textTurn (s : State) (o : Output) : (s.send o).textTurn = s.textTurn := rfl
@[simp] theorem send_ingressPaused (s : State) (o : Output) : (s.send o).ingressPaused = s.ingressPaused := rfl
@[simp] theorem send_mem (s : State) (o : Output) : (s.send o).mem = s.mem := rfl
@[simp] theorem send_media (s : State) (o : Output) : (s.send o).media = s.media := rfl
@[simp] theorem send_faults (s : State) (o : Output) : (s.send o).faults = s.faults := rfl
@[simp] theorem send_ports (s : State) (o : Output) : (s.send o).ports = s.ports := rfl
@[simp] theorem send_roce (s : State) (o : Output) : (s.send o).roce = s.roce := rfl
@[simp] theorem send_domain (s : State) (o : Output) : (s.send o).domain = s.domain := rfl
@[simp] theorem send_dict (s : State) (o : Output) : (s.send o).dict = s.dict := rfl

/-! ### useFree -/

@[simp] theorem useFree_free (s : State) (n : Nat) :
    (s.useFree n).free = s.free + n := rfl
@[simp] theorem useFree_pending (s : State) (n : Nat) : (s.useFree n).pending = s.pending := rfl
@[simp] theorem useFree_uptime (s : State) (n : Nat) : (s.useFree n).uptime = s.uptime := rfl
@[simp] theorem useFree_sent (s : State) (n : Nat) : (s.useFree n).sent = s.sent := rfl
@[simp] theorem useFree_pins (s : State) (n : Nat) : (s.useFree n).pins = s.pins := rfl
@[simp] theorem useFree_power (s : State) (n : Nat) : (s.useFree n).power = s.power := rfl
@[simp] theorem useFree_startup (s : State) (n : Nat) : (s.useFree n).startup = s.startup := rfl
@[simp] theorem useFree_fuses (s : State) (n : Nat) : (s.useFree n).fuses = s.fuses := rfl
@[simp] theorem useFree_host (s : State) (n : Nat) : (s.useFree n).host = s.host := rfl
@[simp] theorem useFree_catalogue (s : State) (n : Nat) : (s.useFree n).catalogue = s.catalogue := rfl
@[simp] theorem useFree_regLog (s : State) (n : Nat) : (s.useFree n).regLog = s.regLog := rfl
@[simp] theorem useFree_concealLog (s : State) (n : Nat) : (s.useFree n).concealLog = s.concealLog := rfl
@[simp] theorem useFree_timingLog (s : State) (n : Nat) : (s.useFree n).timingLog = s.timingLog := rfl
@[simp] theorem useFree_topology (s : State) (n : Nat) : (s.useFree n).topology = s.topology := rfl
@[simp] theorem useFree_vocabs (s : State) (n : Nat) : (s.useFree n).vocabs = s.vocabs := rfl
@[simp] theorem useFree_grammars (s : State) (n : Nat) : (s.useFree n).grammars = s.grammars := rfl
@[simp] theorem useFree_crews (s : State) (n : Nat) : (s.useFree n).crews = s.crews := rfl
@[simp] theorem useFree_contexts (s : State) (n : Nat) : (s.useFree n).contexts = s.contexts := rfl
@[simp] theorem useFree_residents (s : State) (n : Nat) : (s.useFree n).residents = s.residents := rfl
@[simp] theorem useFree_sinks (s : State) (n : Nat) : (s.useFree n).sinks = s.sinks := rfl
@[simp] theorem useFree_sinkTotals (s : State) (n : Nat) : (s.useFree n).sinkTotals = s.sinkTotals := rfl
@[simp] theorem useFree_streams (s : State) (n : Nat) : (s.useFree n).streams = s.streams := rfl
@[simp] theorem useFree_ingress (s : State) (n : Nat) : (s.useFree n).ingress = s.ingress := rfl
@[simp] theorem useFree_textTurn (s : State) (n : Nat) : (s.useFree n).textTurn = s.textTurn := rfl
@[simp] theorem useFree_ingressPaused (s : State) (n : Nat) : (s.useFree n).ingressPaused = s.ingressPaused := rfl
@[simp] theorem useFree_mem (s : State) (n : Nat) : (s.useFree n).mem = s.mem := rfl
@[simp] theorem useFree_media (s : State) (n : Nat) : (s.useFree n).media = s.media := rfl
@[simp] theorem useFree_faults (s : State) (n : Nat) : (s.useFree n).faults = s.faults := rfl
@[simp] theorem useFree_ports (s : State) (n : Nat) : (s.useFree n).ports = s.ports := rfl
@[simp] theorem useFree_roce (s : State) (n : Nat) : (s.useFree n).roce = s.roce := rfl
@[simp] theorem useFree_domain (s : State) (n : Nat) : (s.useFree n).domain = s.domain := rfl
@[simp] theorem useFree_dict (s : State) (n : Nat) : (s.useFree n).dict = s.dict := rfl

/-! ### modCrew -/

@[simp] theorem modCrew_crews (s : State) (n : Nat) (f : Crew → Crew) :
    (s.modCrew n f).crews = updWhere (fun c => c.num == n) f s.crews := rfl
@[simp] theorem modCrew_pending (s : State) (n : Nat) (f : Crew → Crew) : (s.modCrew n f).pending = s.pending := rfl
@[simp] theorem modCrew_free (s : State) (n : Nat) (f : Crew → Crew) : (s.modCrew n f).free = s.free := rfl
@[simp] theorem modCrew_uptime (s : State) (n : Nat) (f : Crew → Crew) : (s.modCrew n f).uptime = s.uptime := rfl
@[simp] theorem modCrew_sent (s : State) (n : Nat) (f : Crew → Crew) : (s.modCrew n f).sent = s.sent := rfl
@[simp] theorem modCrew_pins (s : State) (n : Nat) (f : Crew → Crew) : (s.modCrew n f).pins = s.pins := rfl
@[simp] theorem modCrew_power (s : State) (n : Nat) (f : Crew → Crew) : (s.modCrew n f).power = s.power := rfl
@[simp] theorem modCrew_startup (s : State) (n : Nat) (f : Crew → Crew) : (s.modCrew n f).startup = s.startup := rfl
@[simp] theorem modCrew_fuses (s : State) (n : Nat) (f : Crew → Crew) : (s.modCrew n f).fuses = s.fuses := rfl
@[simp] theorem modCrew_host (s : State) (n : Nat) (f : Crew → Crew) : (s.modCrew n f).host = s.host := rfl
@[simp] theorem modCrew_catalogue (s : State) (n : Nat) (f : Crew → Crew) : (s.modCrew n f).catalogue = s.catalogue := rfl
@[simp] theorem modCrew_regLog (s : State) (n : Nat) (f : Crew → Crew) : (s.modCrew n f).regLog = s.regLog := rfl
@[simp] theorem modCrew_concealLog (s : State) (n : Nat) (f : Crew → Crew) : (s.modCrew n f).concealLog = s.concealLog := rfl
@[simp] theorem modCrew_timingLog (s : State) (n : Nat) (f : Crew → Crew) : (s.modCrew n f).timingLog = s.timingLog := rfl
@[simp] theorem modCrew_topology (s : State) (n : Nat) (f : Crew → Crew) : (s.modCrew n f).topology = s.topology := rfl
@[simp] theorem modCrew_vocabs (s : State) (n : Nat) (f : Crew → Crew) : (s.modCrew n f).vocabs = s.vocabs := rfl
@[simp] theorem modCrew_grammars (s : State) (n : Nat) (f : Crew → Crew) : (s.modCrew n f).grammars = s.grammars := rfl
@[simp] theorem modCrew_contexts (s : State) (n : Nat) (f : Crew → Crew) : (s.modCrew n f).contexts = s.contexts := rfl
@[simp] theorem modCrew_residents (s : State) (n : Nat) (f : Crew → Crew) : (s.modCrew n f).residents = s.residents := rfl
@[simp] theorem modCrew_sinks (s : State) (n : Nat) (f : Crew → Crew) : (s.modCrew n f).sinks = s.sinks := rfl
@[simp] theorem modCrew_sinkTotals (s : State) (n : Nat) (f : Crew → Crew) : (s.modCrew n f).sinkTotals = s.sinkTotals := rfl
@[simp] theorem modCrew_streams (s : State) (n : Nat) (f : Crew → Crew) : (s.modCrew n f).streams = s.streams := rfl
@[simp] theorem modCrew_ingress (s : State) (n : Nat) (f : Crew → Crew) : (s.modCrew n f).ingress = s.ingress := rfl
@[simp] theorem modCrew_textTurn (s : State) (n : Nat) (f : Crew → Crew) : (s.modCrew n f).textTurn = s.textTurn := rfl
@[simp] theorem modCrew_ingressPaused (s : State) (n : Nat) (f : Crew → Crew) : (s.modCrew n f).ingressPaused = s.ingressPaused := rfl
@[simp] theorem modCrew_mem (s : State) (n : Nat) (f : Crew → Crew) : (s.modCrew n f).mem = s.mem := rfl
@[simp] theorem modCrew_media (s : State) (n : Nat) (f : Crew → Crew) : (s.modCrew n f).media = s.media := rfl
@[simp] theorem modCrew_faults (s : State) (n : Nat) (f : Crew → Crew) : (s.modCrew n f).faults = s.faults := rfl
@[simp] theorem modCrew_ports (s : State) (n : Nat) (f : Crew → Crew) : (s.modCrew n f).ports = s.ports := rfl
@[simp] theorem modCrew_roce (s : State) (n : Nat) (f : Crew → Crew) : (s.modCrew n f).roce = s.roce := rfl
@[simp] theorem modCrew_domain (s : State) (n : Nat) (f : Crew → Crew) : (s.modCrew n f).domain = s.domain := rfl
@[simp] theorem modCrew_dict (s : State) (n : Nat) (f : Crew → Crew) : (s.modCrew n f).dict = s.dict := rfl

/-! ### modJob -/

@[simp] theorem modJob_pending (s : State) (n : Nat) (f : Job → Job) : (s.modJob n f).pending = s.pending := rfl
@[simp] theorem modJob_free (s : State) (n : Nat) (f : Job → Job) : (s.modJob n f).free = s.free := rfl
@[simp] theorem modJob_uptime (s : State) (n : Nat) (f : Job → Job) : (s.modJob n f).uptime = s.uptime := rfl
@[simp] theorem modJob_sent (s : State) (n : Nat) (f : Job → Job) : (s.modJob n f).sent = s.sent := rfl
@[simp] theorem modJob_pins (s : State) (n : Nat) (f : Job → Job) : (s.modJob n f).pins = s.pins := rfl
@[simp] theorem modJob_power (s : State) (n : Nat) (f : Job → Job) : (s.modJob n f).power = s.power := rfl
@[simp] theorem modJob_startup (s : State) (n : Nat) (f : Job → Job) : (s.modJob n f).startup = s.startup := rfl
@[simp] theorem modJob_fuses (s : State) (n : Nat) (f : Job → Job) : (s.modJob n f).fuses = s.fuses := rfl
@[simp] theorem modJob_host (s : State) (n : Nat) (f : Job → Job) : (s.modJob n f).host = s.host := rfl
@[simp] theorem modJob_catalogue (s : State) (n : Nat) (f : Job → Job) : (s.modJob n f).catalogue = s.catalogue := rfl
@[simp] theorem modJob_regLog (s : State) (n : Nat) (f : Job → Job) : (s.modJob n f).regLog = s.regLog := rfl
@[simp] theorem modJob_concealLog (s : State) (n : Nat) (f : Job → Job) : (s.modJob n f).concealLog = s.concealLog := rfl
@[simp] theorem modJob_timingLog (s : State) (n : Nat) (f : Job → Job) : (s.modJob n f).timingLog = s.timingLog := rfl
@[simp] theorem modJob_topology (s : State) (n : Nat) (f : Job → Job) : (s.modJob n f).topology = s.topology := rfl
@[simp] theorem modJob_vocabs (s : State) (n : Nat) (f : Job → Job) : (s.modJob n f).vocabs = s.vocabs := rfl
@[simp] theorem modJob_grammars (s : State) (n : Nat) (f : Job → Job) : (s.modJob n f).grammars = s.grammars := rfl
@[simp] theorem modJob_contexts (s : State) (n : Nat) (f : Job → Job) : (s.modJob n f).contexts = s.contexts := rfl
@[simp] theorem modJob_residents (s : State) (n : Nat) (f : Job → Job) : (s.modJob n f).residents = s.residents := rfl
@[simp] theorem modJob_sinks (s : State) (n : Nat) (f : Job → Job) : (s.modJob n f).sinks = s.sinks := rfl
@[simp] theorem modJob_sinkTotals (s : State) (n : Nat) (f : Job → Job) : (s.modJob n f).sinkTotals = s.sinkTotals := rfl
@[simp] theorem modJob_streams (s : State) (n : Nat) (f : Job → Job) : (s.modJob n f).streams = s.streams := rfl
@[simp] theorem modJob_ingress (s : State) (n : Nat) (f : Job → Job) : (s.modJob n f).ingress = s.ingress := rfl
@[simp] theorem modJob_textTurn (s : State) (n : Nat) (f : Job → Job) : (s.modJob n f).textTurn = s.textTurn := rfl
@[simp] theorem modJob_ingressPaused (s : State) (n : Nat) (f : Job → Job) : (s.modJob n f).ingressPaused = s.ingressPaused := rfl
@[simp] theorem modJob_mem (s : State) (n : Nat) (f : Job → Job) : (s.modJob n f).mem = s.mem := rfl
@[simp] theorem modJob_media (s : State) (n : Nat) (f : Job → Job) : (s.modJob n f).media = s.media := rfl
@[simp] theorem modJob_faults (s : State) (n : Nat) (f : Job → Job) : (s.modJob n f).faults = s.faults := rfl
@[simp] theorem modJob_ports (s : State) (n : Nat) (f : Job → Job) : (s.modJob n f).ports = s.ports := rfl
@[simp] theorem modJob_roce (s : State) (n : Nat) (f : Job → Job) : (s.modJob n f).roce = s.roce := rfl
@[simp] theorem modJob_domain (s : State) (n : Nat) (f : Job → Job) : (s.modJob n f).domain = s.domain := rfl
@[simp] theorem modJob_dict (s : State) (n : Nat) (f : Job → Job) : (s.modJob n f).dict = s.dict := rfl

/-! ### modCtx -/

@[simp] theorem modCtx_contexts (s : State) (n : Nat) (f : Context → Context) :
    (s.modCtx n f).contexts = updWhere (fun c => c.num == n) f s.contexts := rfl
@[simp] theorem modCtx_pending (s : State) (n : Nat) (f : Context → Context) : (s.modCtx n f).pending = s.pending := rfl
@[simp] theorem modCtx_free (s : State) (n : Nat) (f : Context → Context) : (s.modCtx n f).free = s.free := rfl
@[simp] theorem modCtx_uptime (s : State) (n : Nat) (f : Context → Context) : (s.modCtx n f).uptime = s.uptime := rfl
@[simp] theorem modCtx_sent (s : State) (n : Nat) (f : Context → Context) : (s.modCtx n f).sent = s.sent := rfl
@[simp] theorem modCtx_pins (s : State) (n : Nat) (f : Context → Context) : (s.modCtx n f).pins = s.pins := rfl
@[simp] theorem modCtx_power (s : State) (n : Nat) (f : Context → Context) : (s.modCtx n f).power = s.power := rfl
@[simp] theorem modCtx_startup (s : State) (n : Nat) (f : Context → Context) : (s.modCtx n f).startup = s.startup := rfl
@[simp] theorem modCtx_fuses (s : State) (n : Nat) (f : Context → Context) : (s.modCtx n f).fuses = s.fuses := rfl
@[simp] theorem modCtx_host (s : State) (n : Nat) (f : Context → Context) : (s.modCtx n f).host = s.host := rfl
@[simp] theorem modCtx_catalogue (s : State) (n : Nat) (f : Context → Context) : (s.modCtx n f).catalogue = s.catalogue := rfl
@[simp] theorem modCtx_regLog (s : State) (n : Nat) (f : Context → Context) : (s.modCtx n f).regLog = s.regLog := rfl
@[simp] theorem modCtx_concealLog (s : State) (n : Nat) (f : Context → Context) : (s.modCtx n f).concealLog = s.concealLog := rfl
@[simp] theorem modCtx_timingLog (s : State) (n : Nat) (f : Context → Context) : (s.modCtx n f).timingLog = s.timingLog := rfl
@[simp] theorem modCtx_topology (s : State) (n : Nat) (f : Context → Context) : (s.modCtx n f).topology = s.topology := rfl
@[simp] theorem modCtx_vocabs (s : State) (n : Nat) (f : Context → Context) : (s.modCtx n f).vocabs = s.vocabs := rfl
@[simp] theorem modCtx_grammars (s : State) (n : Nat) (f : Context → Context) : (s.modCtx n f).grammars = s.grammars := rfl
@[simp] theorem modCtx_crews (s : State) (n : Nat) (f : Context → Context) : (s.modCtx n f).crews = s.crews := rfl
@[simp] theorem modCtx_residents (s : State) (n : Nat) (f : Context → Context) : (s.modCtx n f).residents = s.residents := rfl
@[simp] theorem modCtx_sinks (s : State) (n : Nat) (f : Context → Context) : (s.modCtx n f).sinks = s.sinks := rfl
@[simp] theorem modCtx_sinkTotals (s : State) (n : Nat) (f : Context → Context) : (s.modCtx n f).sinkTotals = s.sinkTotals := rfl
@[simp] theorem modCtx_streams (s : State) (n : Nat) (f : Context → Context) : (s.modCtx n f).streams = s.streams := rfl
@[simp] theorem modCtx_ingress (s : State) (n : Nat) (f : Context → Context) : (s.modCtx n f).ingress = s.ingress := rfl
@[simp] theorem modCtx_textTurn (s : State) (n : Nat) (f : Context → Context) : (s.modCtx n f).textTurn = s.textTurn := rfl
@[simp] theorem modCtx_ingressPaused (s : State) (n : Nat) (f : Context → Context) : (s.modCtx n f).ingressPaused = s.ingressPaused := rfl
@[simp] theorem modCtx_mem (s : State) (n : Nat) (f : Context → Context) : (s.modCtx n f).mem = s.mem := rfl
@[simp] theorem modCtx_media (s : State) (n : Nat) (f : Context → Context) : (s.modCtx n f).media = s.media := rfl
@[simp] theorem modCtx_faults (s : State) (n : Nat) (f : Context → Context) : (s.modCtx n f).faults = s.faults := rfl
@[simp] theorem modCtx_ports (s : State) (n : Nat) (f : Context → Context) : (s.modCtx n f).ports = s.ports := rfl
@[simp] theorem modCtx_roce (s : State) (n : Nat) (f : Context → Context) : (s.modCtx n f).roce = s.roce := rfl
@[simp] theorem modCtx_domain (s : State) (n : Nat) (f : Context → Context) : (s.modCtx n f).domain = s.domain := rfl
@[simp] theorem modCtx_dict (s : State) (n : Nat) (f : Context → Context) : (s.modCtx n f).dict = s.dict := rfl

/-! ### dropCtx -/

@[simp] theorem dropCtx_contexts (s : State) (n : Nat) :
    (s.dropCtx n).contexts = s.contexts.filter fun c => c.num != n := rfl
@[simp] theorem dropCtx_pending (s : State) (n : Nat) : (s.dropCtx n).pending = s.pending := rfl
@[simp] theorem dropCtx_free (s : State) (n : Nat) : (s.dropCtx n).free = s.free := rfl
@[simp] theorem dropCtx_uptime (s : State) (n : Nat) : (s.dropCtx n).uptime = s.uptime := rfl
@[simp] theorem dropCtx_sent (s : State) (n : Nat) : (s.dropCtx n).sent = s.sent := rfl
@[simp] theorem dropCtx_pins (s : State) (n : Nat) : (s.dropCtx n).pins = s.pins := rfl
@[simp] theorem dropCtx_power (s : State) (n : Nat) : (s.dropCtx n).power = s.power := rfl
@[simp] theorem dropCtx_startup (s : State) (n : Nat) : (s.dropCtx n).startup = s.startup := rfl
@[simp] theorem dropCtx_fuses (s : State) (n : Nat) : (s.dropCtx n).fuses = s.fuses := rfl
@[simp] theorem dropCtx_host (s : State) (n : Nat) : (s.dropCtx n).host = s.host := rfl
@[simp] theorem dropCtx_catalogue (s : State) (n : Nat) : (s.dropCtx n).catalogue = s.catalogue := rfl
@[simp] theorem dropCtx_regLog (s : State) (n : Nat) : (s.dropCtx n).regLog = s.regLog := rfl
@[simp] theorem dropCtx_concealLog (s : State) (n : Nat) : (s.dropCtx n).concealLog = s.concealLog := rfl
@[simp] theorem dropCtx_timingLog (s : State) (n : Nat) : (s.dropCtx n).timingLog = s.timingLog := rfl
@[simp] theorem dropCtx_topology (s : State) (n : Nat) : (s.dropCtx n).topology = s.topology := rfl
@[simp] theorem dropCtx_vocabs (s : State) (n : Nat) : (s.dropCtx n).vocabs = s.vocabs := rfl
@[simp] theorem dropCtx_grammars (s : State) (n : Nat) : (s.dropCtx n).grammars = s.grammars := rfl
@[simp] theorem dropCtx_crews (s : State) (n : Nat) : (s.dropCtx n).crews = s.crews := rfl
@[simp] theorem dropCtx_residents (s : State) (n : Nat) : (s.dropCtx n).residents = s.residents := rfl
@[simp] theorem dropCtx_sinks (s : State) (n : Nat) : (s.dropCtx n).sinks = s.sinks := rfl
@[simp] theorem dropCtx_sinkTotals (s : State) (n : Nat) : (s.dropCtx n).sinkTotals = s.sinkTotals := rfl
@[simp] theorem dropCtx_streams (s : State) (n : Nat) : (s.dropCtx n).streams = s.streams := rfl
@[simp] theorem dropCtx_ingress (s : State) (n : Nat) : (s.dropCtx n).ingress = s.ingress := rfl
@[simp] theorem dropCtx_textTurn (s : State) (n : Nat) : (s.dropCtx n).textTurn = s.textTurn := rfl
@[simp] theorem dropCtx_ingressPaused (s : State) (n : Nat) : (s.dropCtx n).ingressPaused = s.ingressPaused := rfl
@[simp] theorem dropCtx_mem (s : State) (n : Nat) : (s.dropCtx n).mem = s.mem := rfl
@[simp] theorem dropCtx_media (s : State) (n : Nat) : (s.dropCtx n).media = s.media := rfl
@[simp] theorem dropCtx_faults (s : State) (n : Nat) : (s.dropCtx n).faults = s.faults := rfl
@[simp] theorem dropCtx_ports (s : State) (n : Nat) : (s.dropCtx n).ports = s.ports := rfl
@[simp] theorem dropCtx_roce (s : State) (n : Nat) : (s.dropCtx n).roce = s.roce := rfl
@[simp] theorem dropCtx_domain (s : State) (n : Nat) : (s.dropCtx n).domain = s.domain := rfl
@[simp] theorem dropCtx_dict (s : State) (n : Nat) : (s.dropCtx n).dict = s.dict := rfl

/-! ### modPort -/

@[simp] theorem modPort_ports (s : State) (n : Nat) (f : Port → Port) :
    (s.modPort n f).ports = updWhere (fun p => p.n == n) f s.ports := rfl
@[simp] theorem modPort_pending (s : State) (n : Nat) (f : Port → Port) : (s.modPort n f).pending = s.pending := rfl
@[simp] theorem modPort_free (s : State) (n : Nat) (f : Port → Port) : (s.modPort n f).free = s.free := rfl
@[simp] theorem modPort_uptime (s : State) (n : Nat) (f : Port → Port) : (s.modPort n f).uptime = s.uptime := rfl
@[simp] theorem modPort_sent (s : State) (n : Nat) (f : Port → Port) : (s.modPort n f).sent = s.sent := rfl
@[simp] theorem modPort_pins (s : State) (n : Nat) (f : Port → Port) : (s.modPort n f).pins = s.pins := rfl
@[simp] theorem modPort_power (s : State) (n : Nat) (f : Port → Port) : (s.modPort n f).power = s.power := rfl
@[simp] theorem modPort_startup (s : State) (n : Nat) (f : Port → Port) : (s.modPort n f).startup = s.startup := rfl
@[simp] theorem modPort_fuses (s : State) (n : Nat) (f : Port → Port) : (s.modPort n f).fuses = s.fuses := rfl
@[simp] theorem modPort_host (s : State) (n : Nat) (f : Port → Port) : (s.modPort n f).host = s.host := rfl
@[simp] theorem modPort_catalogue (s : State) (n : Nat) (f : Port → Port) : (s.modPort n f).catalogue = s.catalogue := rfl
@[simp] theorem modPort_regLog (s : State) (n : Nat) (f : Port → Port) : (s.modPort n f).regLog = s.regLog := rfl
@[simp] theorem modPort_concealLog (s : State) (n : Nat) (f : Port → Port) : (s.modPort n f).concealLog = s.concealLog := rfl
@[simp] theorem modPort_timingLog (s : State) (n : Nat) (f : Port → Port) : (s.modPort n f).timingLog = s.timingLog := rfl
@[simp] theorem modPort_topology (s : State) (n : Nat) (f : Port → Port) : (s.modPort n f).topology = s.topology := rfl
@[simp] theorem modPort_vocabs (s : State) (n : Nat) (f : Port → Port) : (s.modPort n f).vocabs = s.vocabs := rfl
@[simp] theorem modPort_grammars (s : State) (n : Nat) (f : Port → Port) : (s.modPort n f).grammars = s.grammars := rfl
@[simp] theorem modPort_crews (s : State) (n : Nat) (f : Port → Port) : (s.modPort n f).crews = s.crews := rfl
@[simp] theorem modPort_contexts (s : State) (n : Nat) (f : Port → Port) : (s.modPort n f).contexts = s.contexts := rfl
@[simp] theorem modPort_residents (s : State) (n : Nat) (f : Port → Port) : (s.modPort n f).residents = s.residents := rfl
@[simp] theorem modPort_sinks (s : State) (n : Nat) (f : Port → Port) : (s.modPort n f).sinks = s.sinks := rfl
@[simp] theorem modPort_sinkTotals (s : State) (n : Nat) (f : Port → Port) : (s.modPort n f).sinkTotals = s.sinkTotals := rfl
@[simp] theorem modPort_streams (s : State) (n : Nat) (f : Port → Port) : (s.modPort n f).streams = s.streams := rfl
@[simp] theorem modPort_ingress (s : State) (n : Nat) (f : Port → Port) : (s.modPort n f).ingress = s.ingress := rfl
@[simp] theorem modPort_textTurn (s : State) (n : Nat) (f : Port → Port) : (s.modPort n f).textTurn = s.textTurn := rfl
@[simp] theorem modPort_ingressPaused (s : State) (n : Nat) (f : Port → Port) : (s.modPort n f).ingressPaused = s.ingressPaused := rfl
@[simp] theorem modPort_mem (s : State) (n : Nat) (f : Port → Port) : (s.modPort n f).mem = s.mem := rfl
@[simp] theorem modPort_media (s : State) (n : Nat) (f : Port → Port) : (s.modPort n f).media = s.media := rfl
@[simp] theorem modPort_faults (s : State) (n : Nat) (f : Port → Port) : (s.modPort n f).faults = s.faults := rfl
@[simp] theorem modPort_roce (s : State) (n : Nat) (f : Port → Port) : (s.modPort n f).roce = s.roce := rfl
@[simp] theorem modPort_domain (s : State) (n : Nat) (f : Port → Port) : (s.modPort n f).domain = s.domain := rfl
@[simp] theorem modPort_dict (s : State) (n : Nat) (f : Port → Port) : (s.modPort n f).dict = s.dict := rfl

/-! ### modQp -/

@[simp] theorem modQp_qps (s : State) (q : Nat) (f : QueuePair → QueuePair) :
    (s.modQp q f).host.qps = updWhere (fun p => p.qid == q) f s.host.qps := rfl
@[simp] theorem modQp_cmds (s : State) (q : Nat) (f : QueuePair → QueuePair) :
    (s.modQp q f).host.cmds = s.host.cmds := rfl
@[simp] theorem modQp_pending (s : State) (q : Nat) (f : QueuePair → QueuePair) : (s.modQp q f).pending = s.pending := rfl
@[simp] theorem modQp_free (s : State) (q : Nat) (f : QueuePair → QueuePair) : (s.modQp q f).free = s.free := rfl
@[simp] theorem modQp_uptime (s : State) (q : Nat) (f : QueuePair → QueuePair) : (s.modQp q f).uptime = s.uptime := rfl
@[simp] theorem modQp_sent (s : State) (q : Nat) (f : QueuePair → QueuePair) : (s.modQp q f).sent = s.sent := rfl
@[simp] theorem modQp_pins (s : State) (q : Nat) (f : QueuePair → QueuePair) : (s.modQp q f).pins = s.pins := rfl
@[simp] theorem modQp_power (s : State) (q : Nat) (f : QueuePair → QueuePair) : (s.modQp q f).power = s.power := rfl
@[simp] theorem modQp_startup (s : State) (q : Nat) (f : QueuePair → QueuePair) : (s.modQp q f).startup = s.startup := rfl
@[simp] theorem modQp_fuses (s : State) (q : Nat) (f : QueuePair → QueuePair) : (s.modQp q f).fuses = s.fuses := rfl
@[simp] theorem modQp_catalogue (s : State) (q : Nat) (f : QueuePair → QueuePair) : (s.modQp q f).catalogue = s.catalogue := rfl
@[simp] theorem modQp_regLog (s : State) (q : Nat) (f : QueuePair → QueuePair) : (s.modQp q f).regLog = s.regLog := rfl
@[simp] theorem modQp_concealLog (s : State) (q : Nat) (f : QueuePair → QueuePair) : (s.modQp q f).concealLog = s.concealLog := rfl
@[simp] theorem modQp_timingLog (s : State) (q : Nat) (f : QueuePair → QueuePair) : (s.modQp q f).timingLog = s.timingLog := rfl
@[simp] theorem modQp_topology (s : State) (q : Nat) (f : QueuePair → QueuePair) : (s.modQp q f).topology = s.topology := rfl
@[simp] theorem modQp_vocabs (s : State) (q : Nat) (f : QueuePair → QueuePair) : (s.modQp q f).vocabs = s.vocabs := rfl
@[simp] theorem modQp_grammars (s : State) (q : Nat) (f : QueuePair → QueuePair) : (s.modQp q f).grammars = s.grammars := rfl
@[simp] theorem modQp_crews (s : State) (q : Nat) (f : QueuePair → QueuePair) : (s.modQp q f).crews = s.crews := rfl
@[simp] theorem modQp_contexts (s : State) (q : Nat) (f : QueuePair → QueuePair) : (s.modQp q f).contexts = s.contexts := rfl
@[simp] theorem modQp_residents (s : State) (q : Nat) (f : QueuePair → QueuePair) : (s.modQp q f).residents = s.residents := rfl
@[simp] theorem modQp_sinks (s : State) (q : Nat) (f : QueuePair → QueuePair) : (s.modQp q f).sinks = s.sinks := rfl
@[simp] theorem modQp_sinkTotals (s : State) (q : Nat) (f : QueuePair → QueuePair) : (s.modQp q f).sinkTotals = s.sinkTotals := rfl
@[simp] theorem modQp_streams (s : State) (q : Nat) (f : QueuePair → QueuePair) : (s.modQp q f).streams = s.streams := rfl
@[simp] theorem modQp_ingress (s : State) (q : Nat) (f : QueuePair → QueuePair) : (s.modQp q f).ingress = s.ingress := rfl
@[simp] theorem modQp_textTurn (s : State) (q : Nat) (f : QueuePair → QueuePair) : (s.modQp q f).textTurn = s.textTurn := rfl
@[simp] theorem modQp_ingressPaused (s : State) (q : Nat) (f : QueuePair → QueuePair) : (s.modQp q f).ingressPaused = s.ingressPaused := rfl
@[simp] theorem modQp_mem (s : State) (q : Nat) (f : QueuePair → QueuePair) : (s.modQp q f).mem = s.mem := rfl
@[simp] theorem modQp_media (s : State) (q : Nat) (f : QueuePair → QueuePair) : (s.modQp q f).media = s.media := rfl
@[simp] theorem modQp_faults (s : State) (q : Nat) (f : QueuePair → QueuePair) : (s.modQp q f).faults = s.faults := rfl
@[simp] theorem modQp_ports (s : State) (q : Nat) (f : QueuePair → QueuePair) : (s.modQp q f).ports = s.ports := rfl
@[simp] theorem modQp_roce (s : State) (q : Nat) (f : QueuePair → QueuePair) : (s.modQp q f).roce = s.roce := rfl
@[simp] theorem modQp_domain (s : State) (q : Nat) (f : QueuePair → QueuePair) : (s.modQp q f).domain = s.domain := rfl
@[simp] theorem modQp_dict (s : State) (q : Nat) (f : QueuePair → QueuePair) : (s.modQp q f).dict = s.dict := rfl

/-! ### modCmd -/

@[simp] theorem modCmd_cmds (s : State) (q i : Nat) (f : Cmd → Cmd) :
    (s.modCmd q i f).host.cmds = updWhere (fun c => c.is q i) f s.host.cmds := rfl
@[simp] theorem modCmd_qps (s : State) (q i : Nat) (f : Cmd → Cmd) :
    (s.modCmd q i f).host.qps = s.host.qps := rfl
@[simp] theorem modCmd_pending (s : State) (q i : Nat) (f : Cmd → Cmd) : (s.modCmd q i f).pending = s.pending := rfl
@[simp] theorem modCmd_free (s : State) (q i : Nat) (f : Cmd → Cmd) : (s.modCmd q i f).free = s.free := rfl
@[simp] theorem modCmd_uptime (s : State) (q i : Nat) (f : Cmd → Cmd) : (s.modCmd q i f).uptime = s.uptime := rfl
@[simp] theorem modCmd_sent (s : State) (q i : Nat) (f : Cmd → Cmd) : (s.modCmd q i f).sent = s.sent := rfl
@[simp] theorem modCmd_pins (s : State) (q i : Nat) (f : Cmd → Cmd) : (s.modCmd q i f).pins = s.pins := rfl
@[simp] theorem modCmd_power (s : State) (q i : Nat) (f : Cmd → Cmd) : (s.modCmd q i f).power = s.power := rfl
@[simp] theorem modCmd_startup (s : State) (q i : Nat) (f : Cmd → Cmd) : (s.modCmd q i f).startup = s.startup := rfl
@[simp] theorem modCmd_fuses (s : State) (q i : Nat) (f : Cmd → Cmd) : (s.modCmd q i f).fuses = s.fuses := rfl
@[simp] theorem modCmd_catalogue (s : State) (q i : Nat) (f : Cmd → Cmd) : (s.modCmd q i f).catalogue = s.catalogue := rfl
@[simp] theorem modCmd_regLog (s : State) (q i : Nat) (f : Cmd → Cmd) : (s.modCmd q i f).regLog = s.regLog := rfl
@[simp] theorem modCmd_concealLog (s : State) (q i : Nat) (f : Cmd → Cmd) : (s.modCmd q i f).concealLog = s.concealLog := rfl
@[simp] theorem modCmd_timingLog (s : State) (q i : Nat) (f : Cmd → Cmd) : (s.modCmd q i f).timingLog = s.timingLog := rfl
@[simp] theorem modCmd_topology (s : State) (q i : Nat) (f : Cmd → Cmd) : (s.modCmd q i f).topology = s.topology := rfl
@[simp] theorem modCmd_vocabs (s : State) (q i : Nat) (f : Cmd → Cmd) : (s.modCmd q i f).vocabs = s.vocabs := rfl
@[simp] theorem modCmd_grammars (s : State) (q i : Nat) (f : Cmd → Cmd) : (s.modCmd q i f).grammars = s.grammars := rfl
@[simp] theorem modCmd_crews (s : State) (q i : Nat) (f : Cmd → Cmd) : (s.modCmd q i f).crews = s.crews := rfl
@[simp] theorem modCmd_contexts (s : State) (q i : Nat) (f : Cmd → Cmd) : (s.modCmd q i f).contexts = s.contexts := rfl
@[simp] theorem modCmd_residents (s : State) (q i : Nat) (f : Cmd → Cmd) : (s.modCmd q i f).residents = s.residents := rfl
@[simp] theorem modCmd_sinks (s : State) (q i : Nat) (f : Cmd → Cmd) : (s.modCmd q i f).sinks = s.sinks := rfl
@[simp] theorem modCmd_sinkTotals (s : State) (q i : Nat) (f : Cmd → Cmd) : (s.modCmd q i f).sinkTotals = s.sinkTotals := rfl
@[simp] theorem modCmd_streams (s : State) (q i : Nat) (f : Cmd → Cmd) : (s.modCmd q i f).streams = s.streams := rfl
@[simp] theorem modCmd_ingress (s : State) (q i : Nat) (f : Cmd → Cmd) : (s.modCmd q i f).ingress = s.ingress := rfl
@[simp] theorem modCmd_textTurn (s : State) (q i : Nat) (f : Cmd → Cmd) : (s.modCmd q i f).textTurn = s.textTurn := rfl
@[simp] theorem modCmd_ingressPaused (s : State) (q i : Nat) (f : Cmd → Cmd) : (s.modCmd q i f).ingressPaused = s.ingressPaused := rfl
@[simp] theorem modCmd_mem (s : State) (q i : Nat) (f : Cmd → Cmd) : (s.modCmd q i f).mem = s.mem := rfl
@[simp] theorem modCmd_media (s : State) (q i : Nat) (f : Cmd → Cmd) : (s.modCmd q i f).media = s.media := rfl
@[simp] theorem modCmd_faults (s : State) (q i : Nat) (f : Cmd → Cmd) : (s.modCmd q i f).faults = s.faults := rfl
@[simp] theorem modCmd_ports (s : State) (q i : Nat) (f : Cmd → Cmd) : (s.modCmd q i f).ports = s.ports := rfl
@[simp] theorem modCmd_roce (s : State) (q i : Nat) (f : Cmd → Cmd) : (s.modCmd q i f).roce = s.roce := rfl
@[simp] theorem modCmd_domain (s : State) (q i : Nat) (f : Cmd → Cmd) : (s.modCmd q i f).domain = s.domain := rfl
@[simp] theorem modCmd_dict (s : State) (q i : Nat) (f : Cmd → Cmd) : (s.modCmd q i f).dict = s.dict := rfl

/-! ### hold -/

@[simp] theorem hold_qps (s : State) (q : Nat) (p : Posting) :
    (s.hold q p).host.qps = updWhere (fun x => x.qid == q) (fun x => { x with held := x.held ++ [p] }) s.host.qps := rfl
@[simp] theorem hold_cmds (s : State) (q : Nat) (p : Posting) :
    (s.hold q p).host.cmds = s.host.cmds := rfl
@[simp] theorem hold_pending (s : State) (q : Nat) (p : Posting) : (s.hold q p).pending = s.pending := rfl
@[simp] theorem hold_free (s : State) (q : Nat) (p : Posting) : (s.hold q p).free = s.free := rfl
@[simp] theorem hold_uptime (s : State) (q : Nat) (p : Posting) : (s.hold q p).uptime = s.uptime := rfl
@[simp] theorem hold_sent (s : State) (q : Nat) (p : Posting) : (s.hold q p).sent = s.sent := rfl
@[simp] theorem hold_pins (s : State) (q : Nat) (p : Posting) : (s.hold q p).pins = s.pins := rfl
@[simp] theorem hold_power (s : State) (q : Nat) (p : Posting) : (s.hold q p).power = s.power := rfl
@[simp] theorem hold_startup (s : State) (q : Nat) (p : Posting) : (s.hold q p).startup = s.startup := rfl
@[simp] theorem hold_fuses (s : State) (q : Nat) (p : Posting) : (s.hold q p).fuses = s.fuses := rfl
@[simp] theorem hold_catalogue (s : State) (q : Nat) (p : Posting) : (s.hold q p).catalogue = s.catalogue := rfl
@[simp] theorem hold_regLog (s : State) (q : Nat) (p : Posting) : (s.hold q p).regLog = s.regLog := rfl
@[simp] theorem hold_concealLog (s : State) (q : Nat) (p : Posting) : (s.hold q p).concealLog = s.concealLog := rfl
@[simp] theorem hold_timingLog (s : State) (q : Nat) (p : Posting) : (s.hold q p).timingLog = s.timingLog := rfl
@[simp] theorem hold_topology (s : State) (q : Nat) (p : Posting) : (s.hold q p).topology = s.topology := rfl
@[simp] theorem hold_vocabs (s : State) (q : Nat) (p : Posting) : (s.hold q p).vocabs = s.vocabs := rfl
@[simp] theorem hold_grammars (s : State) (q : Nat) (p : Posting) : (s.hold q p).grammars = s.grammars := rfl
@[simp] theorem hold_crews (s : State) (q : Nat) (p : Posting) : (s.hold q p).crews = s.crews := rfl
@[simp] theorem hold_contexts (s : State) (q : Nat) (p : Posting) : (s.hold q p).contexts = s.contexts := rfl
@[simp] theorem hold_residents (s : State) (q : Nat) (p : Posting) : (s.hold q p).residents = s.residents := rfl
@[simp] theorem hold_sinks (s : State) (q : Nat) (p : Posting) : (s.hold q p).sinks = s.sinks := rfl
@[simp] theorem hold_sinkTotals (s : State) (q : Nat) (p : Posting) : (s.hold q p).sinkTotals = s.sinkTotals := rfl
@[simp] theorem hold_streams (s : State) (q : Nat) (p : Posting) : (s.hold q p).streams = s.streams := rfl
@[simp] theorem hold_ingress (s : State) (q : Nat) (p : Posting) : (s.hold q p).ingress = s.ingress := rfl
@[simp] theorem hold_textTurn (s : State) (q : Nat) (p : Posting) : (s.hold q p).textTurn = s.textTurn := rfl
@[simp] theorem hold_ingressPaused (s : State) (q : Nat) (p : Posting) : (s.hold q p).ingressPaused = s.ingressPaused := rfl
@[simp] theorem hold_mem (s : State) (q : Nat) (p : Posting) : (s.hold q p).mem = s.mem := rfl
@[simp] theorem hold_media (s : State) (q : Nat) (p : Posting) : (s.hold q p).media = s.media := rfl
@[simp] theorem hold_faults (s : State) (q : Nat) (p : Posting) : (s.hold q p).faults = s.faults := rfl
@[simp] theorem hold_ports (s : State) (q : Nat) (p : Posting) : (s.hold q p).ports = s.ports := rfl
@[simp] theorem hold_roce (s : State) (q : Nat) (p : Posting) : (s.hold q p).roce = s.roce := rfl
@[simp] theorem hold_domain (s : State) (q : Nat) (p : Posting) : (s.hold q p).domain = s.domain := rfl
@[simp] theorem hold_dict (s : State) (q : Nat) (p : Posting) : (s.hold q p).dict = s.dict := rfl

/-! ### withdraw -/

@[simp] theorem withdraw_cmds (s : State) (q i : Nat) :
    (s.withdraw q i).host.cmds = s.host.cmds := rfl
@[simp] theorem withdraw_qps (s : State) (q i : Nat) :
    (s.withdraw q i).host.qps = s.host.qps := rfl
@[simp] theorem withdraw_grants (s : State) (q i : Nat) :
    (s.withdraw q i).host.grants = s.host.grants.filter fun g => !(g.qid == q && g.cid == i) := rfl
@[simp] theorem withdraw_pending (s : State) (q i : Nat) : (s.withdraw q i).pending = s.pending := rfl
@[simp] theorem withdraw_free (s : State) (q i : Nat) : (s.withdraw q i).free = s.free := rfl
@[simp] theorem withdraw_uptime (s : State) (q i : Nat) : (s.withdraw q i).uptime = s.uptime := rfl
@[simp] theorem withdraw_sent (s : State) (q i : Nat) : (s.withdraw q i).sent = s.sent := rfl
@[simp] theorem withdraw_pins (s : State) (q i : Nat) : (s.withdraw q i).pins = s.pins := rfl
@[simp] theorem withdraw_power (s : State) (q i : Nat) : (s.withdraw q i).power = s.power := rfl
@[simp] theorem withdraw_startup (s : State) (q i : Nat) : (s.withdraw q i).startup = s.startup := rfl
@[simp] theorem withdraw_fuses (s : State) (q i : Nat) : (s.withdraw q i).fuses = s.fuses := rfl
@[simp] theorem withdraw_catalogue (s : State) (q i : Nat) : (s.withdraw q i).catalogue = s.catalogue := rfl
@[simp] theorem withdraw_regLog (s : State) (q i : Nat) : (s.withdraw q i).regLog = s.regLog := rfl
@[simp] theorem withdraw_concealLog (s : State) (q i : Nat) : (s.withdraw q i).concealLog = s.concealLog := rfl
@[simp] theorem withdraw_timingLog (s : State) (q i : Nat) : (s.withdraw q i).timingLog = s.timingLog := rfl
@[simp] theorem withdraw_topology (s : State) (q i : Nat) : (s.withdraw q i).topology = s.topology := rfl
@[simp] theorem withdraw_vocabs (s : State) (q i : Nat) : (s.withdraw q i).vocabs = s.vocabs := rfl
@[simp] theorem withdraw_grammars (s : State) (q i : Nat) : (s.withdraw q i).grammars = s.grammars := rfl
@[simp] theorem withdraw_crews (s : State) (q i : Nat) : (s.withdraw q i).crews = s.crews := rfl
@[simp] theorem withdraw_contexts (s : State) (q i : Nat) : (s.withdraw q i).contexts = s.contexts := rfl
@[simp] theorem withdraw_residents (s : State) (q i : Nat) : (s.withdraw q i).residents = s.residents := rfl
@[simp] theorem withdraw_sinks (s : State) (q i : Nat) : (s.withdraw q i).sinks = s.sinks := rfl
@[simp] theorem withdraw_sinkTotals (s : State) (q i : Nat) : (s.withdraw q i).sinkTotals = s.sinkTotals := rfl
@[simp] theorem withdraw_streams (s : State) (q i : Nat) : (s.withdraw q i).streams = s.streams := rfl
@[simp] theorem withdraw_ingress (s : State) (q i : Nat) : (s.withdraw q i).ingress = s.ingress := rfl
@[simp] theorem withdraw_textTurn (s : State) (q i : Nat) : (s.withdraw q i).textTurn = s.textTurn := rfl
@[simp] theorem withdraw_ingressPaused (s : State) (q i : Nat) : (s.withdraw q i).ingressPaused = s.ingressPaused := rfl
@[simp] theorem withdraw_mem (s : State) (q i : Nat) : (s.withdraw q i).mem = s.mem := rfl
@[simp] theorem withdraw_media (s : State) (q i : Nat) : (s.withdraw q i).media = s.media := rfl
@[simp] theorem withdraw_faults (s : State) (q i : Nat) : (s.withdraw q i).faults = s.faults := rfl
@[simp] theorem withdraw_ports (s : State) (q i : Nat) : (s.withdraw q i).ports = s.ports := rfl
@[simp] theorem withdraw_roce (s : State) (q i : Nat) : (s.withdraw q i).roce = s.roce := rfl
@[simp] theorem withdraw_domain (s : State) (q i : Nat) : (s.withdraw q i).domain = s.domain := rfl
@[simp] theorem withdraw_dict (s : State) (q i : Nat) : (s.withdraw q i).dict = s.dict := rfl

/-! ### complete -/

@[simp] theorem complete_qps (s : State) (c : Cmd) (r : Result) :
    (s.complete c r).host.qps = updWhere (fun x => x.qid == c.qid) (fun x => { x with held := x.held ++ [s.posting c r] }) s.host.qps := rfl
@[simp] theorem complete_cmds (s : State) (c : Cmd) (r : Result) :
    (s.complete c r).host.cmds = s.host.cmds.filter fun x => !(x.is c.qid c.cid) := rfl
@[simp] theorem complete_pending (s : State) (c : Cmd) (r : Result) : (s.complete c r).pending = s.pending := rfl
@[simp] theorem complete_free (s : State) (c : Cmd) (r : Result) : (s.complete c r).free = s.free := rfl
@[simp] theorem complete_uptime (s : State) (c : Cmd) (r : Result) : (s.complete c r).uptime = s.uptime := rfl
@[simp] theorem complete_sent (s : State) (c : Cmd) (r : Result) : (s.complete c r).sent = s.sent := rfl
@[simp] theorem complete_pins (s : State) (c : Cmd) (r : Result) : (s.complete c r).pins = s.pins := rfl
@[simp] theorem complete_power (s : State) (c : Cmd) (r : Result) : (s.complete c r).power = s.power := rfl
@[simp] theorem complete_startup (s : State) (c : Cmd) (r : Result) : (s.complete c r).startup = s.startup := rfl
@[simp] theorem complete_fuses (s : State) (c : Cmd) (r : Result) : (s.complete c r).fuses = s.fuses := rfl
@[simp] theorem complete_catalogue (s : State) (c : Cmd) (r : Result) : (s.complete c r).catalogue = s.catalogue := rfl
@[simp] theorem complete_regLog (s : State) (c : Cmd) (r : Result) : (s.complete c r).regLog = s.regLog := rfl
@[simp] theorem complete_concealLog (s : State) (c : Cmd) (r : Result) : (s.complete c r).concealLog = s.concealLog := rfl
@[simp] theorem complete_timingLog (s : State) (c : Cmd) (r : Result) : (s.complete c r).timingLog = s.timingLog := rfl
@[simp] theorem complete_topology (s : State) (c : Cmd) (r : Result) : (s.complete c r).topology = s.topology := rfl
@[simp] theorem complete_vocabs (s : State) (c : Cmd) (r : Result) : (s.complete c r).vocabs = s.vocabs := rfl
@[simp] theorem complete_grammars (s : State) (c : Cmd) (r : Result) : (s.complete c r).grammars = s.grammars := rfl
@[simp] theorem complete_crews (s : State) (c : Cmd) (r : Result) : (s.complete c r).crews = s.crews := rfl
@[simp] theorem complete_contexts (s : State) (c : Cmd) (r : Result) : (s.complete c r).contexts = s.contexts := rfl
@[simp] theorem complete_residents (s : State) (c : Cmd) (r : Result) : (s.complete c r).residents = s.residents := rfl
@[simp] theorem complete_sinks (s : State) (c : Cmd) (r : Result) : (s.complete c r).sinks = s.sinks := rfl
@[simp] theorem complete_sinkTotals (s : State) (c : Cmd) (r : Result) : (s.complete c r).sinkTotals = s.sinkTotals := rfl
@[simp] theorem complete_streams (s : State) (c : Cmd) (r : Result) : (s.complete c r).streams = s.streams := rfl
@[simp] theorem complete_ingress (s : State) (c : Cmd) (r : Result) : (s.complete c r).ingress = s.ingress := rfl
@[simp] theorem complete_textTurn (s : State) (c : Cmd) (r : Result) : (s.complete c r).textTurn = s.textTurn := rfl
@[simp] theorem complete_ingressPaused (s : State) (c : Cmd) (r : Result) : (s.complete c r).ingressPaused = s.ingressPaused := rfl
@[simp] theorem complete_mem (s : State) (c : Cmd) (r : Result) : (s.complete c r).mem = s.mem := rfl
@[simp] theorem complete_media (s : State) (c : Cmd) (r : Result) : (s.complete c r).media = s.media := rfl
@[simp] theorem complete_faults (s : State) (c : Cmd) (r : Result) : (s.complete c r).faults = s.faults := rfl
@[simp] theorem complete_ports (s : State) (c : Cmd) (r : Result) : (s.complete c r).ports = s.ports := rfl
@[simp] theorem complete_roce (s : State) (c : Cmd) (r : Result) : (s.complete c r).roce = s.roce := rfl
@[simp] theorem complete_domain (s : State) (c : Cmd) (r : Result) : (s.complete c r).domain = s.domain := rfl
@[simp] theorem complete_dict (s : State) (c : Cmd) (r : Result) : (s.complete c r).dict = s.dict := rfl

/-! ### barWrite -/

@[simp] theorem barWrite_cmds (s : State) (bar off : Nat) (b : Bytes) :
    (s.barWrite bar off b).host.cmds = s.host.cmds := rfl
@[simp] theorem barWrite_qps (s : State) (bar off : Nat) (b : Bytes) :
    (s.barWrite bar off b).host.qps = s.host.qps := rfl
@[simp] theorem barWrite_pending (s : State) (bar off : Nat) (b : Bytes) : (s.barWrite bar off b).pending = s.pending := rfl
@[simp] theorem barWrite_free (s : State) (bar off : Nat) (b : Bytes) : (s.barWrite bar off b).free = s.free := rfl
@[simp] theorem barWrite_uptime (s : State) (bar off : Nat) (b : Bytes) : (s.barWrite bar off b).uptime = s.uptime := rfl
@[simp] theorem barWrite_sent (s : State) (bar off : Nat) (b : Bytes) : (s.barWrite bar off b).sent = s.sent := rfl
@[simp] theorem barWrite_pins (s : State) (bar off : Nat) (b : Bytes) : (s.barWrite bar off b).pins = s.pins := rfl
@[simp] theorem barWrite_power (s : State) (bar off : Nat) (b : Bytes) : (s.barWrite bar off b).power = s.power := rfl
@[simp] theorem barWrite_startup (s : State) (bar off : Nat) (b : Bytes) : (s.barWrite bar off b).startup = s.startup := rfl
@[simp] theorem barWrite_fuses (s : State) (bar off : Nat) (b : Bytes) : (s.barWrite bar off b).fuses = s.fuses := rfl
@[simp] theorem barWrite_catalogue (s : State) (bar off : Nat) (b : Bytes) : (s.barWrite bar off b).catalogue = s.catalogue := rfl
@[simp] theorem barWrite_regLog (s : State) (bar off : Nat) (b : Bytes) : (s.barWrite bar off b).regLog = s.regLog := rfl
@[simp] theorem barWrite_concealLog (s : State) (bar off : Nat) (b : Bytes) : (s.barWrite bar off b).concealLog = s.concealLog := rfl
@[simp] theorem barWrite_timingLog (s : State) (bar off : Nat) (b : Bytes) : (s.barWrite bar off b).timingLog = s.timingLog := rfl
@[simp] theorem barWrite_topology (s : State) (bar off : Nat) (b : Bytes) : (s.barWrite bar off b).topology = s.topology := rfl
@[simp] theorem barWrite_vocabs (s : State) (bar off : Nat) (b : Bytes) : (s.barWrite bar off b).vocabs = s.vocabs := rfl
@[simp] theorem barWrite_grammars (s : State) (bar off : Nat) (b : Bytes) : (s.barWrite bar off b).grammars = s.grammars := rfl
@[simp] theorem barWrite_crews (s : State) (bar off : Nat) (b : Bytes) : (s.barWrite bar off b).crews = s.crews := rfl
@[simp] theorem barWrite_contexts (s : State) (bar off : Nat) (b : Bytes) : (s.barWrite bar off b).contexts = s.contexts := rfl
@[simp] theorem barWrite_residents (s : State) (bar off : Nat) (b : Bytes) : (s.barWrite bar off b).residents = s.residents := rfl
@[simp] theorem barWrite_sinks (s : State) (bar off : Nat) (b : Bytes) : (s.barWrite bar off b).sinks = s.sinks := rfl
@[simp] theorem barWrite_sinkTotals (s : State) (bar off : Nat) (b : Bytes) : (s.barWrite bar off b).sinkTotals = s.sinkTotals := rfl
@[simp] theorem barWrite_streams (s : State) (bar off : Nat) (b : Bytes) : (s.barWrite bar off b).streams = s.streams := rfl
@[simp] theorem barWrite_ingress (s : State) (bar off : Nat) (b : Bytes) : (s.barWrite bar off b).ingress = s.ingress := rfl
@[simp] theorem barWrite_textTurn (s : State) (bar off : Nat) (b : Bytes) : (s.barWrite bar off b).textTurn = s.textTurn := rfl
@[simp] theorem barWrite_ingressPaused (s : State) (bar off : Nat) (b : Bytes) : (s.barWrite bar off b).ingressPaused = s.ingressPaused := rfl
@[simp] theorem barWrite_mem (s : State) (bar off : Nat) (b : Bytes) : (s.barWrite bar off b).mem = s.mem := rfl
@[simp] theorem barWrite_media (s : State) (bar off : Nat) (b : Bytes) : (s.barWrite bar off b).media = s.media := rfl
@[simp] theorem barWrite_faults (s : State) (bar off : Nat) (b : Bytes) : (s.barWrite bar off b).faults = s.faults := rfl
@[simp] theorem barWrite_ports (s : State) (bar off : Nat) (b : Bytes) : (s.barWrite bar off b).ports = s.ports := rfl
@[simp] theorem barWrite_roce (s : State) (bar off : Nat) (b : Bytes) : (s.barWrite bar off b).roce = s.roce := rfl
@[simp] theorem barWrite_domain (s : State) (bar off : Nat) (b : Bytes) : (s.barWrite bar off b).domain = s.domain := rfl
@[simp] theorem barWrite_dict (s : State) (bar off : Nat) (b : Bytes) : (s.barWrite bar off b).dict = s.dict := rfl

/-! ### modSink -/

@[simp] theorem modSink_sinks (s : State) (n : Nat) (f : Sink → Sink) :
    (s.modSink n f).sinks = updWhere (fun k => k.num == n) f s.sinks := rfl
@[simp] theorem modSink_pending (s : State) (n : Nat) (f : Sink → Sink) : (s.modSink n f).pending = s.pending := rfl
@[simp] theorem modSink_free (s : State) (n : Nat) (f : Sink → Sink) : (s.modSink n f).free = s.free := rfl
@[simp] theorem modSink_uptime (s : State) (n : Nat) (f : Sink → Sink) : (s.modSink n f).uptime = s.uptime := rfl
@[simp] theorem modSink_sent (s : State) (n : Nat) (f : Sink → Sink) : (s.modSink n f).sent = s.sent := rfl
@[simp] theorem modSink_pins (s : State) (n : Nat) (f : Sink → Sink) : (s.modSink n f).pins = s.pins := rfl
@[simp] theorem modSink_power (s : State) (n : Nat) (f : Sink → Sink) : (s.modSink n f).power = s.power := rfl
@[simp] theorem modSink_startup (s : State) (n : Nat) (f : Sink → Sink) : (s.modSink n f).startup = s.startup := rfl
@[simp] theorem modSink_fuses (s : State) (n : Nat) (f : Sink → Sink) : (s.modSink n f).fuses = s.fuses := rfl
@[simp] theorem modSink_host (s : State) (n : Nat) (f : Sink → Sink) : (s.modSink n f).host = s.host := rfl
@[simp] theorem modSink_catalogue (s : State) (n : Nat) (f : Sink → Sink) : (s.modSink n f).catalogue = s.catalogue := rfl
@[simp] theorem modSink_regLog (s : State) (n : Nat) (f : Sink → Sink) : (s.modSink n f).regLog = s.regLog := rfl
@[simp] theorem modSink_concealLog (s : State) (n : Nat) (f : Sink → Sink) : (s.modSink n f).concealLog = s.concealLog := rfl
@[simp] theorem modSink_timingLog (s : State) (n : Nat) (f : Sink → Sink) : (s.modSink n f).timingLog = s.timingLog := rfl
@[simp] theorem modSink_topology (s : State) (n : Nat) (f : Sink → Sink) : (s.modSink n f).topology = s.topology := rfl
@[simp] theorem modSink_vocabs (s : State) (n : Nat) (f : Sink → Sink) : (s.modSink n f).vocabs = s.vocabs := rfl
@[simp] theorem modSink_grammars (s : State) (n : Nat) (f : Sink → Sink) : (s.modSink n f).grammars = s.grammars := rfl
@[simp] theorem modSink_crews (s : State) (n : Nat) (f : Sink → Sink) : (s.modSink n f).crews = s.crews := rfl
@[simp] theorem modSink_contexts (s : State) (n : Nat) (f : Sink → Sink) : (s.modSink n f).contexts = s.contexts := rfl
@[simp] theorem modSink_residents (s : State) (n : Nat) (f : Sink → Sink) : (s.modSink n f).residents = s.residents := rfl
@[simp] theorem modSink_sinkTotals (s : State) (n : Nat) (f : Sink → Sink) : (s.modSink n f).sinkTotals = s.sinkTotals := rfl
@[simp] theorem modSink_streams (s : State) (n : Nat) (f : Sink → Sink) : (s.modSink n f).streams = s.streams := rfl
@[simp] theorem modSink_ingress (s : State) (n : Nat) (f : Sink → Sink) : (s.modSink n f).ingress = s.ingress := rfl
@[simp] theorem modSink_textTurn (s : State) (n : Nat) (f : Sink → Sink) : (s.modSink n f).textTurn = s.textTurn := rfl
@[simp] theorem modSink_ingressPaused (s : State) (n : Nat) (f : Sink → Sink) : (s.modSink n f).ingressPaused = s.ingressPaused := rfl
@[simp] theorem modSink_mem (s : State) (n : Nat) (f : Sink → Sink) : (s.modSink n f).mem = s.mem := rfl
@[simp] theorem modSink_media (s : State) (n : Nat) (f : Sink → Sink) : (s.modSink n f).media = s.media := rfl
@[simp] theorem modSink_faults (s : State) (n : Nat) (f : Sink → Sink) : (s.modSink n f).faults = s.faults := rfl
@[simp] theorem modSink_ports (s : State) (n : Nat) (f : Sink → Sink) : (s.modSink n f).ports = s.ports := rfl
@[simp] theorem modSink_roce (s : State) (n : Nat) (f : Sink → Sink) : (s.modSink n f).roce = s.roce := rfl
@[simp] theorem modSink_domain (s : State) (n : Nat) (f : Sink → Sink) : (s.modSink n f).domain = s.domain := rfl
@[simp] theorem modSink_dict (s : State) (n : Nat) (f : Sink → Sink) : (s.modSink n f).dict = s.dict := rfl

/-! ### modDomain -/

@[simp] theorem modDomain_domain (s : State) (f : Domain → Domain) :
    (s.modDomain f).domain = f s.domain := rfl
@[simp] theorem modDomain_pending (s : State) (f : Domain → Domain) : (s.modDomain f).pending = s.pending := rfl
@[simp] theorem modDomain_free (s : State) (f : Domain → Domain) : (s.modDomain f).free = s.free := rfl
@[simp] theorem modDomain_uptime (s : State) (f : Domain → Domain) : (s.modDomain f).uptime = s.uptime := rfl
@[simp] theorem modDomain_sent (s : State) (f : Domain → Domain) : (s.modDomain f).sent = s.sent := rfl
@[simp] theorem modDomain_pins (s : State) (f : Domain → Domain) : (s.modDomain f).pins = s.pins := rfl
@[simp] theorem modDomain_power (s : State) (f : Domain → Domain) : (s.modDomain f).power = s.power := rfl
@[simp] theorem modDomain_startup (s : State) (f : Domain → Domain) : (s.modDomain f).startup = s.startup := rfl
@[simp] theorem modDomain_fuses (s : State) (f : Domain → Domain) : (s.modDomain f).fuses = s.fuses := rfl
@[simp] theorem modDomain_host (s : State) (f : Domain → Domain) : (s.modDomain f).host = s.host := rfl
@[simp] theorem modDomain_catalogue (s : State) (f : Domain → Domain) : (s.modDomain f).catalogue = s.catalogue := rfl
@[simp] theorem modDomain_regLog (s : State) (f : Domain → Domain) : (s.modDomain f).regLog = s.regLog := rfl
@[simp] theorem modDomain_concealLog (s : State) (f : Domain → Domain) : (s.modDomain f).concealLog = s.concealLog := rfl
@[simp] theorem modDomain_timingLog (s : State) (f : Domain → Domain) : (s.modDomain f).timingLog = s.timingLog := rfl
@[simp] theorem modDomain_topology (s : State) (f : Domain → Domain) : (s.modDomain f).topology = s.topology := rfl
@[simp] theorem modDomain_vocabs (s : State) (f : Domain → Domain) : (s.modDomain f).vocabs = s.vocabs := rfl
@[simp] theorem modDomain_grammars (s : State) (f : Domain → Domain) : (s.modDomain f).grammars = s.grammars := rfl
@[simp] theorem modDomain_crews (s : State) (f : Domain → Domain) : (s.modDomain f).crews = s.crews := rfl
@[simp] theorem modDomain_contexts (s : State) (f : Domain → Domain) : (s.modDomain f).contexts = s.contexts := rfl
@[simp] theorem modDomain_residents (s : State) (f : Domain → Domain) : (s.modDomain f).residents = s.residents := rfl
@[simp] theorem modDomain_sinks (s : State) (f : Domain → Domain) : (s.modDomain f).sinks = s.sinks := rfl
@[simp] theorem modDomain_sinkTotals (s : State) (f : Domain → Domain) : (s.modDomain f).sinkTotals = s.sinkTotals := rfl
@[simp] theorem modDomain_streams (s : State) (f : Domain → Domain) : (s.modDomain f).streams = s.streams := rfl
@[simp] theorem modDomain_ingress (s : State) (f : Domain → Domain) : (s.modDomain f).ingress = s.ingress := rfl
@[simp] theorem modDomain_textTurn (s : State) (f : Domain → Domain) : (s.modDomain f).textTurn = s.textTurn := rfl
@[simp] theorem modDomain_ingressPaused (s : State) (f : Domain → Domain) : (s.modDomain f).ingressPaused = s.ingressPaused := rfl
@[simp] theorem modDomain_mem (s : State) (f : Domain → Domain) : (s.modDomain f).mem = s.mem := rfl
@[simp] theorem modDomain_media (s : State) (f : Domain → Domain) : (s.modDomain f).media = s.media := rfl
@[simp] theorem modDomain_faults (s : State) (f : Domain → Domain) : (s.modDomain f).faults = s.faults := rfl
@[simp] theorem modDomain_ports (s : State) (f : Domain → Domain) : (s.modDomain f).ports = s.ports := rfl
@[simp] theorem modDomain_roce (s : State) (f : Domain → Domain) : (s.modDomain f).roce = s.roce := rfl
@[simp] theorem modDomain_dict (s : State) (f : Domain → Domain) : (s.modDomain f).dict = s.dict := rfl

/-! ### modRp -/

@[simp] theorem modRp_roce (s : State) (q : Nat) (f : RocePair → RocePair) :
    (s.modRp q f).roce = updWhere (fun p => p.lqpn == q) f s.roce := rfl
@[simp] theorem modRp_pending (s : State) (q : Nat) (f : RocePair → RocePair) : (s.modRp q f).pending = s.pending := rfl
@[simp] theorem modRp_free (s : State) (q : Nat) (f : RocePair → RocePair) : (s.modRp q f).free = s.free := rfl
@[simp] theorem modRp_uptime (s : State) (q : Nat) (f : RocePair → RocePair) : (s.modRp q f).uptime = s.uptime := rfl
@[simp] theorem modRp_sent (s : State) (q : Nat) (f : RocePair → RocePair) : (s.modRp q f).sent = s.sent := rfl
@[simp] theorem modRp_pins (s : State) (q : Nat) (f : RocePair → RocePair) : (s.modRp q f).pins = s.pins := rfl
@[simp] theorem modRp_power (s : State) (q : Nat) (f : RocePair → RocePair) : (s.modRp q f).power = s.power := rfl
@[simp] theorem modRp_startup (s : State) (q : Nat) (f : RocePair → RocePair) : (s.modRp q f).startup = s.startup := rfl
@[simp] theorem modRp_fuses (s : State) (q : Nat) (f : RocePair → RocePair) : (s.modRp q f).fuses = s.fuses := rfl
@[simp] theorem modRp_host (s : State) (q : Nat) (f : RocePair → RocePair) : (s.modRp q f).host = s.host := rfl
@[simp] theorem modRp_catalogue (s : State) (q : Nat) (f : RocePair → RocePair) : (s.modRp q f).catalogue = s.catalogue := rfl
@[simp] theorem modRp_regLog (s : State) (q : Nat) (f : RocePair → RocePair) : (s.modRp q f).regLog = s.regLog := rfl
@[simp] theorem modRp_concealLog (s : State) (q : Nat) (f : RocePair → RocePair) : (s.modRp q f).concealLog = s.concealLog := rfl
@[simp] theorem modRp_timingLog (s : State) (q : Nat) (f : RocePair → RocePair) : (s.modRp q f).timingLog = s.timingLog := rfl
@[simp] theorem modRp_topology (s : State) (q : Nat) (f : RocePair → RocePair) : (s.modRp q f).topology = s.topology := rfl
@[simp] theorem modRp_vocabs (s : State) (q : Nat) (f : RocePair → RocePair) : (s.modRp q f).vocabs = s.vocabs := rfl
@[simp] theorem modRp_grammars (s : State) (q : Nat) (f : RocePair → RocePair) : (s.modRp q f).grammars = s.grammars := rfl
@[simp] theorem modRp_crews (s : State) (q : Nat) (f : RocePair → RocePair) : (s.modRp q f).crews = s.crews := rfl
@[simp] theorem modRp_contexts (s : State) (q : Nat) (f : RocePair → RocePair) : (s.modRp q f).contexts = s.contexts := rfl
@[simp] theorem modRp_residents (s : State) (q : Nat) (f : RocePair → RocePair) : (s.modRp q f).residents = s.residents := rfl
@[simp] theorem modRp_sinks (s : State) (q : Nat) (f : RocePair → RocePair) : (s.modRp q f).sinks = s.sinks := rfl
@[simp] theorem modRp_sinkTotals (s : State) (q : Nat) (f : RocePair → RocePair) : (s.modRp q f).sinkTotals = s.sinkTotals := rfl
@[simp] theorem modRp_streams (s : State) (q : Nat) (f : RocePair → RocePair) : (s.modRp q f).streams = s.streams := rfl
@[simp] theorem modRp_ingress (s : State) (q : Nat) (f : RocePair → RocePair) : (s.modRp q f).ingress = s.ingress := rfl
@[simp] theorem modRp_textTurn (s : State) (q : Nat) (f : RocePair → RocePair) : (s.modRp q f).textTurn = s.textTurn := rfl
@[simp] theorem modRp_ingressPaused (s : State) (q : Nat) (f : RocePair → RocePair) : (s.modRp q f).ingressPaused = s.ingressPaused := rfl
@[simp] theorem modRp_mem (s : State) (q : Nat) (f : RocePair → RocePair) : (s.modRp q f).mem = s.mem := rfl
@[simp] theorem modRp_media (s : State) (q : Nat) (f : RocePair → RocePair) : (s.modRp q f).media = s.media := rfl
@[simp] theorem modRp_faults (s : State) (q : Nat) (f : RocePair → RocePair) : (s.modRp q f).faults = s.faults := rfl
@[simp] theorem modRp_ports (s : State) (q : Nat) (f : RocePair → RocePair) : (s.modRp q f).ports = s.ports := rfl
@[simp] theorem modRp_domain (s : State) (q : Nat) (f : RocePair → RocePair) : (s.modRp q f).domain = s.domain := rfl
@[simp] theorem modRp_dict (s : State) (q : Nat) (f : RocePair → RocePair) : (s.modRp q f).dict = s.dict := rfl

/-! ### modSession -/

@[simp] theorem modSession_sessions (s : State) (i : Nat) (f : Session → Session) :
    (s.modSession i f).dict.sessions = updWhere (fun x => x.sid == i) f s.dict.sessions := rfl
@[simp] theorem modSession_journal (s : State) (i : Nat) (f : Session → Session) :
    (s.modSession i f).dict.journal = s.dict.journal := rfl
@[simp] theorem modSession_pending (s : State) (i : Nat) (f : Session → Session) : (s.modSession i f).pending = s.pending := rfl
@[simp] theorem modSession_free (s : State) (i : Nat) (f : Session → Session) : (s.modSession i f).free = s.free := rfl
@[simp] theorem modSession_uptime (s : State) (i : Nat) (f : Session → Session) : (s.modSession i f).uptime = s.uptime := rfl
@[simp] theorem modSession_sent (s : State) (i : Nat) (f : Session → Session) : (s.modSession i f).sent = s.sent := rfl
@[simp] theorem modSession_pins (s : State) (i : Nat) (f : Session → Session) : (s.modSession i f).pins = s.pins := rfl
@[simp] theorem modSession_power (s : State) (i : Nat) (f : Session → Session) : (s.modSession i f).power = s.power := rfl
@[simp] theorem modSession_startup (s : State) (i : Nat) (f : Session → Session) : (s.modSession i f).startup = s.startup := rfl
@[simp] theorem modSession_fuses (s : State) (i : Nat) (f : Session → Session) : (s.modSession i f).fuses = s.fuses := rfl
@[simp] theorem modSession_host (s : State) (i : Nat) (f : Session → Session) : (s.modSession i f).host = s.host := rfl
@[simp] theorem modSession_catalogue (s : State) (i : Nat) (f : Session → Session) : (s.modSession i f).catalogue = s.catalogue := rfl
@[simp] theorem modSession_regLog (s : State) (i : Nat) (f : Session → Session) : (s.modSession i f).regLog = s.regLog := rfl
@[simp] theorem modSession_concealLog (s : State) (i : Nat) (f : Session → Session) : (s.modSession i f).concealLog = s.concealLog := rfl
@[simp] theorem modSession_timingLog (s : State) (i : Nat) (f : Session → Session) : (s.modSession i f).timingLog = s.timingLog := rfl
@[simp] theorem modSession_topology (s : State) (i : Nat) (f : Session → Session) : (s.modSession i f).topology = s.topology := rfl
@[simp] theorem modSession_vocabs (s : State) (i : Nat) (f : Session → Session) : (s.modSession i f).vocabs = s.vocabs := rfl
@[simp] theorem modSession_grammars (s : State) (i : Nat) (f : Session → Session) : (s.modSession i f).grammars = s.grammars := rfl
@[simp] theorem modSession_crews (s : State) (i : Nat) (f : Session → Session) : (s.modSession i f).crews = s.crews := rfl
@[simp] theorem modSession_contexts (s : State) (i : Nat) (f : Session → Session) : (s.modSession i f).contexts = s.contexts := rfl
@[simp] theorem modSession_residents (s : State) (i : Nat) (f : Session → Session) : (s.modSession i f).residents = s.residents := rfl
@[simp] theorem modSession_sinks (s : State) (i : Nat) (f : Session → Session) : (s.modSession i f).sinks = s.sinks := rfl
@[simp] theorem modSession_sinkTotals (s : State) (i : Nat) (f : Session → Session) : (s.modSession i f).sinkTotals = s.sinkTotals := rfl
@[simp] theorem modSession_streams (s : State) (i : Nat) (f : Session → Session) : (s.modSession i f).streams = s.streams := rfl
@[simp] theorem modSession_ingress (s : State) (i : Nat) (f : Session → Session) : (s.modSession i f).ingress = s.ingress := rfl
@[simp] theorem modSession_textTurn (s : State) (i : Nat) (f : Session → Session) : (s.modSession i f).textTurn = s.textTurn := rfl
@[simp] theorem modSession_ingressPaused (s : State) (i : Nat) (f : Session → Session) : (s.modSession i f).ingressPaused = s.ingressPaused := rfl
@[simp] theorem modSession_mem (s : State) (i : Nat) (f : Session → Session) : (s.modSession i f).mem = s.mem := rfl
@[simp] theorem modSession_media (s : State) (i : Nat) (f : Session → Session) : (s.modSession i f).media = s.media := rfl
@[simp] theorem modSession_faults (s : State) (i : Nat) (f : Session → Session) : (s.modSession i f).faults = s.faults := rfl
@[simp] theorem modSession_ports (s : State) (i : Nat) (f : Session → Session) : (s.modSession i f).ports = s.ports := rfl
@[simp] theorem modSession_roce (s : State) (i : Nat) (f : Session → Session) : (s.modSession i f).roce = s.roce := rfl
@[simp] theorem modSession_domain (s : State) (i : Nat) (f : Session → Session) : (s.modSession i f).domain = s.domain := rfl

/-! ### modIngest -/

@[simp] theorem modIngest_ingests (s : State) (n : Nat) (f : Ingest → Ingest) :
    (s.modIngest n f).host.ingests = updWhere (fun g => g.n == n) f s.host.ingests := rfl
@[simp] theorem modIngest_cmds (s : State) (n : Nat) (f : Ingest → Ingest) :
    (s.modIngest n f).host.cmds = s.host.cmds := rfl
@[simp] theorem modIngest_pending (s : State) (n : Nat) (f : Ingest → Ingest) : (s.modIngest n f).pending = s.pending := rfl
@[simp] theorem modIngest_free (s : State) (n : Nat) (f : Ingest → Ingest) : (s.modIngest n f).free = s.free := rfl
@[simp] theorem modIngest_uptime (s : State) (n : Nat) (f : Ingest → Ingest) : (s.modIngest n f).uptime = s.uptime := rfl
@[simp] theorem modIngest_sent (s : State) (n : Nat) (f : Ingest → Ingest) : (s.modIngest n f).sent = s.sent := rfl
@[simp] theorem modIngest_pins (s : State) (n : Nat) (f : Ingest → Ingest) : (s.modIngest n f).pins = s.pins := rfl
@[simp] theorem modIngest_power (s : State) (n : Nat) (f : Ingest → Ingest) : (s.modIngest n f).power = s.power := rfl
@[simp] theorem modIngest_startup (s : State) (n : Nat) (f : Ingest → Ingest) : (s.modIngest n f).startup = s.startup := rfl
@[simp] theorem modIngest_fuses (s : State) (n : Nat) (f : Ingest → Ingest) : (s.modIngest n f).fuses = s.fuses := rfl
@[simp] theorem modIngest_catalogue (s : State) (n : Nat) (f : Ingest → Ingest) : (s.modIngest n f).catalogue = s.catalogue := rfl
@[simp] theorem modIngest_regLog (s : State) (n : Nat) (f : Ingest → Ingest) : (s.modIngest n f).regLog = s.regLog := rfl
@[simp] theorem modIngest_concealLog (s : State) (n : Nat) (f : Ingest → Ingest) : (s.modIngest n f).concealLog = s.concealLog := rfl
@[simp] theorem modIngest_timingLog (s : State) (n : Nat) (f : Ingest → Ingest) : (s.modIngest n f).timingLog = s.timingLog := rfl
@[simp] theorem modIngest_topology (s : State) (n : Nat) (f : Ingest → Ingest) : (s.modIngest n f).topology = s.topology := rfl
@[simp] theorem modIngest_vocabs (s : State) (n : Nat) (f : Ingest → Ingest) : (s.modIngest n f).vocabs = s.vocabs := rfl
@[simp] theorem modIngest_grammars (s : State) (n : Nat) (f : Ingest → Ingest) : (s.modIngest n f).grammars = s.grammars := rfl
@[simp] theorem modIngest_crews (s : State) (n : Nat) (f : Ingest → Ingest) : (s.modIngest n f).crews = s.crews := rfl
@[simp] theorem modIngest_contexts (s : State) (n : Nat) (f : Ingest → Ingest) : (s.modIngest n f).contexts = s.contexts := rfl
@[simp] theorem modIngest_residents (s : State) (n : Nat) (f : Ingest → Ingest) : (s.modIngest n f).residents = s.residents := rfl
@[simp] theorem modIngest_sinks (s : State) (n : Nat) (f : Ingest → Ingest) : (s.modIngest n f).sinks = s.sinks := rfl
@[simp] theorem modIngest_sinkTotals (s : State) (n : Nat) (f : Ingest → Ingest) : (s.modIngest n f).sinkTotals = s.sinkTotals := rfl
@[simp] theorem modIngest_streams (s : State) (n : Nat) (f : Ingest → Ingest) : (s.modIngest n f).streams = s.streams := rfl
@[simp] theorem modIngest_ingress (s : State) (n : Nat) (f : Ingest → Ingest) : (s.modIngest n f).ingress = s.ingress := rfl
@[simp] theorem modIngest_textTurn (s : State) (n : Nat) (f : Ingest → Ingest) : (s.modIngest n f).textTurn = s.textTurn := rfl
@[simp] theorem modIngest_ingressPaused (s : State) (n : Nat) (f : Ingest → Ingest) : (s.modIngest n f).ingressPaused = s.ingressPaused := rfl
@[simp] theorem modIngest_mem (s : State) (n : Nat) (f : Ingest → Ingest) : (s.modIngest n f).mem = s.mem := rfl
@[simp] theorem modIngest_media (s : State) (n : Nat) (f : Ingest → Ingest) : (s.modIngest n f).media = s.media := rfl
@[simp] theorem modIngest_faults (s : State) (n : Nat) (f : Ingest → Ingest) : (s.modIngest n f).faults = s.faults := rfl
@[simp] theorem modIngest_ports (s : State) (n : Nat) (f : Ingest → Ingest) : (s.modIngest n f).ports = s.ports := rfl
@[simp] theorem modIngest_roce (s : State) (n : Nat) (f : Ingest → Ingest) : (s.modIngest n f).roce = s.roce := rfl
@[simp] theorem modIngest_domain (s : State) (n : Nat) (f : Ingest → Ingest) : (s.modIngest n f).domain = s.domain := rfl
@[simp] theorem modIngest_dict (s : State) (n : Nat) (f : Ingest → Ingest) : (s.modIngest n f).dict = s.dict := rfl

/-! ### setNum -/

@[simp] theorem setNum_pending (s : State) (idx sub n : Nat) : (s.setNum idx sub n).pending = s.pending := rfl
@[simp] theorem setNum_free (s : State) (idx sub n : Nat) : (s.setNum idx sub n).free = s.free := rfl
@[simp] theorem setNum_uptime (s : State) (idx sub n : Nat) : (s.setNum idx sub n).uptime = s.uptime := rfl
@[simp] theorem setNum_sent (s : State) (idx sub n : Nat) : (s.setNum idx sub n).sent = s.sent := rfl
@[simp] theorem setNum_pins (s : State) (idx sub n : Nat) : (s.setNum idx sub n).pins = s.pins := rfl
@[simp] theorem setNum_power (s : State) (idx sub n : Nat) : (s.setNum idx sub n).power = s.power := rfl
@[simp] theorem setNum_startup (s : State) (idx sub n : Nat) : (s.setNum idx sub n).startup = s.startup := rfl
@[simp] theorem setNum_fuses (s : State) (idx sub n : Nat) : (s.setNum idx sub n).fuses = s.fuses := rfl
@[simp] theorem setNum_host (s : State) (idx sub n : Nat) : (s.setNum idx sub n).host = s.host := rfl
@[simp] theorem setNum_catalogue (s : State) (idx sub n : Nat) : (s.setNum idx sub n).catalogue = s.catalogue := rfl
@[simp] theorem setNum_regLog (s : State) (idx sub n : Nat) : (s.setNum idx sub n).regLog = s.regLog := rfl
@[simp] theorem setNum_concealLog (s : State) (idx sub n : Nat) : (s.setNum idx sub n).concealLog = s.concealLog := rfl
@[simp] theorem setNum_timingLog (s : State) (idx sub n : Nat) : (s.setNum idx sub n).timingLog = s.timingLog := rfl
@[simp] theorem setNum_topology (s : State) (idx sub n : Nat) : (s.setNum idx sub n).topology = s.topology := rfl
@[simp] theorem setNum_vocabs (s : State) (idx sub n : Nat) : (s.setNum idx sub n).vocabs = s.vocabs := rfl
@[simp] theorem setNum_grammars (s : State) (idx sub n : Nat) : (s.setNum idx sub n).grammars = s.grammars := rfl
@[simp] theorem setNum_crews (s : State) (idx sub n : Nat) : (s.setNum idx sub n).crews = s.crews := rfl
@[simp] theorem setNum_contexts (s : State) (idx sub n : Nat) : (s.setNum idx sub n).contexts = s.contexts := rfl
@[simp] theorem setNum_residents (s : State) (idx sub n : Nat) : (s.setNum idx sub n).residents = s.residents := rfl
@[simp] theorem setNum_sinks (s : State) (idx sub n : Nat) : (s.setNum idx sub n).sinks = s.sinks := rfl
@[simp] theorem setNum_sinkTotals (s : State) (idx sub n : Nat) : (s.setNum idx sub n).sinkTotals = s.sinkTotals := rfl
@[simp] theorem setNum_streams (s : State) (idx sub n : Nat) : (s.setNum idx sub n).streams = s.streams := rfl
@[simp] theorem setNum_ingress (s : State) (idx sub n : Nat) : (s.setNum idx sub n).ingress = s.ingress := rfl
@[simp] theorem setNum_textTurn (s : State) (idx sub n : Nat) : (s.setNum idx sub n).textTurn = s.textTurn := rfl
@[simp] theorem setNum_ingressPaused (s : State) (idx sub n : Nat) : (s.setNum idx sub n).ingressPaused = s.ingressPaused := rfl
@[simp] theorem setNum_mem (s : State) (idx sub n : Nat) : (s.setNum idx sub n).mem = s.mem := rfl
@[simp] theorem setNum_media (s : State) (idx sub n : Nat) : (s.setNum idx sub n).media = s.media := rfl
@[simp] theorem setNum_faults (s : State) (idx sub n : Nat) : (s.setNum idx sub n).faults = s.faults := rfl
@[simp] theorem setNum_ports (s : State) (idx sub n : Nat) : (s.setNum idx sub n).ports = s.ports := rfl
@[simp] theorem setNum_roce (s : State) (idx sub n : Nat) : (s.setNum idx sub n).roce = s.roce := rfl
@[simp] theorem setNum_domain (s : State) (idx sub n : Nat) : (s.setNum idx sub n).domain = s.domain := rfl

end Sys2Proof.Machine
end

