-- ==== Sys2Proof/Laws/Settle.lean ====
section
/-!
SUPPORT. The delivery of fault messages when there are none, and the commands at a queue pair that are ready.
-/
namespace Sys2Proof.Machine

/-- With no message on its way, delivery changes nothing. -/
theorem settle_quiet {s : State} (h : s.quiet) : s.settle = s := by
  unfold State.settle
  rw [show (4096 : Nat) = 4095 + 1 from rfl, State.settleFor, h]

/-- A ready command at its queue pair has its effect. -/
theorem atCmd_ready {s : State} {q i opc : Nat} {fid : Option Nat} {f : Cmd → State → State} {c : Cmd}
    (h : s.readyCmd q i opc fid = some c) : s.atCmd q i opc fid f = .next (f c s).settle := by
  unfold State.atCmd State.onCmd; rw [h]

end Sys2Proof.Machine
end

