-- ==== Sys2Proof/Laws/Requests.lean ====
section
/-!
SUPPORT. What a dictionary request that is taken up does, and what every WRITE that passes its checks does, once for all rows.
-/
namespace Sys2Proof.Machine

@[simp] theorem leavePs1_faults (s : State) : s.leavePs1.faults = s.faults := by unfold State.leavePs1; split <;> rfl

@[simp] theorem leavePs1_dict (s : State) : s.leavePs1.dict = s.dict := by unfold State.leavePs1; split <;> rfl

@[simp] theorem leavePs1_fuses (s : State) : s.leavePs1.fuses = s.fuses := by unfold State.leavePs1; split <;> rfl

@[simp] theorem respond_faults (s : State) (m : DictMsg) (r : DictResp) : (s.respond m r).faults = s.faults := by
  unfold State.respond; split <;> rfl

@[simp] theorem respond_dict (s : State) (m : DictMsg) (r : DictResp) : (s.respond m r).dict = s.dict := by
  unfold State.respond; split <;> rfl

@[simp] theorem audit_faults (s : State) (e : Audit) : (s.audit e).faults = s.faults := by
  unfold State.audit; dsimp only; split <;> rfl

@[simp] theorem recorded_faults (s : State) (m : DictMsg) (r : ObjRow) (e : Audit) : (s.recorded m r e).faults = s.faults := by
  simp [State.recorded]

/-- Leaving PS1 changes nothing that the checks of a request look at. -/
theorem leavePs1_openSession (s : State) (m : DictMsg) : s.leavePs1.openSession m = s.openSession m := by
  simp [State.openSession, State.sessionOf]

/-- Leaving PS1 changes no signature check. -/
theorem leavePs1_signatureOk (s : State) (m : DictMsg) (x : Session) : s.leavePs1.signatureOk m x = s.signatureOk m x := by
  simp [State.signatureOk, State.roleKey, State.octs]

/-- A response in a quiet state needs no delivery. -/
theorem respond_settle {s : State} (h : s.quiet) (m : DictMsg) (r : DictResp) : (s.respond m r).settle = s.respond m r :=
  settle_quiet (by simpa [State.quiet] using h)

/-- A request taken up has its row's effect after PS1 is left, or none when it is another row's. -/
theorem onRequest_takesUp {s : State} {m : DictMsg} {mine : Bool} {f : State → State} (h : s.takesUp m) :
    s.onRequest m mine f = .next (if mine then f s.leavePs1 else s).settle := by
  obtain ⟨h1, h2, h3, h4, h5⟩ := h
  unfold State.onRequest
  rw [if_neg (by simp [h1, h3]; omega), if_neg (by simp [h4, h5])]

@[simp] theorem accepted_faults (s : State) (m : DictMsg) (x : Session) (r : ObjRow) : (s.accepted m x r).faults = s.faults := by
  unfold State.accepted; dsimp only; split <;> simp [State.modSession, State.modSessions]

@[simp] theorem accepted_fuses (s : State) (m : DictMsg) (x : Session) (r : ObjRow) : (s.accepted m x r).fuses = s.fuses := by
  unfold State.accepted; dsimp only; split <;> simp [State.modSession, State.modSessions]

/-- What accepting a WRITE changes of the dictionary: sessions only. -/
theorem accepted_dict (s : State) (m : DictMsg) (x : Session) (r : ObjRow) :
    (s.accepted m x r).dict = { s.dict with sessions := (s.accepted m x r).dict.sessions } := by
  unfold State.accepted; dsimp only; split <;> simp [State.modSession, State.modSessions]

/-- Accepting a WRITE changes nothing that the journal's refusal looks at. -/
theorem accepted_auditRefuses (s : State) (m : DictMsg) (x : Session) (r : ObjRow) :
    (s.accepted m x r).auditRefuses = s.auditRefuses := by
  unfold State.auditRefuses State.auditUnread State.num
  rw [accepted_fuses, accepted_dict]; rfl

/-- A WRITE that passes checks 1 to 6 of R667 is committed by its row's rule. -/
theorem writeRow_writes {s : State} {m : DictMsg} {x : Session} {r : ObjRow} {mine : Nat → Bytes → Bool} {rule : WriteRule}
    (h : s.writes m x r) (hm : mine (dmIdx m) (dmValue m) = true) :
    s.writeRow m mine rule = .next ((s.accepted m x r).commitWrite m (some x) (askedBy m x) r rule).settle := by
  obtain ⟨⟨ht, h2, h3, h4, h5⟩, h6, h7, h8⟩ := h
  unfold State.writeRow
  rw [onRequest_takesUp ht, if_pos (by simp [h2, hm, State.claims, h3])]
  simp only [State.sessionWrite, leavePs1_openSession, h4, leavePs1_signatureOk, h5]
  rw [if_neg (by simpa using h3), if_neg (by simp)]
  simp only [h6, State.takeValue]
  by_cases hr : r.ty = .octs
  · obtain ⟨a, b⟩ := h8 hr
    rw [if_neg (by simp [hr])]
    simp only [joinSegment, a, beq_self_eq_true, if_true, b]
    simp only [State.accepted, hr, if_true]; rfl
  · rw [if_pos (by simpa using hr)]
    simp only [State.accepted, hr, if_false]; rfl

/-- A WRITE that passes every check has its rule's effect, is audited and answered, and then has what follows the response. -/
theorem writeRow_passes {s : State} {m : DictMsg} {x : Session} {r : ObjRow} {mine : Nat → Bytes → Bool} {rule : WriteRule}
    (h : s.writes m x r) (hm : mine (dmIdx m) (dmValue m) = true)
    (hf : rule.fail (s.accepted m x r) (askedBy m x) = none) (ha : s.auditRefuses = false) :
    s.writeRow m mine rule = .next (rule.after ((rule.act (s.accepted m x r) (askedBy m x)).recorded m r
      ((s.accepted m x r).entryOf m x r rule.kind)) (askedBy m x)).settle := by
  rw [writeRow_writes h hm]
  have h7 : (s.accepted m x r).writeInRange (askedBy m x) r = true := by
    have := h.2.2.1; unfold State.writeInRange at this ⊢; rw [accepted_fuses]; exact this
  unfold State.commitWrite State.writeFail
  rw [h7, hf, accepted_auditRefuses, ha]
  simp [State.recorded, State.entryOf, askedBy, State.auditOf]

/-- A WRITE that its owning rule refuses is answered with that status and has no effect. -/
theorem writeRow_refused {s : State} {m : DictMsg} {x : Session} {r : ObjRow} {mine : Nat → Bytes → Bool} {rule : WriteRule}
    {st : Nat} {k : Option Nat} (h : s.writes m x r) (hm : mine (dmIdx m) (dmValue m) = true)
    (hf : rule.fail (s.accepted m x r) (askedBy m x) = some (st, k)) :
    s.writeRow m mine rule = .next ((s.accepted m x r).respond m { status := st, ty := r.ty.code, crew := k }).settle := by
  rw [writeRow_writes h hm]
  have h7 : (s.accepted m x r).writeInRange (askedBy m x) r = true := by
    have := h.2.2.1; unfold State.writeInRange at this ⊢; rw [accepted_fuses]; exact this
  unfold State.commitWrite State.writeFail
  rw [h7, hf]
  simp

end Sys2Proof.Machine
end

