-- ==== Sys2Proof/Laws/Rows.lean ====
section
/-!
SUPPORT. What the shared parts of the rows do when the conditions they check hold.
-/
namespace Sys2Proof.Machine

/-- States with the same kernel have the same fuses, queue of commands, local uptime, lands and power record. -/
theorem kernel_eq_fields {s t : State} (h : s.kernel = t.kernel) :
    s.fuses = t.fuses ∧ s.pending = t.pending ∧ s.uptime = t.uptime ∧ s.pins = t.pins ∧ s.power = t.power := by
  have := h
  refine ⟨congrArg Kernel.fuses h, congrArg Kernel.pending h, congrArg Kernel.uptime h, congrArg Kernel.pins h, congrArg Kernel.power h⟩

/-- The first element that a predicate finds is found changed, when the change keeps the predicate. -/
theorem find_updWhere {α} (l : List α) (p : α → Bool) (f : α → α) (x : α) (hp : ∀ a, p a = true → p (f a) = true)
    (h : l.find? p = some x) :
    (updWhere p f l).find? p = some (f x) := by
  induction l with
  | nil => simp at h
  | cons a l ih =>
    unfold updWhere at *
    rw [List.find?_cons] at h
    rw [List.map_cons, List.find?_cons]
    cases e : p a
    · rw [e] at h; simp only [Bool.false_eq_true, if_false, e]; exact ih h
    · rw [e] at h; cases h; simp [e, hp x e]

/-- A change of elements that another search passes over leaves that search alone. -/
theorem find_updWhere_other {α} (l : List α) (p r : α → Bool) (f : α → α) (hp : ∀ a, p a = true → r a = false ∧ r (f a) = false) :
    (updWhere p f l).find? r = l.find? r := by
  induction l with
  | nil => rfl
  | cons a l ih =>
    unfold updWhere at *
    rw [List.map_cons, List.find?_cons, List.find?_cons]
    cases e : p a
    · simp only [Bool.false_eq_true, if_false, ih]
    · simp only [if_true, (hp a e).1, (hp a e).2, ih]

/-- A command of the host has its effect while the link is up. -/
theorem onHost_up {s : State} {f} (h : s.hostUp = true) : s.onHost f = .next (f s).settle := by
  unfold State.onHost; rw [h]; rfl

/-- An event of the media has its effect while the media run. -/
theorem onMedia_up {s : State} {f} (h : s.mediaRuns = true) : s.onMedia f = .next (f s).settle := by
  unfold State.onMedia; rw [h]; rfl

/-- A ready command is the one that its queue pair and id name. -/
theorem readyCmd_cmd {s : State} {q i opc fid c} (h : s.readyCmd q i opc fid = some c) : c.qid = q ∧ c.cid = i ∧ s.cmd q i = some c := by
  unfold State.readyCmd at h
  split at h
  · rename_i c' hc
    split at h
    · cases h
      have := List.find?_some hc
      simp [Cmd.is] at this
      exact ⟨this.1, this.2, hc⟩
    · cases h
  · cases h

/-- A media command that nothing holds back has its effect. -/
theorem mediaCmd_up {s : State} {c b f} (h : s.media.state ≤ 2) (h1 : s.media.frozen = false) (h2 : s.mediaHeld c = false)
    (h3 : (c.writesMedia && s.registerUnknown c) = false) : s.mediaCmd c b f = f s := by
  unfold State.mediaCmd
  rw [h1, h2, h3, if_neg (by simp; omega), if_neg (by simp; omega)]

/-- An extent within the capacity is not past its end. -/
theorem pastEnd_none {s : State} {c} (h : c.slba + c.nlb ≤ s.media.capacity) : s.pastEnd c = none := by
  unfold State.pastEnd; rw [if_neg (by omega)]

/-- The crew found by a number has that number. -/
theorem crew_num {s : State} {n k} (h : s.crew n = some k) : k.num = n := by
  unfold State.crew at h; simpa using List.find?_some h

/-- A job command whose turn it is runs when its crew is in a state the command allows. -/
theorem jobCmd_turn {s : State} {c k l f} (h : s.jobTurn c = true) (h1 : s.crew c.crew = some k) (h2 : k.state ∈ l) :
    s.jobCmd c l f = f k := by
  unfold State.jobCmd
  rw [h, if_neg (by decide), h1]
  dsimp only
  rw [if_pos (by simpa using h2)]

/-- A job command whose turn it is ends with Sequence error when its crew is in another state. -/
theorem jobCmd_bad {s : State} {c k l f} (h : s.jobTurn c = true) (h1 : s.crew c.crew = some k) (h2 : k.state ∉ l) :
    s.jobCmd c l f = s.complete c (.sequence (some c.crew)) := by
  unfold State.jobCmd
  rw [h, if_neg (by decide), h1]
  dsimp only
  rw [if_neg (by simpa using h2), crew_num h1]

/-- Trying to start changes only where the sequence stands and two marks of the lands. -/
theorem tryStart_eq (s : State) :
    ∃ p q a b, s.tryStart = { s with
      startup := { s.startup with phase := p, began := q }, pins := { s.pins with hwTrip := a, alertTemp := b } } := by
  unfold State.tryStart; split
  · exact ⟨_, _, _, _, rfl⟩
  · exact ⟨s.startup.phase, s.startup.began, s.pins.hwTrip, s.pins.alertTemp, rfl⟩

/-- With no enable held, none takes effect. -/
theorem heldAen_no {s : State} (h : s.startup.aenHeld = false) : s.heldAen = s := by unfold State.heldAen; rw [h]; rfl

/-- Outside a wake from PS3 its end changes nothing. -/
theorem endPs3Wake_no {s : State} (h : s.power.ps3Wake = false) : s.endPs3Wake = s := by unfold State.endPs3Wake; rw [h]; rfl

/-- Without crews, and with no port degraded or fenced, writing the topology page changes nothing else. -/
theorem writeTopology_calm {s : State} (h : s.crews = []) (k : ∀ p ∈ s.ports, p.state ≠ 3 ∧ p.state ≠ 4) :
    s.writeTopology = { s with topology := s.topologyNow } := by
  unfold State.writeTopology
  dsimp only
  rw [show (s.ports.filter _) = [] from List.filter_eq_nil_iff.2 (by intro p hp; simp [k p hp])]
  simp only [List.isEmpty_nil, if_true]
  unfold State.recheckTimed
  dsimp only
  rw [h]; rfl

end Sys2Proof.Machine
end

