-- ==== Sys2Proof/Tests/Slice0.lean ====
section
/-!
SUPPORT. Tests: an ill-formed term for each check of WellFormed, and witnesses that meet the hypotheses of the statements, on
small states. Where a hypothesis speaks of an opaque value (a signature under the licence key), the witness takes that alone as given.
-/
namespace Sys2Proof.Tests
open Sys2Proof Sys2Proof.Machine
set_option Elab.async false

/-! ### WellFormed -/

/-- Eight bytes of address and a message of no bytes. -/
def anyMsg : DictMsg := { transport := .mailbox, addr := zeros 8, msg := [] }

theorem test_wf_accepts : (Instr.brownOut.wf && (Instr.identify 255 65535).wf && (Instr.mediaFormat anyMsg).wf &&
    (Instr.transferReadyGrant 0 0 16368 16).wf && (Instr.wakeStepReady 5).wf) = true := by decide

theorem test_wf_refuses_host : ((Instr.completionPost 256).wf || (Instr.identify 0 65536).wf || (Instr.vin48Rise 4294967296).wf ||
    (Instr.inputFault 4 0).wf || (Instr.regulatorFault 4096).wf || (Instr.overTemperature 16 0).wf ||
    (Instr.startupStepReady ⟨11, 0⟩).wf || (Instr.cxlLinkTrained 0 17 0 true).wf || (Instr.mountStepReady 9 default).wf ||
    (Instr.writeWindowWrite 1073741824 [0]).wf || (Instr.registerWrite 5 0 4 0).wf || (Instr.capsuleFetch [] []).wf ||
    (Instr.transferReadyGrant 0 0 16369 16).wf || (Instr.transferReadyGrant 0 0 0 0).wf) = false := by decide

theorem test_wf_refuses_jobs : ((Instr.setTablesBuilt 64).wf || (Instr.sampleRelease 16384).wf || (Instr.transportTimeout 16777216).wf ||
    (Instr.rdmaAckReceive 0 16777216).wf || (Instr.residentCopyGranule 0 0 0).wf || (Instr.poolCacheRefill 2 0 0).wf ||
    (Instr.poolCacheRefill 0 6 0).wf || (Instr.poolCacheRefill 0 0 7).wf || (Instr.wordLineTimeout default 3).wf ||
    (Instr.eraseFailure default default 16).wf || (Instr.lunStatusTimeout 32 0).wf || (Instr.sinkInterrupt 64).wf) = false := by decide

theorem test_wf_refuses_device : ((Instr.faultMessage { unit := 4096, sub := 0, kind := 0, phys := 0, crew := none, addr := 0, count := 1, ctx := none } false).wf ||
    (Instr.faultCoalesceFlush ⟨0, 0⟩ 16 0).wf || (Instr.portTrainingComplete 36 default).wf || (Instr.dataFlitReceive 0 ⟨[], 0⟩).wf ||
    (Instr.laneLoss 0 16).wf || (Instr.creditReturn 0 4).wf || (Instr.pfcPauseExpiry 0 8).wf || (Instr.pfcPauseReceive 0 [8] []).wf ||
    (Instr.workerReportTimeout 4096).wf || (Instr.wakeEvent 4).wf || (Instr.wakeStepReady 0).wf || (Instr.thermalThrottleTick [0]).wf ||
    (Instr.powerMeasurement 65536 0).wf || (Instr.dictionaryRead { anyMsg with addr := [] }).wf || (Instr.setEndpointId 256).wf ||
    (Instr.dynamicAddressAssignment 128).wf) = false := by decide

theorem test_no_word_spells_a_command : decodeTableWord 32 0 = none ∧ (State.reset.withFetchWord 32 0) = State.reset := by decide

/-! ### States for the witnesses -/

/-- The device with VIN48 and the always-on domain up, before PWROK. -/
def fed : State := { pins := { vin48 := true, aon := true, vaux18 := true, padHold := some .powerUp } }

/-- A start-up that stands at a phase. -/
def starting (p : Phase) : State := { pins := { vin48 := true, aon := true, vaux18 := true, pwrok := true, resetN := true }, startup := { phase := p } }

/-- The running device, its link up at 32 GT/s, its flash empty of data. -/
def up : State := { starting .complete with
  startup := { phase := .complete, cxlDone := true, running := some 0 }
  host := { speed := 32, width := 16, flit := 1 }
  media := { state := 0, formatted := true, capacity := 1024 } }

/-- A queue pair's context of TAILMODE 1 and depth 16. -/
def ctx1 : Bytes := [1, 1, 4, 0] ++ zeros 60

/-- The running device with one queue pair, 1. -/
def upq : State := { up with host := { up.host with qps := [{ qid := 1, ctx := ctx1 }] } }

/-! ### Supplies and start-up -/

theorem wit_SupplyEventsStart : (fed.quiet ∧ State.reset.pins.vin48 = false ∧ (400 : Nat) ≤ 400) ∧
    (let s : State := { fed with pins := { fed.pins with resetN := true } }
     s.quiet ∧ s.pins.vin48 = true ∧ s.pins.pwrok = false ∧ s.pins.resetN = true ∧ s.pins.inputBad = false ∧ s.pins.hwTrip = false ∧ s.startup.phase = .off) ∧
    (let s : State := { fed with pins := { fed.pins with pwrok := true } }
     s.quiet ∧ s.pins.vin48 = true ∧ s.pins.pwrok = true ∧ s.pins.inputBad = false ∧ s.pins.hwTrip = false ∧ s.startup.phase = .off) ∧
    (let s : State := { starting .off with pins := { (starting .off).pins with inputBad := true } }
     s.quiet ∧ s.pins.inputBad = true ∧ (390 : Nat) ≤ 390 ∧ (600 : Nat) ≤ 600 ∧ s.pins.vin48 = true ∧ s.pins.pwrok = true ∧ s.pins.resetN = true ∧
     s.pins.hwTrip = false ∧ s.startup.phase = .off) := by decide

theorem wit_PowerEventsLoseVolatileState : up.pins.vin48 = true ∧ up.pins.aon = true ∧ up.pins.pwrok = true ∧ up.pins.resetN = true ∧ (10000 : Nat) ≤ 10000 ∧
    up.pins.inputBad = false ∧ (3 : Nat) < 4 ∧ (200 : Nat) ≤ 379 ∧ ((379 : Nat) < 380 ∨ 620 < 379) ∧ up.startup.phase = .complete ∧ (15 : Nat) < 16 := by decide

theorem wit_RegulatorAndTemperatureStops : up.coxUp = true ∧ 0x2D4 ≤ 0x2DD ∧ 0x2DD ≤ 0x2DD ∧ (6 : Nat) < 16 ∧ tripOf 6 ≤ 1150 ∧ (7 : Nat) < 16 ∧ tripOf 7 ≤ 1050 := by decide

theorem wit_StartupStepsFollow : ((starting (.step 1)).quiet ∧ (starting (.step 1)).pins.slowclk = true) ∧ (starting (.step 2)).quiet ∧ (starting (.step 3)).quiet ∧ (starting (.step 1)).startup.phase ≠ .step 2 := by decide

/-- Step 4: the image verifies when its signature does. -/
theorem wit_StartupStepsFollow_slot (b : Bytes) (h : imgVerifies b = true) (hv : 1 ≤ imgSv b) :
    ∃ (s u : State), (s.quiet ∧ s.startup.phase = .step 4 ∧ s.startup.pending = some 1 ∧ (1 : Nat) < 2 ∧ s.judgeSlot 1 = 3) ∧
      (u.quiet ∧ u.startup.phase = .step 4 ∧ u.startup.pending = none ∧ u.startup.takeNext = none ∧ u.startup.lastGood = 0 ∧ u.judgeSlot 0 = 3) := by
  refine ⟨{ startup := { phase := .step 4, pending := some 1, slotB := { image := b } } }, { startup := { phase := .step 4, slotA := { image := b } } }, ?_, ?_⟩
  · exact ⟨rfl, rfl, rfl, by decide, by simp [State.judgeSlot, State.slot, h, State.securityCounter]⟩
  · exact ⟨rfl, rfl, rfl, rfl, rfl, by simp [State.judgeSlot, State.slot, h, State.securityCounter]⟩

theorem wit_MemoryTrainedAndLinkTrained : (starting (.step 7)).startup.phase = .step 7 ∧
    (let s : State := { starting (.step 7) with dict := { values := [((0x8003, 0), .num 1)] } }
     s.num 0x8003 0 = 1) ∧
    (let s : State := { starting (.step 7) with startup := { phase := .step 7, savedSettings := 4 } }
     ¬s.num 0x8003 0 = 1 ∧ s.startup.savedSettings / 2 ^ 2 % 2 = 1 ∧ ¬s.startup.savedSettings / 2 ^ 0 % 2 = 1) ∧
    (let s : State := { starting (.step 8) with host := { training := true } }
     s.host.training = true ∧ s.host.narrowTried = false ∧ ((4 : Nat) = 16 ∨ (4 : Nat) = 8 ∨ (4 : Nat) = 4) ∧ (2 : Nat) ≠ 16 ∧ (2 : Nat) ≠ 8 ∧
     (2 : Nat) ≠ 4 ∧ (2 : Nat) ≠ 0) ∧
    (let s : State := { starting (.step 8) with host := { training := true, narrowTried := true } }
     s.host.training = true ∧ s.host.narrowTried = true) ∧
    (starting (.step 9)).startup.phase = .step 9 ∧ (63 : Nat) < 64 := by decide

theorem wit_StartupEndsAndFallsBack : let s : State := { starting .finishing with startup := { phase := .finishing, cxlDone := true } }
    s.startup.phase = .finishing ∧ s.startup.cxlDone = true ∧ s.startup.aenHeld = false ∧ s.power.ps3Wake = false ∧ s.crews = [] ∧
    (∀ p ∈ s.ports, p.state ≠ 3 ∧ p.state ≠ 4) ∧ s.quiet := by decide

/-- A small flash: one group of sixteen channels, eight blocks a LUN. -/
def geom1 : NandGeometry := { uniform := true, dataBytes := 16384, spareBytes := 2112, pagesPerBlock := 512, planes := 1,
                              channels := List.range 16, ces := 1, lunsPerCe := 1, blocksPerLun := 8, pagesPerWl := 1, bad := [] }

/-- The device at a step of the mount, with the pads released. -/
def mounting (n : Nat) (formatted : Bool) : State := { up with media := { state := 5, mountStep := n, formatted := formatted, geom := geom1 } }

theorem wit_RecoveryAndMountSteps : (let s := starting .recovery
      s.quiet ∧ s.startup.phase = .recovery ∧ 4 < (zeros 5).length ∧ field (zeros 5) 0 4 % 4096 = 0 ∧
      field (zeros 5) 0 4 + ((zeros 5).length - 4) ≤ 25165824 ∧ field [1, 0, 0, 0, 0] 0 4 % 4096 ≠ 0) ∧
    (let s := mounting 1 true
     s.quiet ∧ s.pins.padHold = none ∧ s.media.mountStep = 1 ∧ geomSupported default = false ∧ geomSupported geom1 = true ∧
     s.media.formatted = true ∧ geom1 = s.media.geom ∧ geomSupported { geom1 with blocksPerLun := 16 } = true ∧
     { geom1 with blocksPerLun := 16 } ≠ s.media.geom) ∧
    ((mounting 1 false).media.mountStep = 1 ∧ (mounting 1 false).media.formatted = false) ∧
    (∀ n ∈ [2, 3, 4, 5], (mounting n true).quiet ∧ (mounting n true).pins.padHold = none ∧ (mounting n true).media.mountStep = n) ∧
    fed.pins.padHold ≠ none := by decide

theorem wit_RecoveryAndMountSteps_end (b : Bytes) (h : imgVerifies b = true) :
    ∃ s : State, s.quiet ∧ s.startup.phase = .recovery ∧ (zeros 4).length = 4 ∧ s.judgeSlot 0 = 3 :=
  ⟨{ startup := { phase := .recovery, slotA := { image := b } } }, rfl, rfl, rfl, by simp [State.judgeSlot, State.slot, h, State.securityCounter]⟩

/-! ### The host interface -/

/-- A capsule by its fields' offsets and bytes. -/
def cap (l : List (Nat × Bytes)) : Bytes := l.foldl (fun b p => overlay b p.1 p.2) (zeros 64)

/-- A ready command of queue pair 1, id 7. -/
def cmdOf (l : List (Nat × Bytes)) : Cmd := { qid := 1, cid := 7, order := 0, capsule := cap l, plist := [], wait := .ready }

/-- A state with one outstanding command. -/
def cmdIn (s : State) (c : Cmd) : State := { s with host := { s.host with cmds := [c] } }

/-- An admin context that holds: TAILMODE 1, depth 16, weight 1. -/
def ctxGood : Bytes := overlay (overlay (zeros 64) 0 [1, 0, 1, 0, 16]) 32 [1]

/-- A queue pair 1 of that shape. -/
def pair1 : QueuePair := { qid := 1, ctx := overlay ctxGood 1 [1] }

/-- The running device with a queue pair. -/
def upWith (p : QueuePair) : State := { up with host := { up.host with qps := [p] } }

theorem wit_AdminQueueEnable : (let s : State := { up with host := { up.host with adminCtx := ctxGood } }
      s.quiet ∧ s.hostUp = true ∧ s.started = true ∧ s.qp 0 = none ∧ ctxBad s.host.adminCtx (field s.host.adminCtx 1 1 == 0) = none) ∧
    (up.quiet ∧ up.hostUp = true ∧ up.started = true ∧ up.qp 0 = none ∧ ctxBad up.host.adminCtx (field up.host.adminCtx 1 1 == 0) = some 0) ∧
    (let s : State := { starting .finishing with host := { up.host with } }
     s.quiet ∧ s.hostUp = true ∧ s.started = false) ∧
    (let s := upWith { qid := 0, ctx := ctxGood }
     s.quiet ∧ s.hostUp = true ∧ s.qp 0 = some { qid := 0, ctx := ctxGood } ∧ ∀ c ∈ s.host.cmds, c.qid ≠ 0) := by decide

theorem wit_DeverrWriteOneToClear : up.quiet ∧ up.hostUp = true ∧ (4#32).getLsbD 2 = true ∧ (0#32).getLsbD 2 = false := by decide

theorem wit_QueueIndexesArrive : (let s := upWith pair1
      s.quiet ∧ s.hostUp = true ∧ (1 : Nat) < 256 ∧ s.qp 1 = some pair1 ∧ pair1.tailmode = 1 ∧ pair1.err = false ∧ 15 < pair1.depth ∧ pair1.depth ≤ 16 ∧
      pair1.takeHead 0 = some pair1) ∧
    (let p : QueuePair := { pair1 with ctx := overlay pair1.ctx 2 [0] }
     let s : State := { upWith p with host := { (upWith p).host with watched := [1, 257] }, sinks := [{ num := 1, image := [], shard := 0, base := 0 }] }
     s.quiet ∧ s.hostUp = true ∧ s.power.state ≤ 1 ∧ s.qp 1 = some p ∧ p.tailmode = 0 ∧ p.err = false ∧ p.takeHead 0 = some p ∧ 15 < p.depth ∧
     s.host.watched.contains 1 = true ∧ (s.sink 1).isSome ∧ s.host.watched.contains 257 = true) := by decide

theorem wit_WriteWindowKeepsTheRest : up.quiet ∧ up.hostUp = true ∧ windowSize - 1 + (zeros 1).length ≤ windowSize ∧
    (let s : State := { up with host := { up.host with grants := [{ qid := 1, cid := 7, first := 16383, count := 1, offset := 0, len := 1 }] } }
     (zeros 1)[0]? = some 0 ∧ s.sliceGranted ((windowSize - 1) / 65536) = true ∧ s.sliceGranted 0 = false) := by decide

theorem wit_RegisterWindowWrites : up.quiet ∧ up.hostUp = true ∧ 0x20000 ≤ 0x2003C ∧ 0x2003C < 0x20040 ∧ 0x2003C % 4 = 0 ∧ 0x1FFFC < 0x20000 ∧ 0x1FFFC % 4 = 0 ∧
    1 % 4 ≠ 0 ∧ (16384 : Nat) ≤ 16384 ∧ (16384 : Nat) < 4294967296 := by decide

theorem wit_FetchedCapsuleWaits : let p : QueuePair := { pair1 with sqTail := 1 }
    let s : State := upWith p
    s.quiet ∧ s.fetches = true ∧ s.nextQp = some (p, false) ∧ s.qp p.qid = some p ∧ s.cmd p.qid (field (zeros 64) 2 2) = none := by decide

theorem wit_CompletionPosted : (let p : QueuePair := { pair1 with held := [{ kind := 0, cid := 7, res0 := 0, status := 0, jstate := 7, res1 := 0 }] }
      let s := upWith p
      s.quiet ∧ s.mayPost = true ∧ s.qp 1 = some p ∧ p.full = false ∧ ∀ x ∈ s.host.qps, x.qid = 1 → x = p) ∧
    (let p : QueuePair := { pair1 with cqTail := 15 }
     (upWith p).quiet ∧ (upWith p).qp 1 = some p ∧ p.full = true) ∧
    (let p : QueuePair := { pair1 with ctx := overlay pair1.ctx 34 [1], unsignalled := 1 }
     (upWith p).mayPost = true ∧ (upWith p).qp 1 = some p ∧ p.unsignalled ≠ 0 ∧ p.ctime ≠ 0) ∧
    (let s : State := { up with host := { up.host with barBytes := [(4 * 2 ^ 32 + 12, 0)] } }
     s.masked 0 = false) := by decide

/-! ### Admin commands -/

/-- An open installer session over the mailbox. -/
def sess : Session := { sid := 1, t := .mailbox, addr := zeros 8, role := 2, slot := 1, nonce := zeros 48, isOpen := true }

/-- A state with a session. -/
def withSess (s : State) : State := { s with dict := { s.dict with sessions := [sess] } }

theorem wit_GrantsGiveAndEnd : (let c : Cmd := { cmdOf [(0, [0x11]), (16, [1])] with wait := .data }
      let s : State := { cmdIn (upWith pair1) c with mem := { up.mem with pools := [{ tier := 1, n := 0, total := 1 }] } }
      s.quiet ∧ s.cmd 1 7 = some c ∧ c.wait = .data ∧ min (1 * 65536) (c.dlen - c.granted) = 1 ∧ (1 : Nat) = ceilDiv 1 65536 ∧ 16383 + 1 ≤ 16384 ∧
      (s.host.grants.filter fun g => g.qid == 1 && g.cid == 7).length < 4 ∧
      (∀ k, k < 1 → s.sliceGranted (16383 + k) = false ∧ s.sliceHeld (16383 + k) = false) ∧
      (s.alloc .writeWindow (.window 1 7 16383) 1 [ownerId 3 1]).1 = true) ∧
    (let g : Grant := { qid := 1, cid := 7, first := 16383, count := 1, offset := 0, len := 1 }
     let s : State := { cmdIn up (cmdOf []) with host := { (cmdIn up (cmdOf [])).host with grants := [g] } }
     s.hostUp = true ∧ s.host.grants.find? (fun x => x.first == g.first) = some g ∧ g.first < 16384 ∧ s.cmd 1 7 = some (cmdOf []) ∧ g ∈ s.host.grants ∧
     g.qid = 1 ∧ g.cid = 7) ∧
    ((upWith pair1).hostUp = true ∧ (upWith pair1).qp 1 = some pair1 ∧ pair1.err = false) := by decide

theorem wit_LinkEvents : (let s := upWith pair1
      s.quiet ∧ s.coxUp = true ∧ s.crews = [] ∧ s.sinks = [] ∧ ∀ c ∈ s.host.cmds, (s.qp c.qid).isSome) ∧
    (let s : State := { up with host := {} }
     s.quiet ∧ s.startup.cxlDone = true ∧ s.power.state ≤ 1 ∧ s.host.speed = 0 ∧ s.host.leftDown = false) ∧
    (let s : State := { up with host := { up.host with ide := 1 } }
     s.hostUp = true ∧ s.host.ide ≠ 0 ∧ 0 ∉ s.host.insecure) := by decide

theorem wit_AdminCommandsAnswer : (let c := cmdOf [(0, [0x01]), (16, [0, 16])]
      (cmdIn up c).quiet ∧ (cmdIn up c).readyCmd 1 7 0x01 none = some c ∧ 4096 ≤ c.dlen) ∧
    (let c := cmdOf [(0, [0x02])]
     (cmdIn up c).readyCmd 1 7 0x02 none = some c) ∧
    (let c := cmdOf [(0, [0x03]), (16, [64]), (20, [1, 0, 0, 0, 1])]
     (cmdIn (upWith pair1) c).readyCmd 1 7 0x03 none = some c ∧ c.fid = 0x01 ∧ (cmdIn (upWith pair1) c).host.qps ≠ [] ∧ 64 ≤ c.dlen) ∧
    (let c := cmdOf [(0, [0x03]), (20, [2])]
     (cmdIn up c).readyCmd 1 7 0x03 none = some c ∧ c.fid ≠ 0x01) ∧
    (let c := cmdOf [(0, [0x05]), (16, [1]), (20, [1])]
     let s := withSess (cmdIn up c)
     s.quiet ∧ s.readyCmd 1 7 0x05 none = some c ∧ s.startup.running ≠ some c.fwSlot ∧ c.fval + c.dlen ≤ 25165824 ∧ s.mailboxSession = some sess ∧ c.dlen ≠ 0) := by decide

/-- A commit of slot B: its image verifies when its signature does. -/
theorem wit_AdminCommandsAnswer_commit (b : Bytes) (h : imgVerifies b = true) : ∃ (s : State) (c : Cmd), s.quiet ∧ s.readyCmd 1 7 0x06 none = some c ∧
    s.mailboxSession = some sess ∧ s.auditRefuses = false ∧ (s.audit (s.auditOf sess 4 3)).judgeSlot c.fwSlot = 3 := by
  let c := cmdOf [(0, [0x06]), (20, [1])]
  refine ⟨{ withSess (cmdIn up c) with startup := { up.startup with slotB := { image := b } } }, c, rfl, by rfl, by rfl, by rfl, ?_⟩
  have e : ∀ (t : State) (a : Audit), (t.audit a).startup = t.startup := by intro t a; unfold State.audit; dsimp only; split <;> rfl
  have k : c.fwSlot = 1 := by decide
  simp [State.judgeSlot, State.slot, State.securityCounter, e, h, k, up, starting]

theorem wit_QueuePairCommands : (let c : Cmd := { cmdOf [(0, [0x04]), (16, [64]), (20, [1])] with parts := [(0, overlay ctxGood 1 [2])] }
      let s := cmdIn (upWith pair1) c
      s.quiet ∧ s.readyCmd 1 7 0x04 (some 0x01) = some c ∧ c.short 64 = false ∧ ctxBad (c.data.take 64) (1 ≤ 2 && (s.qp 2).isNone) = none) ∧
    (let c : Cmd := cmdOf [(0, [0x04]), (20, [2, 0, 0, 0, 1])]
     let s := cmdIn (upWith pair1) c
     s.readyCmd 1 7 0x04 (some 0x02) = some c ∧ c.fval ≠ 0 ∧ s.qp c.fval = some pair1 ∧ s.qpTargeted c.fval = false) ∧
    (let c : Cmd := cmdOf [(0, [0x04]), (20, [3, 0, 0, 0, 8, 0, 1])]
     let x : Cmd := { cmdOf [(0, [0x10])] with cid := 8 }
     let s : State := { up with host := { up.host with cmds := [c, x] } }
     s.readyCmd 1 7 0x04 (some 0x03) = some c ∧ s.cmd (c.fval / 65536 % 256) (c.fval % 65536) = some x ∧ isJobOpc x.opc = false ∧ x.is c.qid c.cid = false ∧
     (cmdIn up c).cmd (c.fval / 65536 % 256) (c.fval % 65536) = none) := by decide

/-! ### Media -/

/-- The running device with that flash mounted. -/
def flash : State := { up with media := { up.media with
  geom := geom1, groups := [{ g := 0, members := (List.range 16).map fun c => (c, 0) }],
  sblks := (List.range 5).map fun k => { g := 0, k := k }, luns := (List.range 16).map fun c => { ch := c, pos := 0 } } }

/-- The media command of an opcode for one map unit at the capacity's end. -/
def unitCmd (opc : Nat) : Cmd := cmdOf [(0, [byteOf opc]), (20, leBytes 8 1020 ++ leBytes 4 4)]

theorem wit_MediaCommandsServe : (∀ opc ∈ [0x10, 0x12, 0x13, 0x14], let c := unitCmd opc
      let s := cmdIn flash c
      s.readyCmd 1 7 opc none = some c ∧ s.media.state ≤ 2 ∧ s.media.frozen = false ∧ s.mediaHeld c = false ∧ s.registerUnknown c = false ∧
      c.slba + c.nlb ≤ s.media.capacity ∧ c.dlen ≤ s.num 0x5820 0 * 1048576 ∧ s.media.lostIn (4096 * c.slba) (4096 * c.nlb) = false ∧
      s.inExtent c c.slba c.nlb = false ∧ s.media.inSecure c.slba c.nlb = false ∧ s.media.partLost c.slba c.nlb = false) ∧
    (let c := unitCmd 0x10
     let s : State := { cmdIn flash c with media := { flash.media with lost := [(0, 255)] } }
     s.readyCmd 1 7 0x10 none = some c ∧ s.media.state ≤ 2 ∧ s.media.frozen = false ∧ s.mediaHeld c = false ∧ c.slba + c.nlb ≤ s.media.capacity ∧
     c.dlen ≤ s.num 0x5820 0 * 1048576 ∧ s.media.lostIn (4096 * c.slba) (4096 * c.nlb) = true) ∧
    (let c := cmdOf [(0, [0x10]), (20, leBytes 8 1023 ++ leBytes 4 2)]
     let s := cmdIn flash c
     s.readyCmd 1 7 0x10 none = some c ∧ s.mediaHeld c = false ∧ s.media.capacity < c.slba + c.nlb) ∧
    (let c := cmdOf [(0, [0x10]), (16, leBytes 4 67108865), (20, leBytes 8 0 ++ leBytes 4 4)]
     let s := cmdIn flash c
     s.readyCmd 1 7 0x10 none = some c ∧ s.mediaHeld c = false ∧ c.slba + c.nlb ≤ s.media.capacity ∧ s.num 0x5820 0 * 1048576 < c.dlen) := by decide

theorem wit_MediaCommandsServe_write : let c := unitCmd 0x11
    let s := cmdIn flash c
    s.readyCmd 1 7 0x11 none = some c ∧ c.ingest = false ∧ c.dlen ≤ s.num 0x5820 0 * 1048576 ∧ s.media.state < 2 ∧ s.media.frozen = false ∧
    s.mediaHeld c = false ∧ s.registerUnknown c = false ∧ c.slba + c.nlb ≤ s.media.capacity ∧ s.inExtent c c.slba c.nlb = false ∧
    s.media.inSecure c.slba c.nlb = false ∧ s.media.partLost c.slba c.nlb = false ∧ s.media.over c.slba c.nlb = false ∧
    (s.media.write c.slba c.nlb c.data).isSome = true := by decide

/-- A page of map unit 0 in its place. -/
def page0 : Page := { loc := ⟨0, 0, 0, 1⟩, kind := 1, space := 0, bmask := 15, lmu := 0, seq := 9, dseq := 9, data := [1], prog := .issued }

/-- The flash with a page of unit 0 under way. -/
def paged (p : Page) : State := { flash with media := { flash.media with pages := [p], map := [(0, 0, page0.loc)] } }

theorem wit_PageReadsAndPrograms : (let s := paged page0
      s.mediaRuns = true ∧ s.power.state ≤ 1 ∧ s.media.entry 0 0 = some page0.loc ∧ s.media.stageAt page0.loc 1 = 1 ∧ s.media.stageAt page0.loc 2 = 2 ∧
      s.media.stageAt page0.loc 4 = 5 ∧ s.media.hasParity page0.loc = false ∧ s.media.programOf 9 = some page0 ∧
      (s.media.map.find? fun e => e.2.2 == (⟨0, 0, 16 % 16, 16 / 16⟩ : Loc)) = some (0, 0, page0.loc) ∧
      s.media.group 0 = some { g := 0, members := (List.range 16).map fun c => (c, 0) }) ∧
    (let p := { page0 with loc := ⟨0, 0, parityMember 1, 1⟩, kind := 4, prog := .whole }
     let s : State := { flash with media := { flash.media with pages := [{ page0 with prog := .whole }, p], map := [(0, 0, page0.loc)] } }
     s.media.stageAt page0.loc 4 = 4) ∧
    (let p : Page := { page0 with loc := ⟨0, 1, 0, 1⟩, kind := 2, source := some page0.loc }
     let s := paged p
     s.mediaRuns = true ∧ (s.media.pages.find? fun x => x.kind == 2 && x.seq == 9) = some p ∧ p.source = some page0.loc ∧
     (s.media.report p.loc).entry p.space p.lmu = some page0.loc) ∧
    (let p : Page := { page0 with loc := ⟨0, 1, 0, 1⟩, kind := 2 }
     ((paged p).media.pages.find? fun x => x.kind == 2 && x.seq == 9) = some p ∧ p.source = none) := by decide

theorem wit_ErasesLunsAndFormat : (let x : Sblk := { g := 0, k := 4, use := .full, intent := true }
      let s : State := { flash with media := { flash.media with sblks := [x] } }
      s.mediaRuns = true ∧ s.media.erasing 0 4 = true ∧ (15 : Nat) < 16 ∧ s.media.sblk 0 4 = some x) ∧
    (flash.mediaRuns = true ∧ flash.media.hasLun 15 0 = true) ∧
    (let g : Group := { g := 0, members := [], rebuilding := some 3 }
     let m : Media := { flash.media with geom := { geom1 with pagesPerBlock := 3 }, groups := [g], pages := [page0, { page0 with loc := ⟨0, 0, 0, 2⟩ }] }
     m.group 0 = some g ∧ g.rebuilding = some 3 ∧ g.rebuilt + 1 < (m.stripes 0).length) ∧
    (let g : Group := { g := 0, members := [], rebuilding := some 3, rebuilt := 1 }
     let m : Media := { flash.media with geom := { geom1 with pagesPerBlock := 3 }, groups := [g] }
     m.group 0 = some g ∧ g.rebuilding = some 3 ∧ (m.stripes 0).length ≤ g.rebuilt + 1) ∧
    (let s : State := { flash with media := { flash.media with formatting := true, state := 3 } }
     s.quiet ∧ s.media.formatting = true ∧ s.media.mountStep = 0 ∧ s.pins.padHold = none ∧ geomSupported s.media.geom = true) := by decide

/-- Ingest stream 0 of crew 0 over blocks 0 to 63. -/
def ing : Ingest := { n := 0, crew := 0, qid := 1, mode := 0, doff := 0, slba := 0, nblk := 64 }

theorem wit_IngestStreams : (let c : Cmd := { cmdOf [(0, [0x04]), (16, [32]), (20, [8])] with parts := [(0, [0, 0, 0, 0] ++ zeros 4 ++ leBytes 8 960 ++ leBytes 8 64 ++ zeros 8)] }
      let s : State := { cmdIn flash c with crews := [{ num := 0, state := 1, eights := [0] }] }
      s.quiet ∧ s.readyCmd 1 7 0x04 (some 0x08) = some c ∧ c.short 32 = false ∧ s.ingestBad c.data = none) ∧
    (let c : Cmd := { cmdOf [(0, [0x11]), (32, [2])] with parts := [(0, [])] }
     let s : State := { cmdIn flash c with host := { (cmdIn flash c).host with ingests := [ing] } }
     s.readyCmd 1 7 0x11 none = some c ∧ c.ingest = true ∧ c.dlen ≤ s.num 0x5820 0 * 1048576 ∧ s.media.state < 2 ∧ s.media.frozen = false ∧ s.mediaHeld c = false ∧ s.ingest c.istream = some ing ∧
     ing.qid = c.qid ∧ ing.closedOnly = false ∧ s.registerUnknown c = false ∧ s.inExtent c ing.slba ing.nblk = false ∧ s.media.inSecure ing.slba ing.nblk = false ∧
     ing.endWith (c.data.take c.dlen) ≤ 4096 * ing.nblk ∧
     s.media.over (ing.slba + ing.endOff / 4096) (ceilDiv (ing.endWith (c.data.take c.dlen)) 4096 - ing.endOff / 4096) = false) ∧
    (let s : State := { flash with host := { flash.host with ingests := [ing] } }
     s.quiet ∧ s.media.mounted = true ∧ s.media.frozen = false ∧ s.ingest 0 = some ing ∧ ing.pending.length < 65536 ∧ s.ingestClosing 0 = false) ∧
    (let c : Cmd := cmdOf [(0, [0x04]), (16, [16]), (20, [9])]
     let s : State := { cmdIn flash c with host := { (cmdIn flash c).host with ingests := [ing] } }
     s.readyCmd 1 7 0x04 (some 0x09) = some c ∧ s.ingest c.fval = some ing ∧ (∀ d ∈ s.host.cmds, d.ingest = false) ∧ ing.pending = [] ∧
     16 * ing.blocks.length + 16 ≤ c.dlen ∧ s.media.settled (4096 * ing.slba + ing.doff) (ing.endOff - ing.doff) = true) := by decide

theorem wit_IngestStreams_block : ∃ g : Ingest, 65536 ≤ g.pending.length := ⟨{ ing with pending := List.replicate 65536 0 }, Nat.le_of_eq List.length_replicate.symm⟩

/-! ### Crews and jobs -/

/-- A crew of one eight in a state. -/
def crewAt (st : Nat) : Crew := { num := 0, state := st, eights := [0] }

/-- The running flash device with crews. -/
def withCrews (l : List Crew) : State := { flash with crews := l, faults := { flash.faults with lmap := some (0, List.range 8) :: List.replicate 63 none } }

/-- A job of one rank, 0. -/
def job1 : Job := { block := zeros 128, qid := 1, settings := zeros 256, seed := 0, h := 1, manifest := [], place := [], lookahead := 1, crabFactor := 8, credits := 1,
                    queue := 4, ranks := [{ rank := 0, target := zeros 32, epoch := 0, q := 0, dealt := 0, next := 0, granted := 1 }] }

/-- A recipe of no stages. -/
def rcp0 : Recipe := { image := zeros 128, hash := [], lens := [], fmts := [], tables := [], man := [], place := [] }

/-- A crew with that job. -/
def crewJob (st : Nat) : Crew := { crewAt st with recipe := some rcp0, job := some job1 }

theorem wit_CrewCommands : (let c : Cmd := { cmdOf [(0, [0x04]), (16, [16]), (20, [0x20])] with parts := [(0, [63, 1, 1, 0] ++ zeros 4 ++ leBytes 8 1)] }
      let s := cmdIn (withCrews []) c
      s.quiet ∧ s.readyCmd 1 7 0x04 (some 0x20) = some c ∧ c.short 16 = false ∧ field c.data 0 1 ≤ 63 ∧ s.crew (field c.data 0 1) = none ∧ 1 ≤ field c.data 1 1 ∧
      field c.data 1 1 ≤ 64 ∧ field c.data 1 1 ≤ s.freeEights.length ∧ field c.data 2 1 % 2 = 1 ∧
      (maskEights (field c.data 8 8)).length = field c.data 1 1 ∧ ∀ e ∈ maskEights (field c.data 8 8), e ∈ s.freeEights) ∧
    (let c : Cmd := { cmdOf [(0, [0x04]), (16, [16]), (20, [0x20])] with parts := [(0, [0, 1] ++ zeros 14)] }
     let s := cmdIn (withCrews []) c
     s.readyCmd 1 7 0x04 (some 0x20) = some c ∧ c.short 16 = false ∧ s.crew (field c.data 0 1) = none ∧ field c.data 1 1 ≤ s.freeEights.length ∧
     field c.data 2 1 % 2 = 0 ∧ field c.data 8 8 = 0) ∧
    (let c := cmdOf [(0, [0x04]), (20, [0x21])]
     let s := cmdIn (withCrews [crewAt 0]) c
     s.readyCmd 1 7 0x04 (some 0x21) = some c ∧ s.crew c.fval = some (crewAt 0) ∧ (crewAt 0).state = 0 ∧ ∀ x ∈ s.sinks, x.crew ≠ c.fval) ∧
    (let c := cmdOf [(0, [0x04]), (20, [0x22, 0, 0, 0, 0, 63])]
     let s : State := { cmdIn (withCrews [crewAt 0]) c with domain := { up.domain with role := 1 } }
     s.quiet ∧ s.readyCmd 1 7 0x04 (some 0x22) = some c ∧ s.crew (c.fval % 256) = some (crewAt 0) ∧ c.fval / 256 % 256 ≤ 63 ∧ s.domain.role ≠ 0) := by decide

theorem wit_JobCommandsOutOfSequence : ∀ x ∈ [(0x20, 1), (0x21, 2), (0x22, 1), (0x23, 4), (0x24, 3), (0x25, 0)],
    let c := cmdOf [(0, [byteOf x.1])]
    let s := cmdIn (withCrews [crewAt x.2]) c
    s.quiet ∧ s.jobTurn c = true ∧ s.crew c.crew = some (crewAt x.2) ∧ s.readyCmd 1 7 x.1 none = some c := by decide

theorem wit_BatchesRequested : (let c := cmdOf [(0, [0x22]), (24, [1])]
      let s := cmdIn (withCrews [crewJob 2]) c
      s.readyCmd 1 7 0x22 none = some c ∧ s.jobTurn c = true ∧ s.crew c.crew = some (crewJob 2) ∧ (crewJob 2).job = some job1 ∧ job1.rank c.reqRank ≠ none ∧
      (s.host.cmds.filter fun y => y.grantsRank c.crew c.reqRank).length < 16 ∧ job1.mode ≠ 2) ∧
    (let c := cmdOf [(0, [0x22]), (20, [1, 0, 0, 0, 1])]
     let s := cmdIn (withCrews [crewJob 4]) c
     s.quiet ∧ s.readyCmd 1 7 0x22 none = some c ∧ s.jobTurn c = true ∧ s.crew c.crew = some (crewJob 4) ∧ job1.rank c.reqRank = none) := by decide

theorem wit_SuspendAndResume : (let c := cmdOf [(0, [0x23]), (16, [64])]
      let s := cmdIn (withCrews [crewJob 3]) c
      s.quiet ∧ s.readyCmd 1 7 0x23 none = some c ∧ s.jobTurn c = true ∧ s.crew c.crew = some (crewJob 3) ∧ 64 * job1.ranks.length ≤ c.dlen) ∧
    (let c : Cmd := { cmdOf [(0, [0x23])] with wait := .drain }
     let s := cmdIn (withCrews [crewJob 4]) c
     s.quiet ∧ (s.host.cmds.find? fun c => c.opc == 0x23 && c.crew == 0 && c.wait == .drain) = some c ∧ (s.run 0).isSome = true ∧ job1.sending = false) ∧
    (let c := cmdOf [(0, [0x24])]
     let s := cmdIn (withCrews [crewJob 4]) c
     s.readyCmd 1 7 0x24 none = some c ∧ s.jobTurn c = true ∧ s.crew c.crew = some (crewJob 4)) ∧
    ({ job1 with batches := [{ rank := 0, k := 0, tx := .sending }] } : Job).sending = true := by decide

theorem wit_CloseAndReset : (let c := cmdOf [(0, [0x25])]
      let s := cmdIn (withCrews [crewAt 1]) c
      s.readyCmd 1 7 0x25 none = some c ∧ s.jobTurn c = true ∧ s.crew c.crew = some (crewAt 1) ∧ (crewAt 1).job = none) ∧
    (let c := cmdOf [(0, [0x25]), (16, [64])]
     let s := cmdIn (withCrews [crewJob 5]) c
     s.quiet ∧ s.readyCmd 1 7 0x25 none = some c ∧ s.jobTurn c = true ∧ s.crew c.crew = some (crewJob 5) ∧ 64 * job1.ranks.length ≤ c.dlen) ∧
    (let c : Cmd := { cmdOf [(0, [0x25])] with wait := .drain }
     let s := cmdIn (withCrews [crewJob 3]) c
     (s.host.cmds.find? fun c => c.opc == 0x25 && c.crew == 0 && c.wait == .drain) = some c ∧ (s.run 0).isSome = true) ∧
    (let c := cmdOf [(0, [0x26])]
     let s := cmdIn (withCrews [crewJob 3]) c
     s.readyCmd 1 7 0x26 none = some c ∧ s.crew c.crew = some (crewJob 3)) := by decide

/-! ### A dataset, a recipe of two stages and an epoch -/

/-- The manifest of dataset 1: one field of token ids, one shard. -/
def man1 : Bytes := overlay (overlay (zeros 128) 0 ([0x37, 0xD3, 0xA5, 0xC4, 1, 1, 1, 0, 1, 0, 0, 0, 1, 0, 0, 0, 1])) 80 [0x12]

/-- Dataset 1. -/
def dset1 : Dataset := { dset := 1, kind := 1, manifest := man1, mhash := zeros 48, gen := 0, place := [(0, 0)] }

/-- The recipe's image: fetch field 0 to slot 0, pack-sequence rows of 16 tokens. -/
def img1 : Bytes := overlay (overlay (overlay (zeros 256) 0 ([0x38, 0xD3, 0xA5, 0xC4, 1, 2, 0, 0, 1])) 24 [1]) 128 ([1, 1] ++ zeros 6 ++ [1] ++ zeros 55 ++ [0x11, 1] ++ zeros 6 ++ [16])

/-- A LOAD RECIPE that carries it. -/
def load1 : Cmd := { cmdOf [(0, [0x20])] with parts := [(0, img1)] }

theorem wit_RecipeAndEpochOpened_load : let s : State := { cmdIn (withCrews [crewAt 0]) load1 with catalogue := [dset1] }
    s.readyCmd 1 7 0x20 none = some load1 ∧ s.jobTurn load1 = true ∧ s.crew load1.crew = some (crewAt 0) ∧ s.media.stateCode ≠ 5 ∧
    (loadRecipe s load1.data).isLeft = true ∧ setStages img1 = [] := by decide +kernel

theorem wit_RecipeAndEpochOpened_fail : let s : State := cmdIn (withCrews [crewAt 0]) load1
    s.quiet ∧ (match loadRecipe s load1.data with | .inr f => f.status != 0x20 | .inl _ => false) = true := by decide +kernel

/-- That recipe as loaded. -/
def rcp1 : Recipe := { image := img1, hash := [], lens := [], fmts := [], tables := [], man := man1, place := [(0, 0)] }

theorem wit_RecipeAndEpochOpened_tables : let c : Cmd := { load1 with wait := .tables }
    let k : Crew := { crewAt 0 with loading := some rcp1 }
    let s : State := { cmdIn (withCrews [k]) c with catalogue := [dset1] }
    (s.host.cmds.find? fun c => c.opc == 0x20 && c.crew == 0 && c.wait == .tables) = some c ∧ s.crew 0 = some k ∧ k.loading = some rcp1 ∧
    (buildTables s rcp1.image).isLeft = true := by decide +kernel

/-- An open block of one rank over CXL, one row a batch, with its target. -/
def open1 : Cmd := { cmdOf [(0, [0x21])] with parts :=
  [(0, overlay (zeros 160) 0 ([1, 0, 0, 0, 1, 0, 0, 0, 1, 0, 0, 0, 0, 0, 0, 0, 1]) |> fun b => overlay b 128 ([1, 1] ++ zeros 14 ++ [0, 0, 1] ++ zeros 5 ++ [1]))] }

theorem wit_RecipeAndEpochOpened_open : let k : Crew := { crewAt 1 with recipe := some rcp1 }
    let s : State := cmdIn (withCrews [k]) open1
    s.readyCmd 1 7 0x21 none = some open1 ∧ s.jobTurn open1 = true ∧ s.crew open1.crew = some k ∧ s.media.stateCode ≠ 5 ∧ k.domainJob = none ∧
    k.state = 1 ∧ k.recipe = some rcp1 ∧ (s.judgeOpen open1 k rcp1 none).isRight = true := by decide +kernel

theorem wit_RecipeAndEpochOpened_wait : let s : State := { cmdIn (withCrews [crewAt 0]) load1 with media := { flash.media with state := 5 } }
    s.quiet ∧ s.jobTurn load1 = true ∧ s.crew load1.crew = some (crewAt 0) ∧ s.media.stateCode = 5 ∧ s.readyCmd 1 7 0x20 none = some load1 ∧
    (crewAt 0).state = 0 := by decide +kernel

/-! ### The catalogue and the text tables -/

/-- The table of a one-granule array shard. -/
def tab3 : Bytes := zeros 4

/-- The shard header of dataset 2, an array of one byte, without its CRC. -/
def head3 : Bytes := [0x36, 0xD3, 0xA5, 0xC4, 1, 2, 0, 0, 2, 0, 0, 0, 0, 0, 0, 0, 1, 0, 0, 0, 1, 0, 0, 0, 0, 32, 0, 0, 0, 0, 0, 0, 0, 0, 0, 0] ++
  leBytes 4 (crc32c tab3) ++ leBytes 8 4096 ++ leBytes 8 12288 ++ leBytes 8 1 ++ zeros 4028

/-- Its manifest. -/
def man3 : Bytes := [0x37, 0xD3, 0xA5, 0xC4, 1, 3, 0, 0, 2, 0, 0, 0, 1, 0, 0, 0] ++ zeros 16 ++ leBytes 8 1 ++ [1, 0, 1] ++ zeros 21 ++
  [0, 0, 0, 0, 1, 0, 0, 0] ++ leBytes 8 12288 ++ leBytes 4 (crc32c head3) ++ zeros 12

/-- The registration data: hash, manifest, placement at block 0. -/
def reg3 : Bytes := sha384 man3 ++ leBytes 4 96 ++ zeros 12 ++ man3 ++ zeros 16

/-- The command that registers it. -/
def register3 : Cmd := { cmdOf [(0, [0x04]), (20, [0x30])] with parts := [(0, reg3)] }

/-- The flash with the shard's page at map unit 0. -/
def flash3 : State := { flash with media := { flash.media with
  pages := [{ page0 with data := head3 ++ leBytes 4 (crc32c head3), prog := .whole }], map := [(0, 0, page0.loc)] } }

set_option maxRecDepth 200000 in
theorem wit_CatalogueChanges_register : let s := cmdIn flash3 register3
    s.readyCmd 1 7 0x04 (some 0x30) = some register3 ∧ s.catalogueTurn register3 = true ∧ s.media.stateCode ≠ 5 ∧
    structureFail register3.data s.numberTaken (s.takenExtents ++ s.registering register3) s.media.capacity = none ∧
    s.registrationHeld register3 = false ∧ registerFail s.media register3.data = none := by decide +kernel

theorem wit_CatalogueChanges : (let c := cmdOf [(0, [0x04]), (20, [0x30])]
      let s := cmdIn flash c
      s.readyCmd 1 7 0x04 (some 0x30) = some c ∧ s.catalogueTurn c = true ∧ s.media.stateCode ≠ 5 ∧
      (structureFail c.data s.numberTaken (s.takenExtents ++ s.registering c) s.media.capacity).isSome = true) ∧
    (let c := cmdOf [(0, [0x04]), (20, [0x31, 0, 0, 0, 1])]
     let s : State := { cmdIn flash c with catalogue := [dset1] }
     let u : State := { s with crews := [{ crewAt 1 with recipe := some rcp1 }] }
     s.quiet ∧ s.readyCmd 1 7 0x04 (some 0x31) = some c ∧ s.catalogueTurn c = true ∧ s.dataset c.fval = some dset1 ∧ (∀ x ∈ s.host.cmds, x.wait ≠ .tables) ∧
     s.datasetUser c.fval = none ∧ u.datasetUser c.fval = some 0) ∧
    (let c := cmdOf [(0, [0x04]), (20, [0x31, 0, 0, 0, 1])]
     let x : Cmd := { load1 with cid := 8, wait := .tables, parts := [(0, overlay (zeros 384) 0 img1)] }
     let s : State := { up with host := { up.host with cmds := [c, x] }, catalogue := [dset1] }
     s.readyCmd 1 7 0x04 (some 0x31) = some c ∧ s.catalogueTurn c = true ∧ x ∈ s.host.cmds ∧ x.opc = 0x20 ∧ x.wait = .tables ∧ c.fval ∈ imageDatasets x.data) ∧
    (let c := cmdOf [(0, [0x04]), (20, [0x30])]
     c.opc = 0x04 ∧ c.fid = 0x30) ∧
    (let c : Cmd := { cmdOf [(0, [0x04]), (20, [0x31])] with order := 1 }
     let s : State := { up with host := { up.host with cmds := [cmdOf [(0, [0x04]), (20, [0x30])] , { c with cid := 8 }] } }
     s.quiet ∧ s.catalogueTurn { c with cid := 8 } = false ∧ s.readyCmd 1 8 0x04 (some 0x31) = some { c with cid := 8 }) := by decide +kernel

/-- A grammar of one class and one state. -/
def gram1 : Bytes := overlay (zeros 388) 0 [0x3A, 0xD3, 0xA5, 0xC4, 1, 1, 0, 0, 1]

/-- The running device with one buffer in each pool of HBM3E. -/
def pooled (s : State) : State := { s with mem := { s.mem with pools := (List.range 6).map fun n => { tier := 0, n := n, total := 1 } } }

theorem wit_TextTablesLoadAndLeave_grammar : (let c : Cmd := { cmdOf [(0, [0x04]), (20, [0x42])] with parts := [(0, [64] ++ zeros 7 ++ gram1)] }
      let s := pooled (cmdIn flash c)
      s.readyCmd 1 7 0x04 (some 0x42) = some c ∧ s.media.stateCode ≠ 5 ∧ c.short 72 = false ∧ field c.data 0 1 = 64 ∧ s.grammars = [] ∧
      gramBad (c.data.drop 8) = none ∧ (s.drawGrammar 64 (c.data.drop 8).length).1 = true) ∧
    (let c := cmdOf [(0, [0x04]), (20, [0x43, 0, 0, 0, 64])]
     let v : Grammar := { num := 64, image := gram1 }
     let s : State := { cmdIn flash c with grammars := [v] }
     s.readyCmd 1 7 0x04 (some 0x43) = some c ∧ v ∈ s.grammars ∧ v.num = c.fval) ∧
    (let c := cmdOf [(0, [0x04]), (20, [0x41, 0, 0, 0, 16])]
     let v : Vocab := { num := 16, image := [], hash := [] }
     let k : Sink := { num := 0, image := overlay (zeros 64) 6 [16], shard := 0, base := 0 }
     let s : State := { cmdIn (withCrews [crewAt 0]) c with vocabs := [v] }
     s.readyCmd 1 7 0x04 (some 0x41) = some c ∧ v ∈ s.vocabs ∧ v.num = c.fval ∧ s.vocabUser c.fval = none ∧ ({ s with sinks := [k] } : State).vocabUser c.fval = some 0) ∧
    (let c : Cmd := { cmdOf [(0, [0x04]), (20, [0x40])] with parts := [(0, [16] ++ zeros 71)] }
     let v : Vocab := { num := 16, image := [], hash := [] }
     let s : State := { cmdIn flash c with vocabs := [v] }
     s.quiet ∧ s.readyCmd 1 7 0x04 (some 0x40) = some c ∧ s.media.stateCode ≠ 5 ∧ c.short 72 = false ∧ v ∈ s.vocabs ∧ v.num = field c.data 0 1) := by decide +kernel

/-- The token row of the byte i: its string at i, of length 1. -/
def tokRow (i : Nat) : Bytes := leBytes 4 i ++ [1] ++ zeros 11

/-- The header of a vocabulary of the 256 single bytes. -/
def vocHead : Bytes := [0x39, 0xD3, 0xA5, 0xC4, 1, 1, 0, 0, 0, 1, 0, 0, 0, 0, 0, 0, 0, 1, 0, 0] ++ zeros 44

/-- Its byte table, then its strings. -/
def vocTail : Bytes := (List.range 256).flatMap (leBytes 4) ++ ((List.range 256).flatMap (fun i => [byteOf i]) ++ [])

/-- A vocabulary of the 256 single bytes. -/
@[irreducible] def voc1 : Bytes := vocHead ++ ((List.range 256).flatMap tokRow ++ vocTail)

theorem blocks_length (f : Nat → Bytes) (L : Nat) (hL : ∀ i, (f i).length = L) : ∀ n, ((List.range n).flatMap f).length = L * n
  | 0 => by simp
  | n + 1 => by rw [List.range_succ, List.flatMap_append, List.length_append, blocks_length f L hL n]; simp [hL, Nat.mul_succ]

/-- A slice within one block of a list of blocks of one length. -/
theorem slice_block (f : Nat → Bytes) (L : Nat) (hL : ∀ i, (f i).length = L) (hd rest : Bytes) (h t o k : Nat) (hh : hd.length = h) (ho : o + k ≤ L) :
    ∀ n, t < n → slice (hd ++ ((List.range n).flatMap f ++ rest)) (h + (L * t + o)) k = slice (f t) o k := by
  intro n
  induction n generalizing rest with
  | zero => intro ht; omega
  | succ n ih =>
    intro ht
    rw [List.range_succ, List.flatMap_append, List.append_assoc]
    by_cases e : t < n
    · exact ih _ e
    · have : t = n := by omega
      subst this
      have hl := blocks_length f L hL t
      unfold slice
      rw [← hh, List.drop_length_add_append, ← hl, List.drop_length_add_append]
      simp [List.drop_append, List.take_append, hL]
      omega

theorem leBytes_length : ∀ k n, (leBytes k n).length = k
  | 0, _ => rfl
  | k + 1, n => by simp [leBytes, leBytes_length k]

theorem tokRow_length (i : Nat) : (tokRow i).length = 16 := by simp [tokRow, leBytes_length, zeros]

theorem voc1_tok (t o k : Nat) (ht : t < 256) (ho : o + k ≤ 16) : slice voc1 (64 + (16 * t + o)) k = slice (tokRow t) o k :=
  by unfold voc1; exact slice_block tokRow 16 tokRow_length vocHead vocTail 64 t o k (by decide) ho 256 ht

theorem headTok_length : (vocHead ++ (List.range 256).flatMap tokRow).length = 4160 := by
  rw [List.length_append, blocks_length _ _ tokRow_length]; decide

theorem voc1_byte (t : Nat) (ht : t < 256) : slice voc1 (4160 + (4 * t + 0)) 4 = slice (leBytes 4 t) 0 4 := by
  have := slice_block (leBytes 4) 4 (leBytes_length 4) (vocHead ++ (List.range 256).flatMap tokRow)
    ((List.range 256).flatMap (fun i => [byteOf i]) ++ []) 4160 t 0 4 headTok_length (by omega) 256 ht
  rw [← this]; unfold voc1 vocTail; simp only [List.append_assoc]

theorem headByte_length : (vocHead ++ ((List.range 256).flatMap tokRow ++ (List.range 256).flatMap (leBytes 4))).length = 5184 := by
  rw [List.length_append, List.length_append, blocks_length _ _ tokRow_length, blocks_length _ _ (leBytes_length 4)]; decide

theorem voc1_str (t : Nat) (ht : t < 256) : slice voc1 (5184 + (1 * t + 0)) 1 = slice [byteOf t] 0 1 := by
  have := slice_block (fun i => [byteOf i]) 1 (fun _ => rfl) (vocHead ++ ((List.range 256).flatMap tokRow ++ (List.range 256).flatMap (leBytes 4)))
    [] 5184 t 0 1 headByte_length (by omega) 256 ht
  rw [← this]; unfold voc1 vocTail; simp only [List.append_assoc]

theorem slice_head (rest : Bytes) (o k : Nat) (h : o + k ≤ 64) : slice (vocHead ++ rest) o k = slice vocHead o k := by
  have hl : vocHead.length = 64 := by decide
  unfold slice
  rw [List.drop_append_of_le_length (by omega), List.take_append_of_le_length (by simp; omega)]

theorem bits_head (rest : Bytes) (h l : Nat) (hh : h < 512) (hl : l ≤ h) : bits (vocHead ++ rest) h l = bits vocHead h l := by
  unfold bits field
  rw [slice_head rest _ _ (by omega)]

theorem voc1_head : vocNtok voc1 = 256 ∧ vocNmerge voc1 = 0 ∧ bits voc1 159 128 = 256 ∧ bits voc1 39 32 = 1 ∧ bits voc1 31 0 = 0xC4A5D339 ∧ vocModel voc1 = 1 := by
  unfold vocNtok vocNmerge vocModel voc1
  simp only [bits_head _ 95 64 (by decide) (by decide), bits_head _ 127 96 (by decide) (by decide), bits_head _ 159 128 (by decide) (by decide), bits_head _ 39 32 (by decide) (by decide),
    bits_head _ 31 0 (by decide) (by decide), bits_head _ 47 40 (by decide) (by decide)]
  decide +kernel

theorem voc1_length : voc1.length = 5440 := by
  unfold voc1 vocTail
  rw [List.length_append, List.length_append, List.length_append, List.length_append, blocks_length _ _ tokRow_length, blocks_length _ _ (leBytes_length 4),
    blocks_length _ 1 (fun _ => rfl)]; decide

theorem voc1_rows (t : Nat) (ht : t < 256) : field voc1 (64 + 16 * t) 4 = t ∧ vocSlen voc1 t = 1 ∧ vocSpecial voc1 t = false := by
  have h1 := voc1_tok t 0 4 ht (by omega)
  have h2 := voc1_tok t 4 2 ht (by omega)
  have h3 := voc1_tok t 6 1 ht (by omega)
  have k : ∀ t < 256, leNat (slice (tokRow t) 0 4) = t ∧ leNat (slice (tokRow t) 4 2) = 1 ∧ leNat (slice (tokRow t) 6 1) = 0 := by decide +kernel
  obtain ⟨k1, k2, k3⟩ := k t ht
  refine ⟨?_, ?_, ?_⟩
  · exact (congrArg leNat h1).trans k1
  · exact (congrArg leNat h2).trans k2
  · unfold vocSpecial field
    rw [show slice voc1 (64 + 16 * t + 6) 1 = _ from h3, k3]; rfl

theorem voc1_bytes (t : Nat) (ht : t < 256) : vocByte voc1 (byteOf t) = t ∧ vocString voc1 t = [byteOf t] := by
  have h1 := voc1_byte t ht
  have h2 := voc1_str t ht
  have hb : (byteOf t).toNat = t := by simp [byteOf]; omega
  have k : ∀ t < 256, leNat (slice (leBytes 4 t) 0 4) = t := by decide +kernel
  refine ⟨?_, ?_⟩
  · unfold vocByte vocByteTab field
    rw [voc1_head.1, hb, show 64 + 16 * 256 + 4 * t = 4160 + (4 * t + 0) by omega, h1]
    exact k t ht
  · unfold vocString vocStrings vocByteTab
    rw [voc1_head.1, voc1_head.2.1, (voc1_rows t ht).1, (voc1_rows t ht).2.1]
    rw [show 64 + 16 * 256 + 1024 + 12 * 0 + t = 5184 + (1 * t + 0) from by omega]
    exact h2

theorem voc_good (v : Bytes) (h1 : vocNtok v = 256) (h2 : vocNmerge v = 0) (h3 : bits v 159 128 = 256) (h4 : bits v 39 32 = 1)
    (h5 : bits v 31 0 = 0xC4A5D339) (h6 : vocModel v = 1) (hl : v.length = 5440)
    (hr : ∀ t < 256, field v (64 + 16 * t) 4 = t ∧ vocSlen v t = 1 ∧ vocSpecial v t = false)
    (hb : ∀ t < 256, vocByte v (byteOf t) = t ∧ vocString v t = [byteOf t]) : vocBad v = none := by
  have e1 : vocStrings v = 5184 := by unfold vocStrings vocByteTab; rw [h1, h2]
  have f1 : ((List.range 256).find? fun t =>
        (if vocSpecial v t then vocSlen v t != 0 else vocSlen v t < 1 || 256 < vocSlen v t) ||
        256 < field v (64 + 16 * t) 4 + vocSlen v t) = none := by
    rw [List.find?_eq_none]
    intro t ht
    have ht := List.mem_range.1 ht
    obtain ⟨a, b, c⟩ := hr t ht
    rw [a, b, c]; simp; omega
  have f2 : ((List.range 256).find? fun b =>
          let t := vocByte v (byteOf b)
          256 ≤ t || vocSpecial v t || vocString v t != [byteOf b]) = none := by
    rw [List.find?_eq_none]
    intro t ht
    have ht := List.mem_range.1 ht
    obtain ⟨a, b⟩ := hb t ht
    obtain ⟨_, _, c⟩ := hr t ht
    simp only [a, b, c]; simp; omega
  unfold vocBad
  simp only [h1, h2, h3, h4, h5, h6, e1, hl, f1, f2]
  simp

theorem voc1_good : vocBad voc1 = none :=
  have h := voc1_head
  voc_good voc1 h.1 h.2.1 h.2.2.1 h.2.2.2.1 h.2.2.2.2.1 h.2.2.2.2.2 voc1_length voc1_rows voc1_bytes

/-- The data of a command that came as one run of bytes from offset 0. -/
theorem data_one (c : Cmd) (b : Byte) (l : Bytes) (h : c.parts = [(0, b :: l)]) : c.data = b :: l := by
  unfold Cmd.data; simp [h, Cmd.data.go]

/-- The load of an image as vocabulary 16. -/
def loadVoc (v : Bytes) : Cmd := { cmdOf [(0, [0x04]), (20, [0x40])] with parts := [(0, 16 :: (zeros 7 ++ v))] }

theorem wit_TextTablesLoadAndLeave_vocabulary : ∃ (s : State) (c : Cmd), s.readyCmd 1 7 0x04 (some 0x40) = some c ∧ s.media.stateCode ≠ 5 ∧
    c.short 72 = false ∧ field c.data 0 1 = 16 ∧ s.vocabs = [] ∧ vocBad (c.data.drop 8) = none ∧ (s.drawVocab 16 (c.data.drop 8).length).1 = true := by
  have hd : (loadVoc voc1).data = 16 :: (zeros 7 ++ voc1) := data_one _ _ _ rfl
  have h8 : (loadVoc voc1).data.drop 8 = voc1 := by rw [hd]; exact List.drop_left (l₁ := 16 :: zeros 7)
  have hl := voc1_length
  have hg := voc1_good
  refine ⟨pooled (cmdIn flash (loadVoc voc1)), loadVoc voc1, ?_, ?_, ?_, ?_, ?_, ?_, ?_⟩
  · generalize voc1 = v; rfl
  · generalize voc1 = v; exact (by decide : (pooled flash).media.stateCode ≠ 5)
  · unfold Cmd.short; rw [hd]; simp [hl, zeros]
  · rw [hd]; rfl
  · rfl
  · rw [h8]; exact hg
  · rw [h8, hl]; clear hd h8 hl hg; generalize voc1 = v; rfl

/-! ### Samples and batches -/

/-- A crew with recipe 1 and a job over its dataset. -/
def crewRun (st : Nat) (j : Job) : Crew := { crewAt st with recipe := some rcp1, job := some j }

/-- The job: dataset 1, one rank. -/
def job2 : Job := { job1 with block := overlay (zeros 160) 0 [1, 0, 0, 0, 1, 0, 0, 0, 1, 0, 0, 0, 0, 0, 0, 0, 1], manifest := man1, place := [(0, 0)] }

/-- Context 3 of it. -/
def ctx3 (st : CtxState) : Context := { num := 3, st := st, crew := 0, rank := 0, epoch := 0, pos := 0, tries := 0, sid := 0, origSid := 0 }

/-- The device running job j with contexts l. -/
def running (st : Nat) (j : Job) (l : List Context) : State :=
  { pooled (withCrews [crewRun st j]) with contexts := l, catalogue := [dset1] }

/-- The run of job j. -/
def runOf (st : Nat) (j : Job) : Run := ⟨crewRun st j, rcp1, j⟩

theorem wit_PositionsDealtAndRun_deal : let s := running 2 job2 []
    s.run 0 = some (runOf 2 job2) ∧ (runOf 2 job2).crew.state = 2 ∧ job2.stopped = false ∧ job2.dealing = true ∧
    ∃ k, (runOf 2 job2).dealOrder.head? = some k ∧ s.pickContext 0 [] = some 0 ∧ (s.readyPlace (runOf 2 job2) k).1 = true ∧
      ((s.readyPlace (runOf 2 job2) k).2.drawWorking 0 0).1 = true ∧ (s.dealRank (runOf 2 job2) k).1 = true :=
  ⟨rfl, by decide, by decide, by decide, (runOf 2 job2).dealOrder.headD default, by decide +kernel, by decide +kernel, by decide +kernel, by decide +kernel, by decide +kernel⟩

/-- A stopped job. -/
def jobStopped : Job := { job2 with stopped := true }

theorem wit_PositionsDealtAndRun_none : ((running 2 jobStopped []).quiet ∧ (running 2 jobStopped []).run 0 = some (runOf 2 jobStopped) ∧ jobStopped.stopped = true) ∧
    (let s : State := { running 2 job2 [] with mem := {} }
     ∀ k ∈ (runOf 2 job2).dealOrder, (s.dealRank (runOf 2 job2) k).1 = false) :=
  ⟨⟨by decide, rfl, rfl⟩, by decide +kernel⟩

theorem wit_PositionsDealtAndRun_advance : (∃ j : Job, 0 + 1 < j.q) ∧ ∃ j : Job, 0 + 1 = j.q :=
  ⟨⟨{ job2 with manifest := overlay man1 16 [2] }, by decide +kernel⟩, ⟨job2, by decide +kernel⟩⟩

/-- A working buffer for a use. -/
def bufFor (r : BufRef) : Buf := { id := 0, ref := r, use := .working, tier := 0, parts := [], bytes := 0, owners := [], payers := [] }

/-- A record body: one field of one token, 5. -/
def body1 : Bytes := [4, 0, 0, 0, 5, 0, 0, 0]

/-- The page of map unit 0: a shard's header, the entry of record 0, the entry of block 0 and block 0. -/
def shard1 : Bytes := overlay (overlay (overlay (overlay (zeros 16384) 24 (leBytes 8 4128 ++ zeros 24 ++ leBytes 8 8)) 4096 (zeros 8 ++ leBytes 4 8 ++ leBytes 4 (crc32c body1)))
  4128 (leBytes 8 8192 ++ leBytes 4 24 ++ leBytes 4 (crc32c body1))) 8192 ([1, 0, 0, 0] ++ leBytes 4 8 ++ leBytes 4 8 ++ leBytes 4 (crc32c body1) ++ body1)

/-- The running device with that page, its context's buffer drawn. -/
def fetching : State := let s := running 2 job2 [ctx3 .waitFlash]
  { s with mem := { s.mem with bufs := [bufFor (.context 3)] }
           media := { s.media with pages := [{ page0 with data := shard1, prog := .whole }], map := [(0, 0, page0.loc)] } }

theorem wit_PositionsDealtAndRun_fetch : fetching.ctx 3 = some (ctx3 .waitFlash) ∧ fetching.run 0 = some (runOf 2 job2) ∧ (ctx3 .waitFlash).st = .waitFlash ∧
    fetching.media.mounted = true ∧ fetching.hasRef (.context 3) = true ∧
    (readRecord fetching.media (job2.slbaOf 0) (0 % 2 ^ 24) = .ok body1 (crc32c body1) false) ∧
    (stageFetch (runOf 2 job2) (ctx3 .waitFlash) (.ok body1 (crc32c body1) false)).isLeft = true :=
  ⟨by rfl, by rfl, by rfl, by rfl, by rfl, by decide +kernel, by decide +kernel⟩

theorem wit_PositionsDealtAndRun_drop : (let s := running 2 job2 [ctx3 .waitFlash]
    s.ctx 3 = some (ctx3 .waitFlash) ∧ s.run 0 = some (runOf 2 job2) ∧ s.media.mounted = true) ∧
    (stageFetch (runOf 2 job2) (ctx3 .waitFlash) (readRecord (running 2 job2 []).media (job2.slbaOf 0) (0 % 2 ^ 24))).isRight = true :=
  ⟨⟨by rfl, by rfl, by rfl⟩, by decide +kernel⟩

theorem wit_PositionsDealtAndRun_unit : let s := running 2 job2 [ctx3 .waitUnit]
    s.ctx 3 = some (ctx3 .waitUnit) ∧ s.run 0 = some (runOf 2 job2) ∧ (ctx3 .waitUnit).st = .waitUnit ∧ (ctx3 .waitUnit).askedTag = none ∧
    (ctx3 .waitUnit).peerOf = none ∧ ((stageUnit s (runOf 2 job2) (ctx3 .waitUnit) (rcpStage img1 0)).2.isLeft = true) :=
  ⟨by rfl, by rfl, by rfl, by rfl, by rfl, by decide +kernel⟩


theorem wit_CapCrabAndRelease : (let c : Context := { ctx3 .run with capStage := some 0 }
      (running 2 job2 [c]).ctx 3 = some c ∧ (running 2 job2 [c]).run 0 = some (runOf 2 job2) ∧ c.capStage.isSome = true ∧ c.st ≠ .sent ∧ c.crab = false ∧ c.capStage ≠ none) ∧
    (let c := ctx3 .run
     (running 2 job2 [c]).quiet ∧ (running 2 job2 [c]).ctx 3 = some c ∧ (running 2 job2 [c]).run 0 = some (runOf 2 job2) ∧ c.capStage = none ∧ c.crab = false ∧
     ({ job2 with crabs := [(0, 0)] } : Job).crabs.contains (c.epoch, c.pos) = true ∧
     (running 2 job2 [{ c with crab := true }]).ctx 3 = some { c with crab := true }) ∧
    (let c : Context := { ctx3 .release with out := some (.toks [5]) }
     (running 3 job2 [c]).ctx 3 = some c ∧ (running 3 job2 [c]).run 0 = some (runOf 3 job2) ∧ c.st = .release ∧ c.remote = none ∧ c.peerOf = none ∧
     (running 3 job2 [c]).hasCredit (runOf 3 job2) c = true ∧ (running 3 job2 [c]).doubted c = [] ∧
     (running 3 job2 [c, { ctx3 .sent with num := 4 }]).hasCredit (runOf 3 job2) c = false ∧
     (running 3 job2 [c, { ctx3 .sent with num := 4 }]).ctx 3 = some c) ∧
    (let c : Context := { ctx3 .release with out := some (.toks [5]), remote := some (2, 9) }
     (running 3 job2 [c]).ctx 3 = some c ∧ c.out = some (.toks [5])) ∧
    (let c : Context := { ctx3 .release with out := some (.toks [5]), peerOf := some 4 }
     (running 3 job2 [c]).ctx 3 = some c ∧ (running 3 job2 [c]).hasCredit (runOf 3 job2) c = true) ∧
    (let c : Context := { ctx3 .release with out := some (.toks [5]) }
     let s : State := { running 3 job2 [c] with faults := { (running 3 job2 [c]).faults with probation := [.engine 0] } }
     s.ctx 3 = some c ∧ s.hasCredit (runOf 3 job2) c = true ∧ s.doubted c ≠ []) :=
  ⟨⟨by rfl, by rfl, by decide, by decide, by decide, by decide⟩, ⟨by rfl, by rfl, by rfl, by decide, by decide, by decide, by rfl⟩,
    ⟨by rfl, by rfl, by decide, by decide, by decide, by decide +kernel, by decide +kernel, by decide +kernel, by rfl⟩, ⟨by rfl, by rfl⟩,
    ⟨by rfl, by decide +kernel⟩, ⟨by rfl, by decide +kernel, by decide +kernel⟩⟩

/-- A job with context 3 released. -/
def jobRel : Job := { job2 with releases := [3] }

theorem wit_CollectorAccepts_release : (running 3 jobRel [ctx3 .sent]).run 0 = some (runOf 3 jobRel) ∧
    (running 3 jobRel [ctx3 .sent]).nextRelease jobRel = some (ctx3 .sent) ∧
    (running 3 job2 []).run 0 = some (runOf 3 job2) ∧ (running 3 job2 []).nextRelease job2 = none :=
  ⟨by rfl, by decide +kernel, by rfl, by decide +kernel⟩

/-- A job whose first heat holds its one item, of 16 tokens. -/
def jobHeat : Job := { job2 with heats := [{ rank := 0, epoch := 0, heat := 0, items := [(0, {}, List.replicate 16 5)] }] }

theorem wit_CollectorAccepts_heat : ∃ x k, (running 3 jobHeat []).run 0 = some (runOf 3 jobHeat) ∧ (jobHeat.heats.find? fun y => y.rank == 0) = some x ∧
    jobHeat.rank 0 = some k ∧ x.epoch = 0 ∧ x.heat = 0 ∧ x.items.length = jobHeat.heatLen 0 ∧ (∀ w ∈ x.rewrites, w.awaited = false) ∧
    (packCounts (stRowlen (rcpPack img1)) (stSplit (rcpPack img1)) (x.items.map fun y => (y.1, y.2.2.length))).length = 1 :=
  ⟨_, _, by rfl, by rfl, by rfl, by rfl, by rfl, by decide +kernel, by decide, by decide +kernel⟩

/-- A Timed job of one rank with batch 0 open and granted, its one row packed or not. -/
def jobTimed (rows : List (Nat × Bytes)) : Job := { job2 with
  ranks := job2.ranks.map fun k => { k with heats := [(0, 0, 1)] }, block := overlay job2.block 1 [2], batches := [{ rank := 0, k := 0, rows := rows }] }

theorem wit_CollectorAccepts_deadline : ∀ rows ∈ [[], [(0, [1])]], ∃ k, (running 3 (jobTimed rows) []).run 0 = some (runOf 3 (jobTimed rows)) ∧
    (jobTimed rows).rank 0 = some k ∧ (jobTimed rows).mode = 2 ∧ k.next ≤ 0 ∧ 0 < k.granted ∧ 0 < (runOf 3 (jobTimed rows)).batchCount k ∧
    (jobTimed rows).batch 0 0 = some { rank := 0, k := 0, rows := rows } ∧ ({ rank := 0, k := 0, rows := rows } : Batch).desc = none ∧
    ∀ i ∈ (List.range (jobTimed rows).b).filter (fun i => !rows.any fun y => y.1 == i), (runOf 3 (jobTimed rows)).rowMadeAgain k 0 i = false := by
  intro rows h
  obtain rfl | rfl : rows = [] ∨ rows = [(0, [1])] := by simpa using h
  all_goals exact ⟨_, by rfl, by rfl, by decide +kernel, by decide, by decide, by decide +kernel, by rfl, by rfl, by decide +kernel⟩

theorem wit_CollectorAccepts_other : job2.mode ≠ 2 ∧ (running 3 job2 []).quiet ∧ (running 3 job2 []).run 0 = some (runOf 3 job2) :=
  ⟨by decide +kernel, by rfl, by rfl⟩

/-- A job whose rank has batch 0 closed. -/
def jobSend (t : TxState) : Job := { job2 with ranks := job2.ranks.map fun k => { k with target := overlay (zeros 32) 0 [0, 1] }, batches := [{ rank := 0, k := 0, desc := some (zeros 128), tx := t }] }

theorem wit_BatchesDelivered : ∃ k b, (running 3 (jobSend .idle) []).run 0 = some (runOf 3 (jobSend .idle)) ∧
    (jobSend .idle).rank 0 = some k ∧ (runOf 3 (jobSend .idle)).nextSend k = some b ∧ tgtCxl k.target = true ∧ tgtImm k.target = false ∧
    (running 2 (jobSend .idle) []).quiet ∧ (running 2 (jobSend .idle) []).run 0 = some (runOf 2 (jobSend .idle)) ∧ (runOf 2 (jobSend .idle)).crew.state ≠ 3 ∧
    (running 3 (jobSend .sending) []).run 0 = some (runOf 3 (jobSend .sending)) ∧ (jobSend .sending).rank 0 = some k ∧
    ((jobSend .sending).batches.find? fun b => b.rank == 0 && b.tx == .sending).isSome = true ∧ (running 3 (jobSend .sending) []).host.flit ≠ 0 :=
  ⟨_, _, by rfl, by rfl, by rfl, by decide, by decide, by rfl, by rfl, by decide, by rfl, by rfl, by decide, by decide⟩

/-- The frame fields of a queue pair's packets, on port 24. -/
def frame0 : RoceFrame := { port := 24, dmac := zeros 6, vid := 0, prio := 0, v6 := false, src := zeros 16, dst := zeros 16, dscp := 0, rqpn := 6 }

/-- A frame that carries PSN n of pair 5. -/
def psnFrame (n : Nat) : Frame := { len := 100, crew := some 0, prio := 0, body := .out (.rdma 5 n .writeOnly 0 0 [] none frame0) }

/-- Pair 5 with PSNs 16777215 and 0 in flight, RETRY and RNRRETRY as given. -/
def rpair (retry rnr : Nat) : RocePair := { lqpn := 5, ctx := overlay (zeros 64) 19 [byteOf (retry + rnr * 8)], psn := 1, expect := 0, acked := 16777215,
                                            flight := [psnFrame 16777215, psnFrame 0] }

theorem wit_BatchesDelivered_rdma : (let s : State := { up with roce := [rpair 1 1] }
      s.rp 5 = some (rpair 1 1) ∧ (rpair 1 1).err = false ∧ (rpair 1 1).responder = false ∧ (rpair 1 1).flight ≠ [] ∧
      ((rpair 1 1).flight.findIdx? fun f => match f.body with | .out (.rdma _ m _ _ _ _ _ _) => m == 0 | _ => false) = some 1) ∧
    (rpair 1 1).retries < (rpair 1 1).retryMax ∧ (rpair 0 0).retryMax ≤ (rpair 0 0).retries ∧ (rpair 1 7).rnrMax = 7 ∧ (rpair 1 1).rnrRetries < (rpair 1 1).rnrMax ∧
    (rpair 0 0).rnrMax ≠ 7 ∧ (rpair 0 0).rnrMax ≤ (rpair 0 0).rnrRetries := by decide

/-- A job whose rank's target is pair 5. -/
def jobRdma : Job := { job2 with ranks := job2.ranks.map fun k => { k with target := overlay (zeros 32) 0 [0, 0, 0, 0, 5] }, batches := [{ rank := 0, k := 0, desc := some (zeros 128) }] }

theorem wit_BatchesDelivered_queue : ∃ k b, (let s : State := { running 3 jobRdma [] with roce := [rpair 1 1] }
    s.run 0 = some (runOf 3 jobRdma) ∧ jobRdma.rank 0 = some k ∧ (runOf 3 jobRdma).nextSend k = some b ∧ tgtCxl k.target = false ∧
    s.rp (tgtLqpn k.target) = some (rpair 1 1)) := ⟨_, _, by rfl, by rfl, by rfl, by decide, by decide⟩

/-- Array 2 of one shard at block 2: its granule, at block 3, is of zeros where nothing is mapped. -/
def arr2 : Dataset := { dset := 2, kind := 3, manifest := man3, mhash := [], gen := 0, place := [(0, 2)] }

/-- The flash with that shard and its resident copy begun. -/
def granules (l : List Page) : State :=
  let s : State := flash
  { s with catalogue := [arr2], residents := [{ dset := 2, shard := 0, granules := [] }], media := { s.media with pages := l, map := [(0, 1, page0.loc)] } }

/-- A job whose rank has a batch 0 with one row. -/
def jobRow (t : TxState) : Job := { job2 with batches := [{ rank := 0, k := 0, tx := t, rows := [(0, [1])], hdrs := [{ sid := 7 }] }] }

theorem wit_ParityAndCopies : (running 2 job2 [ctx3 .waitFlash]).ctx 3 = some (ctx3 .waitFlash) ∧ (ctx3 .waitFlash).st ≠ .run ∧
    (running 2 job2 [ctx3 .run]).quiet ∧ (running 2 job2 [ctx3 .run]).ctx 3 = some (ctx3 .run) ∧
    (running 3 (jobRow .idle) []).run 0 = some (runOf 3 (jobRow .idle)) ∧ ((jobRow .idle).batch 0 0).isSome = true ∧ ((jobRow .sending).batch 0 0).isSome = true ∧
    (running 3 (jobRow .sending) []).run 0 = some (runOf 3 (jobRow .sending)) ∧
    (running 3 jobHeat []).run 0 = some (runOf 3 jobHeat) ∧ (jobHeat.heat 0 0 0).isSome = true :=
  ⟨by rfl, by decide, by rfl, by rfl, by rfl, by rfl, by rfl, by rfl, by rfl, by rfl⟩

theorem wit_ParityAndCopies_vocabulary : (let s : State := { running 2 job2 [ctx3 .run] with vocabs := [{ num := 1, image := [], hash := [] }] }
      s.ctx 3 = some (ctx3 .run) ∧ ∃ x ∈ s.vocabs, x.num = 1) ∧
    (let t : Stream := { sink := 0, num := 3, prompt := 0, seq := 0 }
     let s : State := { up with streams := [t] }
     s.stream 0 3 = some t) := ⟨⟨by rfl, _, List.mem_cons_self .., rfl⟩, by rfl⟩

/-- The page that holds the granule's CRC. -/
def crcPage : Page := { page0 with lmu := 1, data := [0x89, 0x41, 0xF9, 0x98], prog := .whole }

theorem granules_data (l : List Page) : (granules l).media.shard 2 4096 4096 = some (zeros 4096) := by
  have h : (granules l).media.shard 2 4096 4096 = some (slice (zeros 16384 ++ []) 12288 4096) := by rfl
  rw [h, List.append_nil]; unfold slice zeros
  rw [List.drop_replicate, List.take_replicate]; rfl

theorem zeros_add (a b : Nat) : zeros (a + b) = zeros a ++ zeros b := by unfold zeros; exact List.replicate_add ..

theorem crc_block (n x y : Nat) (b : Nat) (h : (zeros n).foldl (crcByte 0x82F63B78) x = y) :
   (zeros (n + b)).foldl (crcByte 0x82F63B78) x = (zeros b).foldl (crcByte 0x82F63B78) y := by
  rw [zeros_add, List.foldl_append, h]

theorem crc_final (n : Nat) (l : Bytes) (h : l.foldl (crcByte 0x82F63B78) 0xFFFFFFFF = n) : crc32c l = n ^^^ 0xFFFFFFFF := by
  unfold crc32c; rw [h]

set_option maxRecDepth 20000 in
theorem crc_blocks : (zeros 1024).foldl (crcByte 0x82F63B78) 0xFFFFFFFF = 0x11512183 ∧ (zeros 1024).foldl (crcByte 0x82F63B78) 0x11512183 = 0x5B767CB0 ∧
    (zeros 1024).foldl (crcByte 0x82F63B78) 0x5B767CB0 = 0xDF52BE5C ∧ (zeros 1024).foldl (crcByte 0x82F63B78) 0xDF52BE5C = 0x6706BE76 := by decide +kernel

theorem crc_zeros : crc32c (zeros (1024 + (1024 + (1024 + 1024)))) = 0x6706BE76 ^^^ 0xFFFFFFFF :=
  crc_final _ _ ((crc_block _ _ _ _ crc_blocks.1).trans ((crc_block _ _ _ _ crc_blocks.2.1).trans ((crc_block _ _ _ _ crc_blocks.2.2.1).trans crc_blocks.2.2.2)))
theorem crc_zeros4096 : crc32c (zeros 4096) = 0x98F94189 := crc_zeros

theorem granules_good (l : List Page) (c : Bytes) (h : (granules l).media.shard 2 8192 4 = some c) :
    (granules l).granuleGood arr2 0 0 = (0x98F94189 == leNat c) := by
  have h0 : arrayGranules arr2.manifest 0 = 1 := by decide +kernel
  have hp : (arr2.place.getD 0 (0, 0)).2 = 2 := rfl
  unfold State.granuleGood readGranule
  rw [h0, hp]
  simp only [Nat.reduceAdd, Nat.reduceMul, Nat.mul_zero, Nat.add_zero, granules_data, h, crc_zeros4096]
  cases (0x98F94189 == leNat c) <;> rfl

theorem wit_ParityAndCopies_granule : (granules [crcPage]).granuleGood arr2 0 0 = true ∧ (granules []).granuleGood arr2 0 0 = false :=
  ⟨granules_good _ [0x89, 0x41, 0xF9, 0x98] (by decide +kernel), granules_good _ (zeros 4) (by
    have h : (granules []).media.shard 2 8192 4 = some (slice (zeros 16384 ++ []) 0 4) := by rfl
    rw [h, List.append_nil]; unfold slice zeros; rw [List.drop_replicate, List.take_replicate]; rfl)⟩

theorem wit_ParityAndCopies_copy : (granules [crcPage]).quiet ∧ (granules [crcPage]).dataset 2 = some arr2 ∧ (granules [crcPage]).media.mounted = true ∧
    0 < arrayGranules man3 0 ∧ (granules [crcPage]).residents = [{ dset := 2, shard := 0, granules := [] }] ∧ (granules []).quiet ∧
    (granules []).dataset 2 = some arr2 :=
  ⟨by rfl, by rfl, by rfl, by decide +kernel, by rfl, by rfl, by rfl⟩

/-- A granule of the array held resident, and a context that reads it. -/
def held (l : List Page) : State := { granules l with residents := [{ dset := 2, shard := 0, granules := [0] }], contexts := [ctx3 .run] }

theorem wit_ParityAndCopies_resident : (∀ l, (held l).ctx 3 = some (ctx3 .run) ∧ (held l).dataset 2 = some arr2 ∧
      ∃ x ∈ (held l).residents, x.dset = 2 ∧ x.shard = 0 ∧ 0 ∈ x.granules) ∧
    (held [crcPage]).granuleGood arr2 0 0 = true ∧ (held []).granuleGood arr2 0 0 = false :=
  ⟨fun _ => ⟨by rfl, by rfl, _, List.mem_cons_self .., rfl, rfl, List.mem_cons_self ..⟩, wit_ParityAndCopies_granule⟩

theorem wit_ParityAndCopies_line : (63 : Nat) < 64 ∧ (7 : Nat) < 8 := by decide

/-! ### Ports -/

/-- A state with one port, p, in a mode. -/
def portState (s : State) (mode : Nat) (p : Port) : State :=
  { s with ports := [p], dict := { s.dict with values := [((0x4000, p.n + 1), .num mode), ((0x41C0 + p.n, 4), .bytes (1 :: zeros 15))] } }

/-- Port 35 in a state. -/
def port35 (st : Nat) : Port := { n := 35, state := st }

theorem wit_PortTrainingAndLanes : (∀ shaken ∈ [true, false], let p : Port := { port35 1 with shaken := shaken }
      let s := portState (starting (.step 10)) 1 p
      s.quiet ∧ s.port 35 = some p ∧ p.state = 1 ∧ s.portMode 35 ≠ 0 ∧ s.portMode 35 ≠ 2 ∧ s.started = false ∧ p.link.resend = 0 ∧ p.shaken = shaken ∧
      widthOf (s.portMode 35) (s.num 0x4001 36) (15 % 16 &&& 15 % 16) = some (4, 15) ∧ widthOf (s.portMode 35) (s.num 0x4001 36) (15 % 16 &&& 8 % 16) = some (1, 8) ∧
      widthOf (s.portMode 35) (s.num 0x4001 36) (0 % 16 &&& 8 % 16) = none) ∧
    (let s := portState up 2 (port35 1)
     s.port 35 = some (port35 1) ∧ s.portMode 35 = 2 ∧ widthOf (s.portMode 35) (s.num 0x4001 36) (15 % 16 &&& 15 % 16) = some (4, 15)) ∧
    (portState up 1 (port35 2)).quiet ∧ (portState up 1 (port35 2)).port 35 = some (port35 2) ∧ (port35 2).state ≠ 1 ∧
    (portState up 1 (port35 3)).port 35 = some (port35 3) ∧ (port35 3).state = 3 := by decide

/-- A flit of version 1, of a type in a channel, with its sequence number. -/
def flitOf (type vc seq : Nat) (pay : Bytes) : Bytes := flit 1 type vc seq 0 0 0 pay.length true true pay

/-- Port 0 up, with a link of version 1. -/
def port0 (k : Link) : Port := { n := 0, state := 2, width := 4, lanes := 15, link := k }

/-- A handshake flit of version 1 from port 9 of device 7, with the range of versions it speaks. -/
def handOf (low high : Byte) : Bytes := flit 1 4 0 0 0 0 0 16 true true ([low, high, 7, 0, 9, 0, 0, 0] ++ [64, 0, 0, 4, 0, 6, 64, 0])

theorem wit_LinkFlits : (let p := port0 { ver := 1, expect := 65535 }
      let s := (portState up 1 p).fecCorrects 0 0
      s.port 0 = some p ∧ s.portUp 0 1 = true ∧ flitGood p (flitOf 1 3 65535 [5]) = true ∧ flitType (flitOf 1 3 65535 [5]) = 1 ∧
      flitSeq (flitOf 1 3 65535 [5]) = p.link.expect ∧ (p.link.rx.getD (flitVc (flitOf 1 3 65535 [5])) []).length < rxSizes.getD (flitVc (flitOf 1 3 65535 [5])) 0 ∧
      flitGood p (flitOf 1 3 0 [5]) = true ∧ flitType (flitOf 1 3 0 [5]) = 1 ∧ flitSeq (flitOf 1 3 0 [5]) ≠ p.link.expect ∧
      flitGood p (zeros 256) = false ∧ flitGood p (flitOf 2 0 0 []) = true ∧ flitType (flitOf 2 0 0 []) = 2 ∧ flitGood p (flitOf 3 0 0 []) = true ∧
      flitType (flitOf 3 0 0 []) = 3) ∧
    (let p := port0 { ver := 1, rx := [List.replicate 64 [], [], [], []] }
     let s := portState up 1 p
     (s.fecCorrects 0 0).port 0 = some p ∧ flitGood p (flitOf 1 0 0 [5]) = true ∧ flitSeq (flitOf 1 0 0 [5]) = p.link.expect ∧
     rxSizes.getD (flitVc (flitOf 1 0 0 [5])) 0 ≤ (p.link.rx.getD (flitVc (flitOf 1 0 0 [5])) []).length) ∧
    (let p := port0 { ver := 1, naking := true, owed := [0, 0, 0, 300] }
     let s := portState up 1 p
     s.quiet ∧ s.port 0 = some p ∧ s.portUp 0 1 = true ∧ p.link.naking = true ∧ p.link.owed.getD 3 0 ≠ 0) ∧
    (∀ last ∈ [none, some (7, 9), some (7, 8)], let p : Port := { n := 0, state := 1, lastPeer := last }
     let s := (portState up 1 p).fecCorrects 0 0
     s.port 0 = some p ∧ p.state = 1 ∧ s.portMode 0 = 1 ∧ flitCrcOk (handOf 1 1) = true ∧ flitVer (handOf 1 1) = 1 ∧ flitType (handOf 1 1) = 4 ∧
     1 ≤ field ((handOf 1 1).drop 12) 1 1 ∧ field ((handOf 1 1).drop 12) 0 1 ≤ 1 ∧ field ((handOf 1 1).drop 12) 2 2 % 4096 = 7 ∧
     field ((handOf 1 1).drop 12) 4 1 = 9) ∧
    (flitCrcOk (handOf 2 3) = true ∧ flitVer (handOf 2 3) = 1 ∧ flitType (handOf 2 3) = 4 ∧ 1 < field ((handOf 2 3).drop 12) 0 1) := by decide +kernel

/-- A port with one frame queued. -/
def portWith (body : Payload) : Port :=
  { n := 0, state := 2, width := 4, lanes := 15, link := { ver := 1, credits := [64, 64, 64, 64] }, queues := [{ frames := [{ len := 64, crew := none, prio := 0, body := body }] }] }

/-- A whole packet of one flit in channel 0. -/
def portPacket : Port := port0 { ver := 1, rx := [[flitOf 1 0 0 (zeros 24)], [], [], []] }

theorem wit_PacketsAndFrames_taken : let s := pooled (portState up 1 portPacket)
    s.port 0 = some portPacket ∧ wholePacket (portPacket.link.rx.getD 0 []) = some [flitOf 1 0 0 (zeros 24)] ∧ s.portUp 0 1 = true :=
  ⟨by rfl, by rfl, by rfl⟩

theorem wit_PacketsAndFrames_routed : (let p := packet 1 0 2 9 [4, 5] 0 [1]
      let s := portState up 1 (port0 {})
      pktVerOk p = true ∧ pktHopIdx p < pktHops p ∧ pktHopIdx p + 1 < pktHops p ∧ s.transitCut 0 (pktRoute p 2) = false) ∧
    (let p := packet 1 0 2 9 [4] 0 [1]
     let s : State := { portState up 1 (port0 {}) with domain := { up.domain with deviceId := 9 } }
     let u : State := { portState up 1 (port0 {}) with domain := { up.domain with deviceId := 8 } }
     pktVerOk p = true ∧ pktHopIdx p < pktHops p ∧ pktHops p ≤ pktHopIdx p + 1 ∧ pktDst p = s.selfId ∧ pktCrcOk p = true ∧ pktDst p ≠ u.selfId ∧
     isProbe p = false) := by decide +kernel

theorem wit_PacketsAndFrames : (let p := portWith (.out (.cnp 5 frame0))
      let s := portState up 2 p
      s.port 0 = some p ∧ s.portUp 0 2 = true ∧ (s.pickFrame p).2 = some (0, { len := 64, crew := none, prio := 0, body := .out (.cnp 5 frame0) })) ∧
    (let p := portWith (.packet (zeros 24))
     let s := portState up 1 p
     s.port 0 = some p ∧ s.portUp 0 1 = true ∧ (s.pickFrame p).2 = some (0, { len := 64, crew := none, prio := 0, body := .packet (zeros 24) })) ∧
    ((portState up 1 (port35 1)).quiet ∧ (portState up 1 (port35 1)).portUp 35 1 = false ∧ (portState up 1 (port35 1)).portUp 35 2 = false) := by decide +kernel

/-- A RoCE context of queue pair 5 on port 0, a requester or a responder. -/
def rctx (responder : Bool) : Bytes :=
  overlay (overlay (overlay (zeros 64) 0 [1, if responder then 0x40 else 0]) 4 [5]) 20 [1, 0, 0, 0x30]

/-- A responder, queue pair 5 on port 0, that expects the last PSN. -/
def responder5 : RocePair := { lqpn := 5, ctx := rctx true, psn := 0, expect := 16777215, acked := 0 }

/-- A packet for it. -/
def sendOf (opcode psn : Nat) (ok : Bool) : RocePacket :=
  { port := 0, lqpn := 5, psn := psn, opcode := opcode, payload := [], frameLen := 80, tags := 1, icrcOk := ok }

theorem wit_RoceQueuePairs : (let c : Cmd := { cmdOf [(0, [0x04]), (20, [0x50])] with parts := [(0, rctx true)] }
      let s := portState (cmdIn up c) 2 (port0 {})
      s.readyCmd 1 7 0x04 (some 0x50) = some c ∧ c.short 64 = false ∧ s.rocePairBad (c.data.take 64) = none ∧ s.rp (field (c.data.take 64) 4 3) = none ∧
      s.roce.length < 4096) ∧
    (let c : Cmd := { cmdOf [(0, [0x04]), (20, [0x51])] with parts := [(0, [5, 0, 0])] }
     let s : State := { cmdIn up c with roce := [rpair 1 1] }
     s.quiet ∧ s.readyCmd 1 7 0x04 (some 0x51) = some c ∧ c.short 3 = false ∧ s.rp (field c.data 0 3) = some (rpair 1 1) ∧ s.rocePairUser (rpair 1 1) = none ∧
     (rpair 1 1).responder = false ∧ (rpair 1 1).cnpIgnored 0 = false ∧ ({ rpair 1 1 with cnpAt := some 5 } : RocePair).cnpIgnored 24 = true) ∧
    (let s : State := { portState up 2 (port0 {}) with roce := [responder5] }
     s.quiet ∧ s.rp 5 = some responder5 ∧ responder5.responder = true ∧ s.cnpDue responder5 0 = true ∧ s.portUp 0 2 = true ∧ responder5.port = 0 ∧
     roceGood (sendOf 4 16777215 true) = true ∧ (sendOf 4 16777215 true).psn = responder5.expect ∧ (sendOf 4 0 true).psn ≠ responder5.expect ∧
     roceGood (sendOf 0 0 false) = false ∧ s.ownAddress 0 (1 :: zeros 15) = true) := by decide +kernel

theorem wit_RoceQueuePairs_responder : (3 < (sendOf 4 0 true).opcode) ∧
    (let p : RocePair := { responder5 with ctx := overlay (rctx true) 48 [1] }
     let s : State := { portState up 2 (port0 {}) with roce := [p] }
     (sendOf 3 0 true).opcode ≤ 3 ∧ (s.filledPol p).polRate ≠ 0 ∧ (s.filledPol p).bucket < (((sendOf 3 0 true).frameLen * 32768 : Nat) : Int)) ∧
    (let s : State := { portState up 2 (port0 {}) with roce := [responder5] }
     (s.filledPol responder5).polRate = 0 ∧ s.ingressBytes (s.filledPol responder5).port < 16777216 ∧ (sendOf 1 0 true).opcode ≠ 0 ∧ (sendOf 1 0 true).opcode ≠ 3 ∧
     (sendOf 3 0 true).opcode = 3) := by decide +kernel

/-- A message of n bytes waits at port 0. -/
def waiting (n : Nat) : State := { up with ingress := [(0, List.replicate n 0)] }

theorem wit_RoceQueuePairs_full (n : Nat) : (waiting n).ingressBytes 0 = n ∧ ((waiting n).filledPol responder5).polRate = 0 :=
  ⟨by simp [State.ingressBytes, waiting], by rfl⟩

/-! ### Rollouts -/

/-- The device with the rollout licence, a crew in LOADED and vocabulary 16. -/
def licensed : State := let s : State := withCrews [crewAt 1]
  { s with startup := { s.startup with licences := [overlay (zeros 128) 5 [2]], licenceValid := 1 }, vocabs := [{ num := 16, image := [], hash := [] }] }

/-- The open of sink 63 for dataset 9, at block 0, ring of 64 entries. -/
def sinkHead : Bytes := overlay (overlay (overlay (zeros 1152) 0 [1, 63, 0, 0, 9, 0, 16]) 40 (leBytes 8 322)) 56 [64]

/-- The command of a sink. -/
def sinkCmd (fid v : Nat) (data : Bytes) : Cmd := { cmdOf [(0, [0x04]), (16, leBytes 4 data.length), (20, [byteOf fid, 0, 0, 0, byteOf v])] with parts := [(0, data)] }

/-- Sink 63, open. -/
def sink63 : Sink := { num := 63, image := sinkHead, shard := 0, base := 0 }

theorem wit_SinksOpenFlushClose : (let c := sinkCmd 0x44 0 sinkHead
      let s := cmdIn licensed c
      s.quiet ∧ s.readyCmd 1 7 0x04 (some 0x44) = some c ∧ s.features / 2 % 2 = 1 ∧ c.short 1152 = false ∧ c.short (1152 + 8 * sinkPcount c.data) = false ∧
      s.crew (sinkCrew c.data) = some (crewAt 1) ∧ (crewAt 1).state ≠ 0 ∧ s.sinkBad c.data = none) ∧
    (let c := sinkCmd 0x44 0 []
     (cmdIn up c).quiet ∧ (cmdIn up c).readyCmd 1 7 0x04 (some 0x44) = some c ∧ (cmdIn up c).features / 2 % 2 = 0) ∧
    (∀ f ∈ [0x45, 0x46], let c := sinkCmd f 63 []
     let s : State := { cmdIn licensed c with sinks := [sink63] }
     s.readyCmd 1 7 0x04 (some f) = some c ∧ s.sink c.fval = some sink63 ∧ s.media.frozen = false ∧ (cmdIn licensed c).quiet ∧ (cmdIn licensed c).sink c.fval = none) := by
  decide +kernel

/-- A message of sink 63, stream 7, with FIRST or not and its SEQ, of no token. -/
def msgOf (first seq : Nat) : Bytes := [1, 63, byteOf first, 0, 7, 0, 0, 0] ++ zeros 8 ++ leBytes 4 seq ++ zeros 12

/-- Stream 7 of sink 63 at SEQ 4294967295. -/
def stream7 : Stream := { sink := 63, num := 7, prompt := 0, seq := 4294967295 }

/-- Sink 63 open with a message at the head of the ingress and streams. -/
def sunk (l : List Stream) (b : Bytes) : State := { licensed with sinks := [sink63], streams := l, ingress := [(0, b)] }

theorem wit_RolloutMessagesAndRecords : ((sunk [] (msgOf 1 0)).messageBad (msgOf 1 0) = none ∧ (sunk [] (msgOf 1 0)).sink (msgSink (msgOf 1 0)) = some sink63 ∧
      (sunk [] (msgOf 1 0)).stream 63 (msgStream (msgOf 1 0)) = none) ∧
    (∀ n ∈ [0, 9], let s := sunk [stream7] (msgOf 0 n)
     s.messageBad (msgOf 0 n) = none ∧ s.sink (msgSink (msgOf 0 n)) = some sink63 ∧ s.stream 63 (msgStream (msgOf 0 n)) = some stream7) ∧
    msgSeq (msgOf 0 0) = (stream7.seq + 1) % 4294967296 ∧ msgSeq (msgOf 0 9) ≠ (stream7.seq + 1) % 4294967296 ∧
    (sunk [] (msgOf 0 0)).messageBad (msgOf 0 0) = some 4 := by decide +kernel

theorem wit_RolloutMessagesAndRecords_turn : let s := sunk [] (msgOf 1 0)
    let t := 63 * 4294967296 + 7
    s.ingress ≠ [] ∧ t ∈ s.ingress.map (fun x => msgSink x.2 * 4294967296 + msgStream x.2) ∧
    (∀ x ∈ s.ingress, (s.textTurn ≤ t → s.textTurn ≤ msgSink x.2 * 4294967296 + msgStream x.2 → t ≤ msgSink x.2 * 4294967296 + msgStream x.2) ∧
      (t < s.textTurn → msgSink x.2 * 4294967296 + msgStream x.2 < s.textTurn ∧ t ≤ msgSink x.2 * 4294967296 + msgStream x.2)) ∧
    (s.ingress.find? fun x => msgSink x.2 * 4294967296 + msgStream x.2 == t) = some (0, msgOf 1 0) := by decide +kernel

/-- Sink 63 with its KEEP bits and FULL. -/
def sinkKeeps (keep : Byte) (full : Bool) : Sink := { sink63 with image := overlay sinkHead 3 [keep], full := full }

theorem wit_RolloutMessagesAndRecords_end : (∀ k ∈ [sinkKeeps 1 false, sinkKeeps 1 true, sinkKeeps 0 false, sinkKeeps 0 true], let t : Stream := { stream7 with ended := some 0 }
      let s : State := { sunk [t] [] with sinks := [k] }
      (s.streams.find? fun t => t.sink == 63 && t.num == 7 && t.ended.isSome && !t.kept) = some t ∧ s.sink 63 = some k ∧ sinkPcount k.image = 0) ∧
    sinkKeep (sinkKeeps 1 false).image / 2 ^ stream7.verdict % 2 = 1 ∧ sinkKeep (sinkKeeps 0 true).image / 2 ^ stream7.verdict % 2 = 0 ∧
    (let t : Stream := { stream7 with ended := some 0, kept := true }
     ((sunk [t] []).streams.find? fun t => t.sink == 63 && t.kept) = some t ∧ t.num = 7 ∧ (sunk [t] []).media.mounted = true ∧ (sunk [t] []).media.frozen = false) ∧
    (let k : Sink := { sink63 with unsignalled := true }
     let s : State := { licensed with sinks := [k] }
     s.quiet ∧ s.sink 63 = some k ∧ k.unsignalled = true ∧ s.host.sinkSignals = [] ∧ (sunk [] []).quiet ∧ (sunk [] []).sink 63 = some sink63 ∧ sink63.unsignalled = false) ∧
    (let s : State := { licensed with host := { licensed.host with sinkSignals := [(63, 5)] } }
     s.quiet ∧ s.sink 63 = none ∧ s.host.sinkSignals = [(63, 5)]) := by decide +kernel

/-! ### The job domain -/

/-- A worker of id n. -/
def memberOf (n : Nat) : Member := { id := n, serial := zeros 16, cause := 0, route := [], seq := 5 }

/-- The device in a role, with members and an inbox. -/
def inDomain (s : State) (role id : Nat) (l : List Member) (inbox : List Bytes) : State :=
  { s with domain := { s.domain with role := role, deviceId := id, members := l, selected := role == 1, inbox := inbox } }

/-- A packet of a type from device 2 that came by port 4, with a tag and a body. -/
def packetOf (ty tag : Nat) (body : Bytes) : Bytes := [4] ++ [1, byteOf ty, 0, 2] ++ zeros 12 ++ leBytes 4 tag ++ zeros 12 ++ body

theorem wit_DomainFormedAndDissolved : (let c := cmdOf [(0, [0x04]), (20, [0x23])]
      let s := inDomain (cmdIn up c) 1 0 [] []
      s.readyCmd 1 7 0x04 (some 0x23) = some c ∧ s.domain.selected = true ∧ (cmdIn up c).quiet ∧ (cmdIn up c).readyCmd 1 7 0x04 (some 0x23) = some c ∧
      (cmdIn up c).domain.selected = false) ∧
    (let c : Cmd := { cmdOf [(0, [0x04]), (20, [0x23])] with wait := .probes, done := 1 }
     let s := inDomain (cmdIn up c) 1 0 [] []
     s.cmd 1 7 = some c ∧ c.opc = 0x04 ∧ c.fid = 0x23 ∧ (s.found.filter fun a => a.2.1.length == c.done) = [] ∧
     (let u : State := { s with domain := { s.domain with answers := [(1 :: zeros 15, [4], 0)] } }
      c.done < 4 ∧ (u.found.filter fun a => a.2.1.length == c.done) ≠ [])) ∧
    (let c := cmdOf [(0, [0x04]), (20, [0x25])]
     let s := inDomain (cmdIn up c) 1 0 [memberOf 2] []
     s.readyCmd 1 7 0x04 (some 0x25) = some c ∧ s.domain.role = 1 ∧ s.lowestCrew (fun k => k.job.isSome && k.domainJob.isSome) = none ∧
     ({ s with crews := [{ crewJob 2 with domainJob := some 8 }] } : State).lowestCrew (fun k => k.job.isSome && k.domainJob.isSome) = some 0) ∧
    (let c := cmdOf [(0, [0x04]), (20, [0x24])]
     (cmdIn up c).quiet ∧ (cmdIn up c).readyCmd 1 7 0x04 (some 0x24) = some c ∧ (cmdIn up c).domain.role ≠ 1) := by decide +kernel

/-- The domain registration of the array of `reg3`. -/
def domReg : Cmd := { cmdOf [(0, [0x04]), (20, [0x24])] with parts := [(0, reg3)] }

set_option maxRecDepth 200000 in
theorem wit_DomainFormedAndDissolved_register : let s := inDomain (cmdIn flash3 domReg) 1 0 [] []
    s.readyCmd 1 7 0x04 (some 0x24) = some domReg ∧ s.domain.role = 1 ∧ s.media.stateCode ≠ 5 ∧ s.catalogue = [] ∧
    (let used := fun n => s.numberTaken n && !s.domain.lostShards.any fun x => x.1 == n
     structureFail (s.domainData domReg.data) used ((s.catalogue.filter fun d => used d.dset).flatMap Dataset.extents ++ s.registering domReg) (2 ^ 64 - 1) = none) ∧
    s.regStranger domReg.data = none ∧ registerFail s.media (s.domainData domReg.data) isLocal = none ∧ s.remoteFail domReg.data = none := by decide +kernel

/-- A status report of SEQ n. -/
def reportOf (n : Nat) : Bytes := let b := [1, 0, 0xFF, 7] ++ leBytes 4 n ++ zeros 52
  b ++ leBytes 4 (crc32c b)

/-- The manager with worker 2 and one packet, and the same with the packet taken. -/
def mgr (p : List Bytes) : State := inDomain up 1 0 [memberOf 2] p

theorem wit_ReportsAndWorkers : (inDomain up 2 3 [] []).domain.role = 2 ∧ up.quiet ∧ up.domain.role ≠ 2 ∧ (mgr []).domain.role = 1 ∧
    (let m : Member := { memberOf 2 with probation := true }
     let s := inDomain up 1 0 [m] []
     s.domain.role = 1 ∧ m ∈ s.workers ∧ m.probation = true) ∧
    (mgr [packetOf 4 0 (reportOf 5)]).quiet ∧ (mgr []).quiet := by decide +kernel

theorem wit_ReportsAndWorkers_report : ∀ n ∈ [5, 4], let p := packetOf 4 0 (reportOf n)
    ((mgr [p]).domain.inbox.find? fun q => pktType (q.drop 1) == 0x04) = some p ∧ (mgr [p]).takeInbox 0x04 = some (4, p.drop 1, mgr []) ∧ ((mgr []).workers.find? fun m => m.id == pktSrc (p.drop 1)) = some (memberOf 2) ∧
    reportOk (pktBody (p.drop 1)) = true ∧ field (pktBody (p.drop 1)) 4 4 = n ∧ field (pktBody (p.drop 1)) 28 4 = (memberOf 2).portChg ∧
    field (pktBody (p.drop 1)) 1 1 ≠ 2 ∧ (memberOf 2).seq = 5 := by decide +kernel

/-- A control packet. -/
def ctlOf (op job : Nat) (rest : Bytes) : Bytes := packetOf 5 0 ([byteOf op, byteOf job] ++ zeros 6 ++ rest)

/-- A worker of id 3 with one packet. -/
def wkr (p : List Bytes) : State := inDomain up 2 3 [memberOf 9] p

theorem wit_ControlAndProbePackets : (∀ p ∈ [ctlOf 1 0 [3, 0], ctlOf 1 0 [0xFF, 0x0F], ctlOf 2 4 (zeros 16), ctlOf 3 4 (zeros 20), ctlOf 4 4 [], ctlOf 5 0 [3, 0], ctlOf 6 0 [9, 0, 1], ctlOf 7 0 (1 :: zeros 7), ctlOf 8 0 []],
      ((wkr [p]).domain.inbox.find? fun q => pktType (q.drop 1) == 0x05) = some p ∧ (wkr [p]).takeInbox 0x05 = some (4, p.drop 1, wkr [])) ∧
    (wkr []).domain.role = 2 ∧ (wkr []).domain.role ≠ 1 ∧ (wkr []).domain.deviceId = 3 ∧
    field ((pktBody ((ctlOf 1 0 [3, 0]).drop 1)).drop 8) 0 2 = 3 ∧ field ((pktBody ((ctlOf 1 0 [0xFF, 0x0F]).drop 1)).drop 8) 0 2 = 0xFFF ∧
    (∀ n ∈ [1, 2, 3, 4, 5, 6, 7, 8], field (pktBody ((ctlOf n 4 (zeros 16)).drop 1)) 0 1 = n) ∧
    (let p := ctlOf 5 0 [2, 0]
     ((mgr [p]).domain.inbox.find? fun q => pktType (q.drop 1) == 0x05) = some p ∧ (mgr []).domain.role = 1 ∧ ∃ m ∈ (mgr []).workers, m.id = 2) := by decide +kernel

theorem wit_ControlAndProbePackets_probe : (let p := packetOf 6 0 (zeros 32)
      ((up.modDomain fun d => { d with inbox := [p] }).domain.inbox.find? fun q => pktType (q.drop 1) == 0x06) = some p ∧ (up.modDomain fun d => { d with inbox := [p] }).takeInbox 0x06 = some (4, p.drop 1, up) ∧ field (pktBody (p.drop 1)) 0 1 = 0) ∧
    (let c : Cmd := { cmdOf [(0, [0x04]), (20, [0x23])] with wait := .probes }
     let p := packetOf 6 0 (1 :: zeros 31)
     let w := inDomain (cmdIn up c) 1 0 [] []
     ((inDomain (cmdIn up c) 1 0 [] [p]).domain.inbox.find? fun q => pktType (q.drop 1) == 0x06) = some p ∧ (inDomain (cmdIn up c) 1 0 [] [p]).takeInbox 0x06 = some (4, p.drop 1, w) ∧ w.quiet ∧ field (pktBody (p.drop 1)) 0 1 = 1 ∧ w.domain.role = 1 ∧ c ∈ w.host.cmds ∧
     c.opc = 0x04 ∧ c.fid = 0x23 ∧ c.wait = .probes ∧ ¬(up.domain.role = 1)) := by decide +kernel

/-- The job over a shard of one record. -/
def jobDom : Job := { job2 with manifest := overlay man1 100 [1] }

/-- Crew 0 in domain job 8. -/
def crewDom : Crew := { crewRun 2 jobDom with domainJob := some 8 }

/-- The worker that runs job 8, with contexts and a packet. -/
def domRun (l : List Context) (p : List Bytes) : State := inDomain { running 2 job2 l with crews := [crewDom] } 2 3 [] p

/-- A prepare request for job 8. -/
def prep8 : Bytes := packetOf 1 7 (overlay (zeros 24) 6 [1, 0, 0, 0, 0, 0, 0, 8])

theorem wit_SamplesAndShardsOverTheDomain_prepare : ((domRun [] [prep8]).domain.inbox.find? fun q => pktType (q.drop 1) == 0x01) = some prep8 ∧ (domRun [] [prep8]).takeInbox 0x01 = some (4, prep8.drop 1, domRun [] []) ∧
    (domRun [] []).jobRun (field (pktBody (prep8.drop 1)) 13 1) = some ⟨crewDom, rcp1, jobDom⟩ ∧ (domRun [] []).pickContext 0 [] = some 0 ∧
    ((domRun [] []).drawWorking 0 0).1 = true ∧ sidValid jobDom.manifest (field (pktBody (prep8.drop 1)) 0 8) = true ∧ sidValid jobDom.manifest 0 = false :=
  ⟨by decide +kernel, by decide +kernel, by rfl, by decide +kernel, by decide +kernel, by decide +kernel, by decide +kernel⟩

/-- Every context of the crew's engines taken. -/
def fullDom (p : List Bytes) : State := inDomain { running 2 job2 [] with crews := [{ crewDom with eights := [] }] } 2 3 [] p

theorem wit_SamplesAndShardsOverTheDomain_full : ((fullDom [prep8]).domain.inbox.find? fun q => pktType (q.drop 1) == 0x01) = some prep8 ∧ (fullDom [prep8]).takeInbox 0x01 = some (4, prep8.drop 1, fullDom []) ∧
    (fullDom []).jobRun (field (pktBody (prep8.drop 1)) 13 1) = some ⟨{ crewDom with eights := [] }, rcp1, jobDom⟩ ∧ (fullDom []).pickContext 0 [] = none :=
  ⟨by rfl, by decide +kernel, by rfl, by rfl⟩

/-- The first 4 bytes of a prepared sample of total bytes, under tag 7. -/
def part7 (total : Nat) : Bytes := packetOf 2 7 (zeros 4 ++ leBytes 4 total ++ zeros 8 ++ [1, 2, 3, 4])

theorem wit_SamplesAndShardsOverTheDomain_sample : let c : Context := { ctx3 .waitUnit with askedTag := some 7 }
    ∀ n ∈ [4, 8], ((domRun [c] [part7 n]).domain.inbox.find? fun q => pktType (q.drop 1) == 0x02) = some (part7 n) ∧ (domRun [c] [part7 n]).takeInbox 0x02 = some (4, (part7 n).drop 1, domRun [c] []) ∧ (domRun [c] []).quiet ∧
      ((domRun [c] []).contexts.find? fun c => c.askedTag == some (pktTag ((part7 n).drop 1))) = some c ∧
      (domRun [c] []).forwarded 0 (pktSrc ((part7 n).drop 1)) < 16 ∧ (domRun [c] []).domain.partSamples = [] ∧
      (joinParts (field (pktBody ((part7 n).drop 1)) 4 4) [(0, [1, 2, 3, 4])]).isSome = (n == 4) := by decide +kernel

/-- Dataset 1, of one shard of 12,288 bytes, placed on another device. -/
def farSet : Dataset := { dset1 with manifest := man3, place := [(0, 2 ^ 62)] }

/-- A worker that waits for shard 0 of dataset 1, programmed at block 8 or not. -/
def copying (a : Option Nat) (p : List Bytes) : State :=
  let s := inDomain up 2 3 [] p
  { s with catalogue := [farSet], domain := { s.domain with copies := [{ dset := 1, shard := 0, src := 0, dst := 3, slba := a }] } }

/-- A part of that shard. -/
def part1 : Bytes := packetOf 3 0 ([1] ++ zeros 15 ++ [1, 2, 3])

theorem wit_SamplesAndShardsOverTheDomain_shard : ((copying none [part1]).domain.inbox.find? fun q => pktType (q.drop 1) == 0x03) = some part1 ∧ pktCoded (part1.drop 1) = false ∧ (copying none [part1]).takeInbox 0x03 = some (4, part1.drop 1, copying none []) ∧ (copying none []).quiet ∧
    field (pktBody (part1.drop 1)) 2 3 ≠ tableShard ∧ (copying none []).datasetOf (field (pktBody (part1.drop 1)) 0 2) = some farSet ∧
    (farSet.place.findIdx? fun q => q.1 == field (pktBody (part1.drop 1)) 2 3) = some 0 ∧ isLocal (farSet.place.getD 0 (0, 0)).2 = false ∧
    (let u := (copying none []).modDomain fun x => x.addPart 1 0 2 0 [1, 2, 3]
     joinParts (manSlen man3 0) (u.copyParts 1 0) = none ∧ pktSrc (part1.drop 1) = 2 ∧ field (pktBody (part1.drop 1)) 8 8 = 0) ∧
    (copying (some 8) []).quiet ∧ (copying (some 8) []).domain.role = 2 ∧
    ((copying (some 8) []).domain.copies.find? fun c => c.dset == 1 && c.shard == 0 && c.dst == (copying (some 8) []).domain.deviceId) =
      some { dset := 1, shard := 0, src := 0, dst := 3, slba := some 8 } :=
  ⟨by rfl, by rfl, by rfl, by rfl, by decide +kernel, by rfl, by rfl, by decide, by decide +kernel, by rfl, by rfl, by rfl⟩

theorem wit_SamplesAndShardsOverTheDomain_copied : ∃ c : Copy, c.slba = some 8 ∧ ∀ q ∈ c.seqs, (copying (some 8) []).media.under q = false :=
  ⟨{ dset := 1, shard := 0, src := 0, dst := 3, slba := some 8 }, rfl, by decide⟩

/-- Sixteen samples of the crew forwarded by device 2 and not yet taken. -/
def forwarding : State := domRun ((List.range 16).map fun i => { ctx3 .sent with num := 16 + i, via := some 2 }) []

theorem wit_SamplesAndShardsOverTheDomain_many : 16 ≤ forwarding.forwarded 0 2 := by decide +kernel

theorem wit_SamplesAndShardsOverTheDomain_open : let c : Cmd := { cmdOf [(0, [0x21])] with wait := .manager }
    let s : State := cmdIn { up with crews := [crewDom] } c
    s.quiet ∧ (s.host.cmds.find? fun c => c.opc == 0x21 && c.wait == .manager && c.crew == 0) = some c ∧ s.crew 0 = some crewDom ∧ crewDom.domainJob = some 8 ∧
    s.announced 8 = none := by decide +kernel

/-! ### Faults and the buffer pools -/

/-- A note of kind k of unit 0x2C2. -/
def noteOf (k : Nat) : FaultIn := { unit := 0x2C2, sub := 0, kind := k, phys := 0x2C2, crew := none, addr := 0, count := 1, ctx := none }

/-- Its message. -/
def noteMsg (k : Nat) : FaultMsg := up.incoming (noteOf k)

/-- A queue entry of it. -/
def noteEntry (k : Nat) : FaultEntry := { msg := noteMsg k, first := 0, last := 0, total := 1 }

theorem wit_RepeatedFaultsCoalesce : (let f : Faults := { queue := [noteEntry 0x30] ++ noteEntry 0x31 :: [noteEntry 0x30] }
      f.queue = [noteEntry 0x30] ++ noteEntry 0x31 :: [noteEntry 0x30] ∧ (∀ x ∈ [noteEntry 0x30], ¬(x.msg.unit = (noteMsg 0x31).unit ∧ x.msg.sub = (noteMsg 0x31).sub ∧
        x.msg.kind = (noteMsg 0x31).kind)) ∧ (noteEntry 0x31).msg.kind = (noteMsg 0x31).kind) ∧ up.coxUp = true := by decide

theorem wit_RepeatedFaultsCoalesce_full : ∃ (f : Faults) (a : List FaultEntry) (e : FaultEntry), f.queue = a ++ [e] ∧ a.length = 4095 ∧
    (false = false → ∀ x ∈ f.queue, ¬(x.msg.unit = (noteMsg 0x31).unit ∧ x.msg.sub = (noteMsg 0x31).sub ∧ x.msg.kind = (noteMsg 0x31).kind)) := by
  refine ⟨{ queue := List.replicate 4095 (noteEntry 0x30) ++ [noteEntry 0x30] }, _, _, rfl, List.length_replicate, fun _ x hx => ?_⟩
  have : x = noteEntry 0x30 := by
    rcases List.mem_append.1 hx with h | h
    · exact (List.mem_replicate.1 h).2
    · exact List.mem_singleton.1 h
  subst this; decide

/-- The window of a unit, kind and physical unit. -/
def isNote (k p : Nat) (m : FaultMsg) : Bool := m.unit == 0x2C2 && m.sub == 0 && m.kind == k && m.phys == p

/-- The device with a window open at 0x2C2, kind 0x30. -/
def window30 (n : Nat) : State := { up with faults := { up.faults with windows := [{ noteMsg 0x30 with count := n }] } }

theorem wit_FaultsScoredAndTimed : (up.quiet ∧ up.coxUp = true ∧ (up.incoming (noteOf 0x30)).sev < 2 ∧ scoreAfter (up.faults.score (noteMsg 0x30).ref) 0x30 1 < 512) ∧
    (let s : State := { up with faults := { up.faults with windows := [noteMsg 0x30] } }
     s.faults.windows = [noteMsg 0x30] ∧ (noteMsg 0x30).unit = 0x2C2 ∧ (noteMsg 0x30).sub = 0 ∧ (noteMsg 0x30).kind = 0x30 ∧ (noteMsg 0x30).phys = 0x2C2 ∧ (noteMsg 0x30).count ≠ 0) ∧
    (let s : State := { up with faults := { up.faults with queue := [noteEntry 0x30] } }
     s.quiet ∧ (∃ e ∈ s.faults.queue, e.signalled = false) ∧ ∀ e ∈ up.faults.queue, e.signalled = true) := by decide

theorem wit_FaultsSentOnceAMillisecond : (∀ m ∈ up.faults.windows, isNote 0x30 0x2C2 m = false) ∧ up.faults.windows.find? (isNote 0x30 0x2C2) = none ∧
    (∀ n ∈ [0, 1, 65535], ((window30 n).faults.windows.find? (isNote 0x30 0x2C2)).map (·.count) = some n ∧ (∀ m ∈ (window30 n).faults.windows, isNote 0x30 0 m = false)) := by decide

/-- Buffer 0 of owners l, and the device with it. -/
def buf0 (l : List Nat) : Buf := { bufFor (requestRef 0) with parts := [(0, 0)], bytes := 65536, owners := l, payers := l.map fun _ => .none }
def withBuf (l : List Nat) : State := { up with mem := { up.mem with pools := [{ tier := 1, n := 0, total := 1 }], bufs := [buf0 l], next := 1 } }

theorem wit_PoolsGiveAndTakeBuffers : ((pooled up).mem.pools ≠ [] ∧ (1 : Nat) ≠ 0 ∧
      ((pooled up).alloc .vocabulary (requestRef (pooled up).mem.next) 1 [ownerId (useClass .vocabulary) 0]).1 = true) ∧
    (let s : State := { up with mem := { up.mem with pools := [{ tier := 0, n := 0, total := 0 }] } }
     s.mem.pools ≠ [] ∧ 4 ≤ useClass .relocation ∧ (s.alloc .relocation (requestRef s.mem.next) 1 [ownerId (useClass .relocation) 0]).1 = false) ∧
    (((withBuf [5]).mem.bufs.find? fun b => b.id == 0) = some (buf0 [5]) ∧ 6 ∉ (buf0 [5]).owners ∧ 5 ∈ (buf0 [5]).owners) ∧
    (((withBuf [5, 6]).mem.bufs.find? fun b => b.id == 0) = some (buf0 [5, 6]) ∧ (buf0 [5, 6]).owners = [5, 6]) ∧
    ((withBuf [5]).quiet ∧ (buf0 [5]).owners = [5] ∧
      ((buf0 [5]).owners ≠ [] ∧ 24576 ∉ (buf0 [5]).owners ∧ (buf0 [5]).owners.length < 64 ∧ (withBuf [5]).affords ((withBuf [5]).payer (buf0 [5]).use 24576) (buf0 [5]).tier (buf0 [5]).bytes = true) ∧
      ¬((buf0 [5]).owners ≠ [] ∧ 5 ∉ (buf0 [5]).owners)) := by decide

theorem wit_PoolsGiveAndTakeBuffers_caches : (let p : Pool := { tier := 0, n := 0, total := 100, caches := [List.range 16, List.range 56, List.range 57, [], [], [], []] }
      p.caches.length = 7 ∧ p.kept.Nodup ∧ 16 ≤ (p.caches.getD 0 []).length ∧ (p.caches.getD 1 []).length ≤ 56 ∧ 56 < (p.caches.getD 2 []).length ∧ (p.caches.getD 6 []).length < 16 ∧ 32 ≤ p.ring) ∧
    (let s : State := { up with mem := { up.mem with waiting := [⟨.relocation, 0, 1, none⟩] } }
     (∃ w ∈ s.poolWaits, w.1 = 4 ∧ w.2.1 = 1 ∧ fitPool w.2.2 = 0) ∧ ¬∃ w ∈ up.poolWaits, w.1 = 4 ∧ w.2.1 = 1 ∧ fitPool w.2.2 = 0) ∧
    (up.quiet ∧ (7 : Nat) < 8 ∧ 2 ^ 32 - 1 < 2 ^ 32) := by decide

/-! ### The dictionary -/

/-- Session 1 of a role over the mailbox. -/
def sessOf (role : Nat) : Session := { sess with role := role, slot := if role == 3 then 0 else 1 }

/-- A state with that session. -/
def asRole (role : Nat) (s : State) : State := { s with dict := { s.dict with sessions := [sessOf role] } }

/-- A message: operation, SID, object, type, value. -/
def dmsg (op sid idx sub ty : Nat) (v : Bytes) : DictMsg :=
  let head := leBytes 4 0xC4A5D33B ++ [1, byteOf op, 0, 0] ++ leBytes 4 sid ++ leBytes 4 1 ++ leBytes 2 idx ++ [byteOf sub, byteOf ty] ++ zeros 4 ++ leBytes 2 v.length ++ [1, 0] ++ zeros 4
  { transport := .mailbox, addr := zeros 8, msg := head ++ v ++ zeros ((v.length + 3) / 4 * 4 - v.length) ++ zeros 96 }

/-- A WRITE of an object in session 1. -/
def wr (idx sub ty : Nat) (v : Bytes) : DictMsg := dmsg 2 1 idx sub ty v

/-- All of `State.writes` but the signature. -/
def unsigned (s : State) (m : DictMsg) (x : Session) : Bool :=
  s.hears m && 32 ≤ m.msg.length && dmMagic m == 0xC4A5D33B && dmVer m == 1 && dmRangesOk m && dmOp m == 2 && dmSid m != 0 && s.openSession m == some x &&
    match findObject m x.role true with
    | .inr r => s.writeInRange (askedBy m x) r && (r.ty != .octs || (dmOff m == 0 && dmLast m))
    | .inl _ => false

/-- A WRITE that passes every other check passes them all when its signature is good. -/
theorem writes_signed (s : State) (m : DictMsg) (x : Session) (h : unsigned s m x = true) (g : s.signatureOk m x = true) : ∃ r, s.writes m x r := by
  unfold unsigned at h
  simp only [Bool.and_eq_true, decide_eq_true_eq, beq_iff_eq, bne_iff_ne] at h
  obtain ⟨⟨⟨⟨⟨⟨⟨⟨h1, h2⟩, h3⟩, h4⟩, h5⟩, h6⟩, h7⟩, h8⟩, h9⟩ := h
  split at h9
  · rename_i r e
    simp only [Bool.and_eq_true, Bool.or_eq_true, bne_iff_ne, beq_iff_eq] at h9
    exact ⟨r, ⟨⟨h1, h2, h3, h4, h5⟩, h6, h7, h8, g⟩, e, h9.1, fun k => h9.2.resolve_left fun n => n k⟩
  · cases h9

theorem wit_DictionaryReads : ∀ x ∈ [(0x1000, 0x0A), (0x2003, 0x0B)], let m := dmsg 1 1 x.1 0 x.2 []
    (asRole 1 up).quiet ∧ (asRole 1 up).hears m = true ∧ 32 ≤ m.msg.length ∧ dmMagic m = 0xC4A5D33B ∧ dmVer m = 1 ∧ dmRangesOk m = true ∧ dmOp m = 1 ∧
    (asRole 1 up).leavePs1.readRole m = .inr 1 ∧ (findObject m 1 false).isRight = true := by decide +kernel

/-- An operator's session over a state with no values. -/
def op1 : State := asRole 1 up

/-- A message taken up, as one check. -/
def taken (s : State) (m : DictMsg) : Bool :=
  s.hears m && 32 ≤ m.msg.length && dmMagic m == 0xC4A5D33B && dmVer m == 1 && dmRangesOk m

theorem wit_RequestsRefused : op1.quiet ∧ dmMagic { dmsg 1 0 0x2003 0 0 [] with msg := zeros 32 } ≠ 0xC4A5D33B ∧
    (let m := dmsg 9 0 0x2003 0 0 []
     op1.hears m = true ∧ 32 ≤ m.msg.length ∧ dmMagic m = 0xC4A5D33B ∧ dmRangesOk m = false) ∧
    (let m := dmsg 1 0 0x2003 0 0 []
     taken op1 m = true ∧ dmOp m = 1 ∧ dmSid m = 0 ∧ ¬(0x1000 ≤ dmIdx m ∧ dmIdx m ≤ 0x10FF) ∧ dmType m = 0 ∧ (dictRow (dmIdx m) (dmSub m)).isSome = true) ∧
    (let m := dmsg 1 0 0x2FFF 0 0 []
     taken op1 m = true ∧ dmOp m = 1 ∧ dmSid m = 0 ∧ dictRow (dmIdx m) (dmSub m) = none ∧ dmIdx m < 0xF000) ∧
    (∀ k ∈ [0, 1, 2], let m := dmsg 2 k 0x3002 0 0x01 [1]
     taken op1 m = true ∧ dmOp m = 2 ∧ ownRow (dmIdx m) (dmValue m) = false ∧ dmSid m = k ∧ op1.claims m = false ∧
     (match dictRow (dmIdx m) (dmSub m) with | some r => dmType m == r.ty.code | none => false) = true ∧ (op1.openSession m).isSome = (k == 1)) ∧
    (let s : State := { op1 with dict := { op1.dict with sessions := [{ sessOf 1 with wrote := true, seq := 1 }] } }
     ∀ y ∈ s.openSession (wr 0x3002 0 0x01 [1]), y.wrote = true ∧ dmSeq (wr 0x3002 0 0x01 [1]) ≤ y.seq) := by decide +kernel

/-- A session's signed WRITE that a check after the signature refuses: not writable, out of range, refused by its rule, refused by the journal. -/
theorem wit_RequestsRefused_signed : op1.openSession (wr 0x2003 0 0x0B []) = some (sessOf 1) ∧
    (∀ w ∈ [(0x2003, 0, 0x0B, ([] : Bytes)), (0x3003, 0, 0x0C, zeros 8), (0x5800, 1, 0x03, [0, 5])], let m := wr w.1 w.2.1 w.2.2.1 w.2.2.2
      taken op1 m = true ∧ dmOp m = 2 ∧ dmSid m ≠ 0 ∧ op1.openSession m = some (sessOf 1) ∧ ownRow (dmIdx m) (dmValue m) = false) ∧
    findObject (wr 0x2003 0 0x0B []) 1 true = .inl 0x31 ∧
    (match findObject (wr 0x3003 0 0x0C (zeros 8)) 1 true with
     | .inr r => r.ty != .octs && !op1.writeInRange (askedBy (wr 0x3003 0 0x0C (zeros 8)) (sessOf 1)) r
     | .inl _ => false) = true ∧
    unsigned (asRole 2 up) (wr 0x5800 1 0x03 [0, 4]) (sessOf 2) = true ∧ (asRole 2 up).plainFail (askedBy (wr 0x5800 1 0x03 [0, 4]) (sessOf 2)) = some (0x02, none) ∧
    (let s : State := { op1 with dict := { op1.dict with values := [((0x1282, 0), .num 1)], journal := [(auditSlot 1, overlay (zeros 128) 8 [9])] } }
     unsigned s (wr 0x3002 0 0x01 [1]) (sessOf 1) = true ∧ s.auditRefuses = true ∧ s.plainFail (askedBy (wr 0x3002 0 0x01 [1]) (sessOf 1)) = none) := by decide +kernel

/-- An OPEN of a role and slot. -/
def opn (role slot : Nat) : DictMsg := dmsg 3 0 0 0 0 [byteOf role, byteOf slot, 0, 0]

/-- A state in which operator key 1 is held. -/
def keyed (s : State) : State := { s with dict := { s.dict with values := [((0x1200, 1), .bytes (0x04 :: zeros 96))] } }

theorem wit_SessionsOpenProveClose_open : (taken up (opn 1 1) = true ∧ dmOp (opn 1 1) = 3 ∧ dmSid (opn 1 1) = 0 ∧ field (dmValue (opn 1 1)) 0 1 = 1 ∧ field (dmValue (opn 1 1)) 1 1 = 1) ∧
    (opn 1 1).transport ∉ up.dict.lockouts ∧ (dmValue (opn 1 1)).length = 4 ∧ slotOk 1 1 = true ∧ up.roleKey 1 1 = [] ∧ (keyed up).roleKey 1 1 ≠ [] ∧
    (keyed up).sessionsOn .mailbox < 4 ∧
    (let s := keyed up
     let u : State := { s with dict := { s.dict with sessions := List.replicate 4 (sessOf 1), lockouts := [.mailbox] } }
     4 ≤ u.sessionsOn .mailbox ∧ (opn 1 1).transport ∈ u.dict.lockouts) := by decide +kernel

/-- An offered session. -/
def offered : Session := { sessOf 1 with isOpen := false }

theorem wit_SessionsOpenProveClose_prove : let s : State := { up with dict := { up.dict with sessions := [offered], fails := List.replicate 4 (.mailbox, 0) } }
    let m := dmsg 4 1 0 0 0 (zeros 96)
    taken s m = true ∧ dmOp m = 4 ∧ s.sessionOf m = some offered ∧ offered.isOpen = false ∧ s.auditRefuses = false ∧ (dmValue m).length = 96 ∧
    ¬(dmValue (dmsg 4 1 0 0 0 [])).length = 96 ∧ taken s (dmsg 4 1 0 0 0 []) = true ∧
    4 ≤ (s.dict.fails.filter fun f => f.1 == m.transport && s.since f.2 < 60000000).length := by decide +kernel

theorem wit_SessionsOpenProveClose : (let m := dmsg 5 1 0 0 0 []
      taken op1 m = true ∧ dmOp m = 5 ∧ dmSid m ≠ 0 ∧ op1.openSession m = some (sessOf 1)) ∧
    (op1.dict.sessions.find? fun y => y.sid == 1 && y.isOpen == (sessOf 1).isOpen) = some (sessOf 1) ∧
    (let m := dmsg 2 0 0x1201 1 0x0B (0x04 :: zeros 96)
     up.quiet ∧ taken up m = true ∧ dmOp m = 2 ∧ up.claims m = true ∧ dmType m = ObjType.octs.code ∧ dmOff m = 0 ∧ dmLast m = true ∧ (dmValue m).length = 97 ∧
     (dmValue m).headD 0 = 0x04 ∧ up.auditRefuses = false) := by decide +kernel

/-- The WRITEs of the rows of their own, by role, object, type and value. -/
theorem wit_ObjectsKeysAndLicencesWritten : ∀ w ∈ [(1, 0x3002, 0, 0x01, ([1] : Bytes)), (2, 0x41C0, 1, 0x0B, zeros 16), (2, 0x1201, 4, 0x0B, []), (2, 0x1208, 0, 0x02, [1]), (3, 0x1208, 0, 0x02, [2]),
      (2, 0x1208, 0, 0x02, [2]), (2, 0x9001, 16, 0x06, zeros 2), (3, 0x9000, 36, 0x0B, zeros 64), (2, 0x8020, 0, 0x0B, zeros 192), (2, 0x8022, 0, 0x05, zeros 8)],
    let m := wr w.2.1 w.2.2.1 w.2.2.2.1 w.2.2.2.2
    let s := asRole w.1 up
    s.quiet ∧ unsigned s m (sessOf w.1) = true ∧ s.auditRefuses = false ∧ s.plainFail (askedBy m (sessOf w.1)) = none ∧ dmIdx m = w.2.1 ∧ dmValue m = w.2.2.2.2 := by decide +kernel

theorem wit_ObjectsKeysAndLicencesWritten_states : (∀ c ∈ up.crews, c.state = 0) ∧ (∀ v ∈ up.dict.values, v.1.1 ≠ 0x4000) ∧
    (withCrews [crewAt 1]).lowestCrew (fun c => c.state != 0) = some 0 ∧ up.startup.licences.findIdx? List.isEmpty = some 0 ∧ up.licenceSlot 0 = none ∧
    ({ up with startup := { up.startup with licences := [zeros 192] } } : State).licenceSlot 0 = some 0 := by decide +kernel

/-- A licence is accepted when its signature verifies. -/
theorem wit_ObjectsKeysAndLicencesWritten_licence (f : Fuses) (b : Bytes) (h : (field b 4 1 != 1 || field b 0 4 != 0xC4A5D33D || bits b 42 40 == 0 || bits b 63 43 != 0 || (slice b 48 48) != zeros 48) = false)
    (g : ecdsaVerify Config.licenceKey (sha384 (b.take 96)) (b.drop 96) = true) (k : slice b 16 16 = f.serial ∧ slice b 32 16 = keyHash f.identityKey) :
    licenceFail f b = none := by simp [licenceFail, h, g, k]

theorem wit_DeviceObjectsWritten : ∀ w ∈ [(2, 0x8005, 0, 0x02, ([1] : Bytes)), (2, 0x5001, 0, 0x02, [1]), (1, 0x6001, 0, 0x03, [0, 0]), (1, 0x6001, 0, 0x03, [1, 0]), (2, 0x4000, 36, 0x02, [1]),
      (2, 0x4004, 36, 0x02, [1]), (1, 0x4180, 64, 0x04, [0, 0, 1, 0])],
    let m := wr w.2.1 w.2.2.1 w.2.2.2.1 w.2.2.2.2
    let s := asRole w.1 up
    s.quiet ∧ unsigned s m (sessOf w.1) = true ∧ s.auditRefuses = false ∧ dmIdx m = w.2.1 ∧ dmSub m = w.2.2.1 ∧ dmValue m = w.2.2.2.2 := by decide +kernel

theorem wit_DeviceObjectsWritten_states : up.formatCrews = [] ∧ up.media.state ≤ 2 ∧ up.media.heldState = none ∧ up.faults.queue.length = 0 ∧
    ((withCrews [crewAt 1]).formatCrews = [0]) ∧ up.started = true ∧ (starting (.step 10)).started = false ∧ (∀ c ∈ up.crews, 2 ≤ c.state → c.state ≤ 5 → up.usesPort c 35 = false) ∧
    ((portState up 1 (port35 3)).port 35 = some (port35 3) ∧ (portState up 1 (port35 3)).unlicensed 35 = false) ∧ (up.port 0).isSome = true ∧
    (Transport.mailbox ≠ .t1s ∧ up.dictUp .mailbox = true ∧ up.dictUp .mctp = true) := by decide +kernel

/-- A job whose rank delivers by pair 5, at port 0. -/
def jobPair : Job := { job2 with ranks := job2.ranks.map fun k => { k with target := overlay (zeros 32) 4 [5] } }

theorem wit_DeviceObjectsWritten_uses : ({ running 2 jobPair [] with roce := [rpair 1 1] } : State).lowestCrew
    (fun c => within 2 5 c.state && ({ running 2 jobPair [] with roce := [rpair 1 1] } : State).usesPort c 0) = some 0 := by decide +kernel

/-! ### Power, and the machine -/

/-- A state with wake source 0 on. -/
def wakes0 (s : State) : State := { s with dict := { s.dict with values := ((0x3004, 0), .num 1) :: s.dict.values } }

/-- An entry into a state. -/
def entering (s : State) (n l : Nat) : State := { s with power := { s.power with state := 4, entry := some { target := n, latched := l } } }

theorem wit_PowerStatesEntered : (∀ v ∈ [0, 2, 3], let m := wr 0x3000 0 0x02 [byteOf v]
      let s := wakes0 op1
      s.quiet ∧ unsigned s m (sessOf 1) = true ∧ s.auditRefuses = false ∧ dmIdx m = 0x3000 ∧ dmValue m = [byteOf v] ∧ s.power.state = 0 ∧ s.wakes = true ∧
      s.crews = [] ∧ s.sinks = [] ∧ s.domain.role = 0 ∧ s.host.ingests = [] ∧ (entering s 2 0).quiet ∧ unsigned (entering s 2 0) m (sessOf 1) = true) ∧
    ({ op1 with dict := { op1.dict with values := [((0x3004, 0), .num 0)] } } : State).wakes = false ∧ (withCrews [crewAt 2]).lowestCrew (fun c => c.state == 2 || c.state == 3) = some 0 ∧
    ({ op1 with sinks := [sink63] } : State).sinks ≠ [] := by decide +kernel

theorem wit_PowerStatesEntered_entry : (entering up 2 0).quiet ∧ (entering up 2 0).started = true ∧ (entering up 2 32).power.entry = some { target := 2, latched := 32 } ∧ (entering up 2 0).power.state = 4 ∧
    (entering up 2 0).host.cmds = [] ∧ (cmdIn up (cmdOf [])).quiet ∧ (∃ c ∈ (cmdIn up (cmdOf [])).host.cmds, ¬(c.opc = 0x22 ∧ (cmdIn up (cmdOf [])).jstate c.crew = 4)) ∧
    (let s : State := { up with dict := { up.dict with values := [((0x3002, 0), .num 1)] } }
     s.quiet ∧ s.power.state = 0 ∧ s.started = true ∧ s.num 0x3002 0 = 1 ∧ s.crews = [] ∧ s.host.cmds = []) ∧ (cmdIn up (cmdOf [])).host.cmds ≠ [] ∧
    (let m := wr 0x300A 0 0x02 [1]
     let s : State := { op1 with pins := { op1.pins with padHold := some .entry } }
     s.quiet ∧ unsigned s m (sessOf 1) = true ∧ dmIdx m = 0x300A ∧ s.pins.padHold = some .entry ∧ op1.pins.padHold ≠ some .entry ∧ unsigned op1 m (sessOf 1) = true ∧
     unsigned (entering op1 2 0) m (sessOf 1) = true) := by decide +kernel

/-- A wake from PS2 at a step. -/
def waking (n : Nat) : State := { up with power := { up.power with state := 5, wakeStep := n } }

theorem wit_WakeAndThrottleSteps : (∀ n ∈ [0, 1, 2, 5], let s : State := { wakes0 up with power := { up.power with state := n } }
      s.quiet ∧ s.sourceOn 0 = true ∧ s.power.state = n) ∧ up.sourceOn 1 = false ∧
    (let s : State := { up with power := { up.power with state := 2 }, dict := { up.dict with values := [((0x3004, 0), .num 16), ((0x3007, 0), .num 1)] } }
     s.quiet ∧ s.power.state = 2 ∧ s.sourceOn 4 = true ∧ s.num 0x3007 0 ≠ 0) ∧
    (∀ n ∈ [1, 2, 3, 4, 5], (waking n).quiet ∧ (waking n).power.wakeStep = n) ∧ up.power.wakeStep ≠ 1 ∧ (∀ p ∈ up.ports, p.state ≠ 1) ∧
    (∃ p ∈ (portState up 1 (port35 1)).ports, p.state = 1) := by decide +kernel

/-- The device whose 16 sensors have no offset. -/
def cool : State := { up with dict := { up.dict with values := (List.range 16).map fun i => ((0x9001, i + 1), .num 0) } }

theorem wit_WakeAndThrottleSteps_throttle : cool.coxUp = true ∧
    (let t (raw : Int) : Int := (10 * raw + sign16 (cool.num 0x9001 1)) / 10
     let limit : Int := sign16 (cool.num 0x3800 1)
     limit ≤ t limit ∧ t (limit - 1) < limit ∧ limit - 20 < t (limit - 19) ∧ t (limit - 20) ≤ limit - 20) ∧
    (∀ n < 16, cool.num 0x9001 (n + 1) = cool.num 0x9001 1) ∧
    cool.power.coolMs < 9 ∧ cool.power.lowCount < 99 ∧ cool.power.throttle = 0 ∧ ({ cool.power with powerStep := 12 } : Power).throttle ≠ 0 ∧
    0 < cool.num 0x300C 0 := by decide +kernel

theorem wit_StepKeepsSound : up.sound ∧ ∃ t, step { up with pending := [.ps1Exit] } = .next t :=
  ⟨⟨by unfold Power.legal; decide, by decide, by decide⟩, _, rfl⟩

theorem test_front_command_runs : step { up with pending := [.brownOut, .ps1Exit] } = exec .brownOut { up with pending := [.ps1Exit] } := rfl

theorem wit_FrontCommandRuns : up.pending = [] ∧ up.pins.aon = true ∧ up.pins.slowclk = true ∧ State.reset.pins.aon = false := by decide


/-! ### Content decoders -/

/-- RFC 8878: a frame of one raw block of three bytes, with its content size. -/
theorem test_zstd_raw : zstd 16 [0x28, 0xB5, 0x2F, 0xFD, 0x20, 0x03, 0x19, 0x00, 0x00, 0x61, 0x62, 0x63] = .ok [0x61, 0x62, 0x63] := by decide +kernel
/-- RFC 9639: one frame of 16 audio frames, mono, 8 bits, a constant subframe of 5. -/
theorem test_flac_constant : flacDecode ([0x66, 0x4C, 0x61, 0x43, 0x80, 0, 0, 0x22, 0, 16, 0, 16, 0, 0, 0, 0, 0, 0, 0x0A, 0xC4, 0x40, 0x70, 0, 0, 0, 16] ++ List.replicate 16 0 ++
    [0xFF, 0xF8, 0x69, 0x02, 0x00, 0x0F, 0xB7, 0x00, 0x05, 0xFA, 0x3C]) = .audio 8 1 [(16, some (List.replicate 16 5))] := by decide +kernel
/-- T.81, R199: an 8 × 8 image of one component whose coefficients are all 0 is 128 throughout. -/
def jpegGrey : Bytes := [0xFF, 0xD8, 0xFF, 0xDB, 0, 67, 0] ++ List.replicate 64 1 ++
  [0xFF, 0xC0, 0, 11, 8, 0, 8, 0, 8, 1, 1, 0x11, 0, 0xFF, 0xC4, 0, 20, 0x00, 1] ++ List.replicate 15 0 ++ [0, 0xFF, 0xC4, 0, 20, 0x10, 1] ++ List.replicate 15 0 ++
  [0, 0xFF, 0xDA, 0, 8, 1, 1, 0, 0, 63, 0, 0x3F, 0xFF, 0xD9]
theorem test_jpeg_grey : decodeJpeg jpegGrey 0 = .ok (.image 8 8 1 0x01 (List.replicate 64 128)) 0 64 0 0 1 := by decide +kernel
/-- FIPS 186-5: a signature made by OpenSSL. -/
def ecSig : Bytes := [0xC4, 0x53, 0xBA, 0x0A, 0xA9, 0xA7, 0xC6, 0x81, 0xBB, 0xB8, 0x4D, 0xB3, 0xD7, 0x62, 0xEC, 0xA2, 0xAC, 0xDE, 0x8E, 0x70, 0x8F, 0x8F, 0x7A,
    0x1E, 0x92, 0x15, 0x37, 0xD4, 0xDB, 0xE2, 0xBE, 0xE3, 0x94, 0xED, 0x4C, 0x3F, 0x09, 0xAA, 0x27, 0x8A, 0x51, 0x64, 0xDD, 0x8E, 0xEE, 0xDB,
    0x9E, 0xEC, 0xB8, 0xDF, 0x60, 0xB7, 0x23, 0x16, 0x05, 0x52, 0xBA, 0x8E, 0xD1, 0x52, 0x9F, 0x73, 0x23, 0x70, 0x62, 0x3C, 0x0F, 0x25, 0xEB,
    0xB8, 0x2D, 0x8A, 0xA9, 0x46, 0x91, 0x3C, 0x1B, 0x63, 0xBB, 0xD5, 0x38, 0x86, 0xBB, 0xAF, 0x6F, 0xC4, 0x40, 0x80, 0x9E, 0xDC, 0xF0, 0xD8,
    0x04, 0x61, 0x72, 0x6F]
def ecKey1 : Bytes := [0x04, 0x39, 0x0D, 0xA2, 0xDA, 0xEC, 0xB9, 0x8E, 0x8F, 0x00, 0x3B, 0xA7, 0xA4, 0x30, 0x15, 0x98, 0x8A, 0x17, 0x67, 0x24, 0xCB, 0x83, 0x02,
    0x8F, 0x17, 0x6F, 0x49, 0x06, 0x38, 0x79, 0xC4, 0x3E, 0x7F, 0x6C, 0x05, 0xA2, 0x45, 0xE8, 0x8D, 0xC6, 0x65, 0x3A, 0x5F, 0xE5, 0x04, 0x1F,
    0x70, 0xB7, 0x7C, 0x3A, 0x16, 0x96, 0x70, 0xBA, 0xE0, 0xFB, 0xB2, 0x53, 0x82, 0x90, 0x71, 0x6C, 0xB7, 0xDC, 0x8B, 0x58, 0x08, 0x10, 0x0B,
    0x53, 0xFA, 0x84, 0xDA, 0x5A, 0xC9, 0xCC, 0xB6, 0x2F, 0x79, 0xFD, 0xBF, 0xE4, 0xD0, 0xA6, 0xEB, 0x36, 0xA5, 0xE0, 0x50, 0x61, 0xD1, 0xA6,
    0xE9, 0x20, 0x40, 0x49, 0x1F]
theorem test_ecdsa : ecdsaVerify ecKey1
    [0xDF, 0xC3, 0xB2, 0x40, 0x56, 0x38, 0x44, 0xE6, 0x9C, 0xAD, 0x2A, 0x42, 0xC3, 0xFF, 0xF1, 0xD5, 0x92, 0xE1, 0x90, 0x3A, 0x62, 0x23, 0x86,
    0x50, 0xC8, 0xA6, 0xBF, 0xCE, 0xCA, 0xDB, 0x58, 0xFF, 0xBA, 0x2D, 0xCD, 0xE7, 0x4A, 0x03, 0x3B, 0x8D, 0x10, 0x72, 0xE6, 0x50, 0xD5, 0x68,
    0x1F, 0x76]
    ecSig = true := by decide +kernel

end Sys2Proof.Tests
end

section
/-!
PROOFS. The flag DEVERR (R10 to R12) and the flits of a Ryhero link (R356 to R368): what each event of a port does, branch by branch,
and the statements O9 and O37 from that.
-/
namespace Sys2Proof.Machine

/-! ### A write to the flag DEVERR -/

/-- DEVERR_CLEAR on a link that is up: a quiet state stays quiet, so delivery adds nothing to the write of ASTS. -/
theorem exec_deverrClear_up {s : State} (v : BitVec 32) (b : Bool) (hq : s.quiet) (hu : s.hostUp = true) :
    exec (.deverrClear v b) s = .next (s.astsWrite v b) := by
  have hq' : (s.astsWrite v b).quiet := by
    unfold State.astsWrite State.clearDeverr
    cases v.getLsbD 2 <;> cases b <;> exact hq
  calc exec (.deverrClear v b) s = s.onHost fun s => s.astsWrite v b := rfl
    _ = .next (s.astsWrite v b) := by rw [onHost_up hu, settle_quiet hq']

/-- R10, R12: a write of 1 leaves DEVERR as the set event of the same cycle leaves it. -/
theorem astsWrite_one {s : State} {v : BitVec 32} (b : Bool) (hv : v.getLsbD 2 = true) : s.astsWrite v b = s.clearDeverr b := by
  simp only [State.astsWrite, hv, if_true]

/-- A write of 0 leaves DEVERR to its set event. -/
theorem astsWrite_zero {s : State} {v : BitVec 32} (b : Bool) (hv : v.getLsbD 2 = false) :
    s.astsWrite v b = if b then s.setDeverr else s := by
  simp only [State.astsWrite, hv, Bool.false_eq_true, if_false]

/-- Settles O9: the four cases of the bit written and the set event. -/
theorem deverrWriteOneToClear : Obligations.DeverrWriteOneToClear := by
  intro s v hq hu
  refine ⟨fun hv => ?set_one, fun hv => ?clear_one, fun hv => ?set_zero, fun hv => ?clear_zero⟩
  case set_one => rw [exec_deverrClear_up v true hq hu, astsWrite_one true hv]; rfl
  case clear_one => rw [exec_deverrClear_up v false hq hu, astsWrite_one false hv]; rfl
  case set_zero => rw [exec_deverrClear_up v true hq hu, astsWrite_zero true hv]; rfl
  case clear_zero => rw [exec_deverrClear_up v false hq hu, astsWrite_zero false hv]; rfl

/-! ### The commands of a link as effects on a port -/

theorem exec_dataFlitReceive (s : State) (n k : Nat) (f : Bytes) :
    exec (.dataFlitReceive n ⟨f, k⟩) s = .next ((s.fecCorrects n k).dataFlit n f).settle := rfl

theorem exec_idleFlitReceive (s : State) (n k : Nat) (f : Bytes) :
    exec (.idleFlitReceive n ⟨f, k⟩) s = .next ((s.fecCorrects n k).idleFlit n f).settle := rfl

theorem exec_nakFlitReceive (s : State) (n k : Nat) (f : Bytes) :
    exec (.nakFlitReceive n ⟨f, k⟩) s = .next ((s.fecCorrects n k).nakFlit n f).settle := rfl

theorem exec_handshakeFlitReceive (s : State) (n k : Nat) (f : Bytes) :
    exec (.handshakeFlitReceive n ⟨f, k⟩) s = .next ((s.fecCorrects n k).handshakeFlit n f).settle := rfl

theorem exec_replayTimeout (s : State) (n : Nat) : exec (.replayTimeout n) s = .next (s.replayTimedOut n).settle := rfl

theorem exec_nakRepeat (s : State) (n : Nat) : exec (.nakRepeat n) s = .next (s.nakAgain n).settle := rfl

theorem exec_creditReturn (s : State) (n v : Nat) : exec (.creditReturn n v) s = .next (s.returnCredit n v).settle := rfl

/-! ### Flits of a running Ryhero port -/

/-- R362: what a NAK does: the port waits for its expected flit, and a NAK flit departs. -/
theorem nak_eq (s : State) (n : Nat) : s.nak n = (s.modLink n fun l => { l with naking := true }).sendControlFlit n 3 := rfl

section Running
variable {s : State} {n : Nat} {p : Port} {f : Bytes}

/-- R362: a data flit that fails its CRC, or is none, gets a NAK. -/
theorem dataFlit_bad (hp : s.port n = some p) (hup : s.portUp n 1 = true) (hg : ¬(flitGood p f = true ∧ flitType f = 1)) :
    s.dataFlit n f = s.nak n := by
  unfold State.dataFlit
  rw [hp]
  dsimp only
  rw [if_neg (by simp [hup]), if_pos (by simpa [imp_iff_not_or] using hg)]

/-- R362: a good data flit out of sequence gives its acknowledgement and gets a NAK. -/
theorem dataFlit_outOfSequence (hp : s.port n = some p) (hup : s.portUp n 1 = true) (hg : flitGood p f = true ∧ flitType f = 1)
    (hs : flitSeq f ≠ p.link.expect) : s.dataFlit n f = (s.modLink n fun l => l.takeAck (flitAck f)).nak n := by
  unfold State.dataFlit
  rw [hp]
  dsimp only
  rw [if_neg (by simp [hup]), if_neg (by simp [hg]), if_pos (by simpa using hs)]

/-- R361, R365, R367: a good data flit in sequence gives its acknowledgement; the room in its channel decides the rest. -/
theorem dataFlit_inSequence (hp : s.port n = some p) (hup : s.portUp n 1 = true) (hg : flitGood p f = true ∧ flitType f = 1)
    (hs : flitSeq f = p.link.expect) :
    s.dataFlit n f =
      if rxSizes.getD (flitVc f) 0 ≤ (p.link.rx.getD (flitVc f) []).length then
        (s.modLink n fun l => l.takeAck (flitAck f)).recoverPort n true
      else (((s.modLink n fun l => l.takeAck (flitAck f)).modLink n fun l => { l.takeCredit f with
        expect := (l.expect + 1) % 65536, naking := false, ackOwed := l.ackOwed + 1
        rx := l.rx.set (flitVc f) (p.link.rx.getD (flitVc f) [] ++ [f]) }).replayOn n).acknowledge n := by
  unfold State.dataFlit
  rw [hp]
  dsimp only
  rw [if_neg (by simp [hup]), if_neg (by simp [hg]), if_neg (by simp [hs])]

/-- R361, R365: a good idle flit gives its acknowledgement and its credits. -/
theorem idleFlit_good (hp : s.port n = some p) (hup : s.portUp n 1 = true) (hg : flitGood p f = true) (ht : flitType f = 2) :
    s.idleFlit n f = (s.modLink n fun l => (l.takeAck (flitAck f)).takeCredit f).replayOn n := by
  unfold State.idleFlit
  rw [hp]
  dsimp only
  rw [if_pos (by simp [hup, hg, ht])]

/-- R362: a good NAK flit gives its acknowledgement, and the rest is replayed. -/
theorem nakFlit_good (hp : s.port n = some p) (hup : s.portUp n 1 = true) (hg : flitGood p f = true) (ht : flitType f = 3) :
    s.nakFlit n f = (s.modLink n fun l => l.takeAck (flitAck f)).replay n := by
  unfold State.nakFlit
  rw [hp]
  dsimp only
  rw [if_pos (by simp [hup, hg, ht])]

/-- R363: a running port replays at its timeout. -/
theorem replayTimedOut_up (hup : s.portUp n 1 = true) : s.replayTimedOut n = s.replay n := if_pos hup

/-- R362: a port that still waits after its NAK sends it again. -/
theorem nakAgain_naking (hp : s.port n = some p) (hup : s.portUp n 1 = true) (hn : p.link.naking = true) :
    s.nakAgain n = s.sendControlFlit n 3 := by
  unfold State.nakAgain
  rw [hp]
  dsimp only
  rw [if_pos (by simp [hup, hn])]

/-- R366: credits owed on a channel depart in an idle flit. -/
theorem returnCredit_owed {v : Nat} (hp : s.port n = some p) (hup : s.portUp n 1 = true) (ho : p.link.owed.getD v 0 ≠ 0) :
    s.returnCredit n v = (s.modLink n fun l => l.departed (v, min 255 (p.link.owed.getD v 0))).send
      (.flit n (flit p.link.ver 2 0 0 p.link.expect v (min 255 (p.link.owed.getD v 0)) 0 false false [])) := by
  have hk : min 255 (p.link.owed.getD v 0) ≠ 0 := by omega
  unfold State.returnCredit
  rw [hp]
  dsimp only
  rw [if_neg (by simpa [hup] using hk)]

end Running

/-- Credits that depart put no fault message on its way. -/
theorem returnCredit_faults (s : State) (n v : Nat) : (s.returnCredit n v).faults = s.faults := by
  unfold State.returnCredit
  cases s.port n with
  | none => rfl
  | some p => dsimp only; split <;> rfl

/-! ### The handshake of a port in training -/

/-- R356: the peer that a handshake names: its device and its port. -/
def handshakePeer (f : Bytes) : Nat × Nat := (field (f.drop 12) 2 2 % 4096, field (f.drop 12) 4 1)

/-- R356, R357, R365: the peer and the credits of a handshake recorded, at link version 1. -/
def State.recordPeer (s : State) (n : Nat) (f : Bytes) : State :=
  s.modPort n fun p => { p with
    peer := (handshakePeer f).1, peerPort := (handshakePeer f).2, lastPeer := some (handshakePeer f), shaken := true
    link := { p.link with ver := 1, credits := (List.range 4).map fun v => field (f.drop 12) (8 + 2 * v) 2, owed := [0, 0, 0, 0] } }

/-- R359, R368: after a handshake a port whose width is agreed comes up, and the topology log names the peer. -/
def State.shakeHands (s : State) (n : Nat) (p : Port) (f : Bytes) : State :=
  if p.agreed = 0 then (s.recordPeer n f).noteTopology n else ((s.recordPeer n f).portComesUp n).noteTopology n

section Handshake
variable {s : State} {n : Nat} {p : Port} {f : Bytes}

/-- R8, R356: what makes a flit a handshake. -/
theorem handshakeGood_iff : handshakeGood f = true ↔ flitCrcOk f = true ∧ flitVer f = 1 ∧ flitType f = 4 := by
  simp [handshakeGood, and_assoc]

/-- R357: this device speaks version 1 alone: which ranges of a peer leave no common version. -/
theorem no_common_version_iff (low high : Nat) : min 1 high < max 1 low ↔ high = 0 ∨ 1 < low := by omega

/-- R357: a range without version 1 fences the port for cause 3. -/
theorem handshakeFlit_otherRange (hp : s.port n = some p) (h1 : p.state = 1) (hm : s.portMode n = 1) (hg : handshakeGood f = true)
    (hv : field (f.drop 12) 1 1 = 0 ∨ 1 < field (f.drop 12) 0 1) :
    s.handshakeFlit n f =
      let x := (s.fencePort n 3).raise { unit := portUnit n, kind := 0x21, addr := field (f.drop 12) 1 1 }
      if x.started then x.recheckTimed.reroute else x := by
  unfold State.handshakeFlit
  rw [hp]
  dsimp only
  rw [if_neg (by simp [h1, hm, hg]), if_pos ((no_common_version_iff _ _).2 hv)]

/-- R356, R359: a range with version 1 is taken, and a peer other than the last one raises kind 0x22. -/
theorem handshakeFlit_inRange (hp : s.port n = some p) (h1 : p.state = 1) (hm : s.portMode n = 1) (hg : handshakeGood f = true)
    (hhigh : 1 ≤ field (f.drop 12) 1 1) (hlow : field (f.drop 12) 0 1 ≤ 1) :
    s.handshakeFlit n f =
      if p.lastPeer.any (· != handshakePeer f) then
        ((s.shakeHands n p f).raise { unit := portUnit n, kind := 0x22, addr := (handshakePeer f).1 }).peerChanged n (handshakePeer f).1
      else s.shakeHands n p f := by
  unfold State.handshakeFlit
  rw [hp]
  dsimp only
  rw [if_neg (by simp [h1, hm, hg]), if_neg (by rw [no_common_version_iff]; omega), Nat.min_eq_left hhigh]
  simp only [beq_iff_eq]
  cases p.lastPeer <;> rfl

end Handshake

/-! ### The statement -/

/-- Settles O37: each clause is the branch of the port's effect that its premises choose. -/
theorem linkFlits : Obligations.LinkFlits := by
  refine ⟨fun _ _ _ => rfl, ?data, ?idleNak, ?timeout, ?nakRepeat, ?credit, ?handshake⟩
  case data =>
    intro s n k p f u hp hup good w rx
    simp only [exec_dataFlitReceive]
    refine ⟨fun hg hs hroom => ?_, fun hg hs hfull => ?_, fun hg hs => ?_, fun hg => ?_⟩
    · rw [dataFlit_inSequence hp hup hg hs, if_neg (Nat.not_le.2 hroom)]
    · rw [dataFlit_inSequence hp hup hg hs, if_pos hfull]
    · rw [dataFlit_outOfSequence hp hup hg hs, nak_eq]
    · rw [dataFlit_bad hp hup hg, nak_eq]
  case idleNak =>
    intro s n k p f u hp hup hg
    refine ⟨fun ht => ?_, fun ht => ?_⟩
    · rw [exec_idleFlitReceive, idleFlit_good hp hup hg ht]
    · rw [exec_nakFlitReceive, nakFlit_good hp hup hg ht]
  case timeout =>
    intro s n hup
    rw [exec_replayTimeout, replayTimedOut_up hup]
  case nakRepeat =>
    intro s n p hp hup hn
    rw [exec_nakRepeat, nakAgain_naking hp hup hn]
  case credit =>
    intro s n v p hq hp hup ho
    have hq' : (s.returnCredit n v).quiet := by rwa [State.quiet, returnCredit_faults]
    rw [exec_creditReturn, settle_quiet hq', returnCredit_owed hp hup ho]
  case handshake =>
    intro s n k p f u hp h1 hm hcrc hver htype b peer far w v
    have hg : handshakeGood f = true := handshakeGood_iff.2 ⟨hcrc, hver, htype⟩
    simp only [exec_handshakeFlitReceive]
    refine ⟨fun hhigh hlow hsame => ?_, fun hhigh hlow x hx hother => ?_, fun hrange => ?_⟩
    · have hknown : p.lastPeer.any (· != handshakePeer f) = false := by
        rcases hsame with h | h <;> rw [h]
        · rfl
        · exact bne_self_eq_false (handshakePeer f)
      rw [handshakeFlit_inRange hp h1 hm hg hhigh hlow, hknown]
      rfl
    · have hnew : p.lastPeer.any (· != handshakePeer f) = true := by
        rw [hx]
        exact bne_iff_ne.2 hother
      rw [handshakeFlit_inRange hp h1 hm hg hhigh hlow, if_pos hnew]
      rfl
    · rw [handshakeFlit_otherRange hp h1 hm hg hrange]

end Sys2Proof.Machine
end

section
/-!
PROOFS. Parity errors, missing responses and resident copies (R32, R263, R288 to R291, R435, R645 to R648): what each of these events
does to the state, the parity of a DRAM line bit by bit, and the statement O35 from that.
-/
namespace Sys2Proof.Machine

/-! ### What a parity fault leaves alone -/

/-- R633: a fault raised touches the record of faults alone. -/
theorem raise_faults_only (s : State) (r : Raise) : ∃ f, s.raise r = { s with faults := f } := by
  unfold State.raise
  dsimp only
  split
  · exact ⟨_, rfl⟩
  · exact ⟨_, rfl⟩

@[simp] theorem raise_catalogue (s : State) (r : Raise) : (s.raise r).catalogue = s.catalogue := by
  obtain ⟨f, hf⟩ := raise_faults_only s r
  rw [hf]

@[simp] theorem parityFault_catalogue (s : State) (u a b : Nat) (p c : Option Nat) (sid : Nat) :
    (s.parityFault u a b p c sid).catalogue = s.catalogue := by
  unfold State.parityFault
  cases dramTier u with
  | none => exact raise_catalogue s _
  | some t => exact raise_catalogue s _

@[simp] theorem parityFault_dataset (s : State) (u a b : Nat) (p c : Option Nat) (sid d : Nat) :
    (s.parityFault u a b p c sid).dataset d = s.dataset d := by
  rw [State.dataset, State.dataset, parityFault_catalogue]

/-! ### A read meets a parity error -/

theorem exec_parityError (s : State) (x : ParityAt) : exec (.parityError x) s = .next (s.parity x).settle := rfl

section Parity
variable {s : State} {n u a : Nat}

/-- R645, R647: a sample's own read. -/
theorem parity_context {p b : Nat} {c : Context} (hc : s.ctx n = some c) :
    s.parity (.context n u p b a) = (s.parityFault u a b (some p) (some c.crew) c.sid).failMaking c := by
  simp only [State.parity, hc]

/-- R647: a sample's read of a vocabulary that is held. -/
theorem parity_vocabulary {v : Nat} {c : Context} (hc : s.ctx n = some c) (hv : ∃ x ∈ s.vocabs, x.num = v) :
    s.parity (.vocabulary v n u a) = (s.parityFault u a 0 none (some c.crew) c.sid).failMaking c := by
  have hheld : (s.vocabs.any fun x => x.num == v) = true := by simpa using hv
  simp only [State.parity, hheld, hc, Bool.not_true, Bool.false_eq_true, if_false]

/-- R645: a read of a stream's rollout record. -/
theorem parity_stream {k : Nat} {t : Stream} (ht : s.stream k n = some t) :
    s.parity (.stream k n u a) = (s.parityFault u a 0 none ((s.sink k).map Sink.crew) 0).abortStream t := by
  simp only [State.parity, ht]

/-- R291: a granule of a resident copy, no longer resident. -/
def Resident.lose (g : Nat) (x : Resident) : Resident := { x with granules := x.granules.filter fun y => y != g }

/-- R291: a read of a resident granule: what the media hold of it decides whether it stays resident. -/
theorem residentParity_eq {d i g : Nat} {c : Context} {ds : Dataset} (hc : s.ctx n = some c) (hd : s.dataset d = some ds)
    (hr : ∃ x ∈ s.residents, x.dset = d ∧ x.shard = i ∧ g ∈ x.granules) :
    s.residentParity n d i g u a =
      let w := s.parityFault u a 0 none (some c.crew) c.sid
      if w.granuleGood ds i g = true then w.failMaking c
      else ({ w with residents := updWhere (fun x => x.dset == d && x.shard == i) (Resident.lose g) w.residents } : State).failMaking c := by
  have hheld : (s.residents.any fun x => x.dset == d && x.shard == i && x.granules.contains g) = true := by
    simpa [and_assoc] using hr
  unfold State.residentParity
  simp only [hc, hheld, parityFault_dataset, hd, if_true]
  split <;> rfl

/-- R263, R646, R647: a row of a batch buffer meets a parity error: the samples that its headers stand for are made again. -/
def State.remakeBatchRow (s : State) (n rk k sl u a : Nat) (r : Run) (b : Batch) : State :=
  let hs := b.hdrs.filter fun h => h.slot == sl
  hs.foldl (fun (s : State) h =>
    let x := rewriteOf b.rewrites sl h.epoch (r.job.maker h)
    let s := s.exhaustRetries n x.2.retries h.epoch h.sid x.2.pos
    (s.modJob n fun j => j.modBatch rk k fun y => { y with rewrites := x.1 }).remakeRow r h x.2 (.row rk k sl))
    (s.parityFault u a 0 none (some n) (match hs.head? with | some h => h.sid | none => 0))

/-- R263: the samples of the row are made again, and a transmission that was under way begins again. -/
theorem batchParity_eq {rk k sl : Nat} {r : Run} {b : Batch} (hr : s.run n = some r) (hb : r.job.batch rk k = some b) :
    s.batchParity n rk k sl u a =
      let v := s.remakeBatchRow n rk k sl u a r b
      if b.tx = .sending then (v.dropBatchWrites n rk k).modJob n fun j => j.modBatch rk k fun b => { b with tx := .idle } else v := by
  unfold State.batchParity
  simp only [hr, hb, bne_iff_ne, ne_eq, ite_not]
  rfl

/-- R263, R647: a contribution staged for a heat meets a parity error: its sample is made again. -/
theorem heatParity_eq {rk e h x : Nat} {r : Run} {y : Heat} {i : Nat × Hdr × List Nat} (hr : s.run n = some r)
    (hy : r.job.heat rk e h = some y) (hi : (y.items.find? fun i => i.1 == x) = some i) :
    s.heatParity n rk e h x u a =
      let z := rewriteOf y.rewrites x i.2.1.epoch (r.job.maker i.2.1)
      let v := (s.parityFault u a 0 none (some n) i.2.1.sid).exhaustRetries n z.2.retries i.2.1.epoch i.2.1.sid z.2.pos
      (v.modJob n fun j => j.modHeat rk e h fun q => { q with rewrites := z.1 }).remakeRow r i.2.1 z.2 (.item rk e h x) := by
  unfold State.heatParity
  simp only [hr, hy, hi]

end Parity

/-! ### Missing responses -/

theorem exec_missingResponse (s : State) (n : Nat) : exec (.missingResponse n) s = .next (s.noResponse n).settle := rfl

/-- R32: the sample of a context that does not run is made again; one that runs awaits no response. -/
theorem noResponse_eq {s : State} {n : Nat} {c : Context} (hc : s.ctx n = some c) :
    s.noResponse n = if c.st = .run then s else s.failMaking c := by
  simp only [State.noResponse, hc, beq_iff_eq]

/-! ### Resident copies -/

theorem exec_residentCopyGranule (s : State) (d i g : Nat) :
    exec (.residentCopyGranule d i g) s = .next (s.copyGranule d i g).settle := rfl

section Copies
variable {s : State} {d i g : Nat} {ds : Dataset}

/-- R290: a granule of the shard that passes its check becomes resident where it is not yet. -/
theorem copyGranule_good (hd : s.dataset d = some ds) (hm : s.media.mounted = true) (hg : s.granuleGood ds i g = true)
    (hlt : g < arrayGranules ds.manifest i) :
    s.copyGranule d i g = { s with residents := s.residents.map fun x =>
      if x.dset = d ∧ x.shard = i ∧ g ∉ x.granules then { x with granules := x.granules ++ [g] } else x } := by
  simp only [State.copyGranule, hd, hm, hg, hlt, updWhere, Bool.and_self, if_true, decide_true, Bool.and_true, Bool.and_eq_true,
    beq_iff_eq, Bool.not_eq_true', List.contains_eq_mem, decide_eq_false_iff_not, and_assoc]

/-- R290: a granule that fails its check does not become resident. -/
theorem copyGranule_bad (hd : s.dataset d = some ds) (hg : s.granuleGood ds i g = false) : s.copyGranule d i g = s := by
  simp only [State.copyGranule, hd, hg, Bool.and_false, Bool.false_eq_true, if_false]

end Copies

/-! ### Numbers made of bits -/

theorem sum_bit_lt (f : Nat → Bool) (n : Nat) : ((List.range n).map fun k => bit (f k) k).sum < 2 ^ n := by
  induction n with
  | zero => exact Nat.one_pos
  | succ n ih =>
    have hlast : bit (f n) n ≤ 2 ^ n := by
      unfold bit
      split
      · exact Nat.le_refl _
      · exact Nat.zero_le _
    simp only [List.range_succ, List.map_append, List.sum_append, List.map_cons, List.map_nil, List.sum_singleton]
    omega

/-- Distinct powers of 2 add up without a carry: the sum is the number whose bits, below n, are the flags. -/
theorem testBit_sum_bit (f : Nat → Bool) {n j : Nat} (hj : j < n) :
    (((List.range n).map fun k => bit (f k) k).sum).testBit j = f j := by
  induction n with
  | zero => omega
  | succ n ih =>
    have hlt := sum_bit_lt f n
    simp only [List.range_succ, List.map_append, List.sum_append, List.map_cons, List.map_nil, List.sum_singleton]
    rcases Nat.lt_or_eq_of_le (Nat.le_of_lt_succ hj) with h | rfl
    · cases hf : f n with
      | false => simpa [bit, hf] using ih h
      | true => rw [bit, if_pos rfl, Nat.add_comm, Nat.testBit_two_pow_add_gt h, ih h]
    · cases hf : f j with
      | false => simpa [bit, hf] using Nat.testBit_lt_two_pow hlt
      | true => rw [bit, if_pos rfl, Nat.add_comm, Nat.testBit_two_pow_add_eq, Nat.testBit_lt_two_pow hlt, Bool.not_false]

/-- R435: bit j of parity byte i is the parity bit of data byte 8i + j. -/
theorem parityByte_bit (d : Bytes) (i : Nat) {j : Nat} (hj : j < 8) :
    (parityByte d i).getLsbD j = parityBit (d.getD (8 * i + j) 0) := by
  unfold parityByte byteOf
  rw [BitVec.getLsbD_ofNat, testBit_sum_bit (fun j => parityBit (d.getD (8 * i + j) 0)) hj, decide_eq_true hj, Bool.true_and]

/-! ### One bit turned over -/

/-- Of two predicates that differ at j alone, the counts below n differ in parity exactly when j is below n. -/
theorem length_filter_flip (f : Nat → Bool) (j n : Nat) :
    (((List.range n).filter fun i => f i ^^ i == j).length + ((List.range n).filter f).length) % 2 = if j < n then 1 else 0 := by
  induction n with
  | zero => rfl
  | succ n ih =>
    simp only [List.range_succ, List.filter_append, List.length_append, List.filter_singleton]
    rcases Nat.lt_trichotomy j n with h | rfl | h
    · have hne : (n == j) = false := beq_false_of_ne (by omega)
      rw [if_pos h] at ih
      rw [if_pos (by omega), hne, Bool.xor_false]
      omega
    · rw [if_neg (by omega)] at ih
      rw [if_pos (by omega), beq_self_eq_true, Bool.xor_true]
      cases f j <;> simp <;> omega
    · have hne : (n == j) = false := beq_false_of_ne (by omega)
      rw [if_neg (by omega)] at ih
      rw [if_neg (by omega), hne, Bool.xor_false]
      omega

/-- R435: turning over one bit of a byte turns over its parity bit. -/
theorem parityBit_flip (b : Byte) {j : Nat} (hj : j < 8) : parityBit (b ^^^ BitVec.ofNat 8 (2 ^ j)) = !parityBit b := by
  have hbits : (List.range 8).filter (fun i => (b ^^^ BitVec.ofNat 8 (2 ^ j)).getLsbD i) =
      (List.range 8).filter fun i => b.getLsbD i ^^ i == j := by
    refine List.filter_congr fun i hi => ?_
    have hi8 : i < 8 := List.mem_range.1 hi
    rw [BitVec.getLsbD_xor, BitVec.getLsbD_ofNat, Nat.testBit_two_pow, decide_eq_true hi8, Bool.true_and, Bool.beq_eq_decide_eq]
    simp only [eq_comm]
  have hcount := length_filter_flip (fun i => b.getLsbD i) j 8
  rw [if_pos hj] at hcount
  unfold parityBit
  rw [hbits, Bool.eq_not, ne_eq, beq_eq_beq]
  omega

/-! ### Lines of a DRAM tier -/

@[simp] theorem length_fitTo (n : Nat) (b : Bytes) : (fitTo n b).length = n := by
  unfold fitTo
  rw [List.length_append, List.length_take, List.length_replicate]
  omega

theorem fitTo_of_length {n : Nat} {b : Bytes} (h : b.length = n) : fitTo n b = b := by
  unfold fitTo
  rw [h, Nat.sub_self, List.take_of_length_le (Nat.le_of_eq h), List.replicate_zero, List.append_nil]

section Lines
variable {k : Nat} (d : Bytes)

/-- R435: 64 data bytes and 8 parity bytes. -/
theorem length_dramLine : (dramLine d).length = 72 := by
  unfold dramLine
  rw [List.length_append, length_fitTo, List.length_map, List.length_range]

theorem dramLine_data (hk : k < 64) : (dramLine d).getD k 0 = (fitTo 64 d).getD k 0 := by
  unfold dramLine
  exact List.getD_append _ _ _ _ (by rwa [length_fitTo])

theorem dramLine_parity (hk : k < 64) : (dramLine d).getD (64 + k / 8) 0 = parityByte (fitTo 64 d) (k / 8) := by
  have hp : k / 8 < 8 := by omega
  unfold dramLine
  rw [List.getD_append_right _ _ _ _ (by rw [length_fitTo]; omega), length_fitTo, Nat.add_sub_cancel_left]
  simp [hp]

/-- The parity bit that a line holds for data byte k. -/
theorem dramLine_parityBit (hk : k < 64) :
    ((dramLine d).getD (64 + k / 8) 0).getLsbD (k % 8) = parityBit ((dramLine d).getD k 0) := by
  rw [dramLine_parity d hk, parityByte_bit _ _ (Nat.mod_lt _ (by decide)), Nat.div_add_mod, dramLine_data d hk]

/-- R436: a line as its writer put it reads back. -/
theorem dramLineRead_dramLine (hk : k < 64) : dramLineRead (dramLine d) k = some ((fitTo 64 d).getD k 0) := by
  unfold dramLineRead byteGood
  rw [dramLine_parityBit d hk, beq_self_eq_true, if_pos rfl, dramLine_data d hk]

/-- R436: what stands in place of data byte k is held against the parity bit of the byte written. -/
theorem byteGood_set (hk : k < 64) (x : Byte) :
    byteGood ((dramLine d).set k x) k = (parityBit ((dramLine d).getD k 0) == parityBit x) := by
  have hlen : k < (dramLine d).length := by rw [length_dramLine]; omega
  have hself : ((dramLine d).set k x).getD k 0 = x := by simp [List.getD_eq_getElem?_getD, hlen]
  have hother : ((dramLine d).set k x).getD (64 + k / 8) 0 = (dramLine d).getD (64 + k / 8) 0 := by
    rw [List.getD_eq_getElem?_getD, List.getElem?_set_ne (by omega), ← List.getD_eq_getElem?_getD]
  unfold byteGood
  rw [hother, dramLine_parityBit d hk, hself]

/-- R436, R438: a data byte with one bit turned over is not taken. -/
theorem dramLineRead_flip (hk : k < 64) {j : Nat} (hj : j < 8) :
    dramLineRead ((dramLine d).set k ((dramLine d).getD k 0 ^^^ BitVec.ofNat 8 (2 ^ j))) k = none := by
  rw [dramLineRead, byteGood_set d hk, parityBit_flip _ hj, Bool.beq_not_self, if_neg Bool.false_ne_true]

end Lines

/-- R436: a read of a tier takes the byte that its buffer's holder wrote. -/
theorem dramRead_eq (s : State) (tier a : Nat) : s.dramRead tier a = some (s.dramByte tier a) := by
  have hbyte : lineByte a < 64 := Nat.mod_lt _ (by decide)
  have haddr : 64 * lineOf a + lineByte a = a := Nat.div_add_mod a 64
  unfold State.dramRead State.dramLineAt
  rw [dramLineRead_dramLine _ hbyte, fitTo_of_length (by simp)]
  simp [hbyte, haddr]

/-! ### The statement -/

/-- Settles O35: each clause is the effect of the event where its premises put it, and a DRAM line's parity is its definition bit by
bit. -/
theorem parityAndCopies : Obligations.ParityAndCopies := by
  refine ⟨fun _ _ _ _ _ _ _ => rfl, ?context, ?vocabulary, ?resident, ?batch, ?heat, ?stream, ?missing, ?running, ?copy, ?line,
    dramRead_eq⟩
  case context =>
    intro s n u p b a c hc
    rw [exec_parityError, parity_context hc]
  case vocabulary =>
    intro s v n u a c hc hv
    rw [exec_parityError, parity_vocabulary hc hv]
  case resident =>
    intro s n d i g u a c ds hc hd hr w lose
    have heq : s.parity (.resident n d i g u a) = _ := residentParity_eq hc hd hr
    rw [exec_parityError, heq]
    exact ⟨fun hg => by rw [if_pos hg], fun hg => by rw [if_neg (by rw [hg]; decide)]; rfl⟩
  case batch =>
    intro s n rk k sl u a r b hr hb hs w v
    have heq : s.parity (.batch n rk k sl u a) = _ := batchParity_eq hr hb
    rw [exec_parityError, heq]
    exact ⟨fun ht => by rw [if_neg ht]; rfl, fun ht => by rw [if_pos ht]; rfl⟩
  case heat =>
    intro s n rk e h x u a r y i hr hy hi
    have heq : s.parity (.heat n rk e h x u a) = _ := heatParity_eq hr hy hi
    rw [exec_parityError, heq]
  case stream =>
    intro s k n u a t ht
    rw [exec_parityError, parity_stream ht]
  case missing =>
    intro s n c hc hst
    rw [exec_missingResponse, noResponse_eq hc, if_neg hst]
  case running =>
    intro s n c hq hc hst
    rw [exec_missingResponse, noResponse_eq hc, if_pos hst, settle_quiet hq]
  case copy =>
    intro s d i g ds hq hd
    refine ⟨fun hm hg hlt => ⟨_, ?_, rfl⟩, fun hg => ?_⟩
    · rw [exec_residentCopyGranule, copyGranule_good hd hm hg hlt]
      exact congrArg _ (settle_quiet hq)
    · rw [exec_residentCopyGranule, copyGranule_bad hd hg, settle_quiet hq]
  case line =>
    intro d k hk
    exact ⟨length_dramLine d, dramLineRead_dramLine d hk, fun j hj => dramLineRead_flip d hk hj⟩

end Sys2Proof.Machine
end

section
/-!
PROOFS. The catalogue (R61 to R68, R158, R772): what a register or remove command does in its turn and out of it, what its record does
when it is durable, and the statement O29 from that.
-/
namespace Sys2Proof.Machine

/-! ### The turn and the mount -/

theorem exec_catalogueRegister {s : State} {q i : Nat} {c : Cmd} (h : s.readyCmd q i 0x04 (some 0x30) = some c) :
    exec (.catalogueRegister q i) s = .next (s.registerCmd c).settle := atCmd_ready (f := fun c s => s.registerCmd c) h

theorem exec_catalogueRemove {s : State} {q i : Nat} {c : Cmd} (h : s.readyCmd q i 0x04 (some 0x31) = some c) :
    exec (.catalogueRemove q i) s = .next (s.removeDataset c).settle := atCmd_ready (f := fun c s => s.removeDataset c) h

/-- R694: with the media mounted a feature does not wait. -/
theorem whenMounted_mounted {s : State} {f : State → State} (h : s.media.stateCode ≠ 5) : s.whenMounted f = f s := by
  unfold State.whenMounted
  rw [if_neg (by rwa [beq_iff_eq])]

/-- R67: out of its turn a registration waits. -/
theorem registerCmd_outOfTurn {s : State} {c : Cmd} (h : s.catalogueTurn c = false) : s.registerCmd c = s := by
  unfold State.registerCmd
  rw [h, Bool.not_false, if_pos rfl]

/-- R67: out of its turn a removal waits. -/
theorem removeDataset_outOfTurn {s : State} {c : Cmd} (h : s.catalogueTurn c = false) : s.removeDataset c = s := by
  unfold State.removeDataset
  rw [h, Bool.not_false, if_pos rfl]

/-! ### Registration -/

/-- R772: a failed registration is logged, and completes with its status. -/
theorem registrationFailed_eq (s : State) (c : Cmd) (f : RegFail) :
    s.registrationFailed c f =
      ({ s with regLog := s.regLog.add 256 (regEntry f (manDset (slice c.data 64 (field c.data 48 4))) s.us) } : State).complete c
        (if f.status = 0x02 then .dataField f.off else { status := f.status }) := by
  simp only [State.registrationFailed, beq_iff_eq]

/-- R64 step 1: what the structure checks of a registration answer. -/
def State.registerStructure (s : State) (c : Cmd) : Option RegFail :=
  structureFail c.data s.numberTaken (s.takenExtents ++ s.registering c) s.media.capacity

section Register
variable {s : State} {c : Cmd} {f : RegFail} (ht : s.catalogueTurn c = true) (hm : s.media.stateCode ≠ 5)
include ht hm

theorem registerCmd_badStructure (h : s.registerStructure c = some f) : s.registerCmd c = s.registrationFailed c f := by
  unfold State.registerStructure at h
  simp only [State.registerCmd, ht, whenMounted_mounted hm, h, Bool.not_true, Bool.false_eq_true, if_false]

/-- R66: a media command fetched before it that covers its extents goes first. -/
theorem registerCmd_held (h : s.registerStructure c = none) (hh : s.registrationHeld c = true) : s.registerCmd c = s := by
  unfold State.registerStructure at h
  simp only [State.registerCmd, ht, whenMounted_mounted hm, h, hh, Bool.not_true, Bool.false_eq_true, if_false, if_true]

theorem registerCmd_badShards (h : s.registerStructure c = none) (hh : s.registrationHeld c = false)
    (hf : registerFail s.media c.data = some f) : s.registerCmd c = s.registrationFailed c f := by
  unfold State.registerStructure at h
  simp only [State.registerCmd, ht, whenMounted_mounted hm, h, hh, hf, Bool.not_true, Bool.false_eq_true, if_false]

theorem registerCmd_passes (h : s.registerStructure c = none) (hh : s.registrationHeld c = false)
    (hf : registerFail s.media c.data = none) : s.registerCmd c = s.writeRecord c (c.data.drop 64) := by
  unfold State.registerStructure at h
  simp only [State.registerCmd, ht, whenMounted_mounted hm, h, hh, hf, Bool.not_true, Bool.false_eq_true, if_false]

end Register

/-! ### Removal -/

/-- A RECIPE LOAD whose tables are being built names the dataset. -/
def State.loadNames (s : State) (n : Nat) : Prop :=
  ∃ x ∈ s.host.cmds, x.opc = 0x20 ∧ x.wait = .tables ∧ n ∈ imageDatasets x.data

theorem loadNames_iff {s : State} {n : Nat} :
    s.loadNames n ↔ (s.host.cmds.any fun x => x.opc == 0x20 && x.wait == .tables && (imageDatasets x.data).contains n) = true := by
  simp only [State.loadNames, List.any_eq_true, Bool.and_eq_true, beq_iff_eq, List.contains_eq_mem, decide_eq_true_eq, and_assoc]

section Remove
variable {s : State} {c : Cmd} {d : Dataset} (ht : s.catalogueTurn c = true) (hm : s.media.stateCode ≠ 5)
  (hd : s.dataset c.fval = some d)
include ht hm hd

/-- R158: a load under way that names the dataset goes first. -/
theorem removeDataset_loading (hl : s.loadNames c.fval) : s.removeDataset c = s := by
  simp only [State.removeDataset, ht, whenMounted_mounted hm, hd, loadNames_iff.1 hl, Option.isNone_some, Bool.not_true,
    Bool.false_eq_true, if_false, if_true]

/-- R61: a dataset that nothing uses leaves by a record. -/
theorem removeDataset_unused (hl : ¬s.loadNames c.fval) (hu : s.datasetUser c.fval = none) :
    s.removeDataset c = s.writeRecord c (leBytes 2 c.fval) := by
  rw [loadNames_iff] at hl
  simp only [State.removeDataset, ht, whenMounted_mounted hm, hd, hl, hu, Option.isNone_some, Bool.not_true, Bool.false_eq_true,
    if_false]

/-- R68: a dataset that a crew or sink uses stays. -/
theorem removeDataset_used {k : Nat} (hl : ¬s.loadNames c.fval) (hu : s.datasetUser c.fval = some k) :
    s.removeDataset c = s.complete c (.sequence (some k)) := by
  rw [loadNames_iff] at hl
  simp only [State.removeDataset, ht, whenMounted_mounted hm, hd, hl, hu, Option.isNone_some, Bool.not_true, Bool.false_eq_true,
    if_false]

end Remove

/-! ### Records -/

section Record
variable {s : State} {c : Cmd} {b : Bytes}

/-- R64 step 6: a record takes whole map units, at least one, and its command waits for their programs. -/
theorem writeRecord_written {l : List Nat} {m : Media}
    (h : s.media.metaWrite b (max 1 ((b.length + 16383) / 16384)) 0 = some (l, m)) :
    s.writeRecord c b = ((s.setMedia m).modCmd c.qid c.cid fun x => { x with wait := .programs, seqs := l }).settlePrograms := by
  have h' : s.media.metaWrite b (max 1 ((b.length + unitBytes - 1) / unitBytes)) 0 = some (l, m) := h
  simp only [State.writeRecord, h', State.awaitPrograms, Bool.false_eq_true, if_false]

/-- With no group to take it a record is not written. -/
theorem writeRecord_noGroup (h : s.media.metaWrite b (max 1 ((b.length + 16383) / 16384)) 0 = none) :
    s.writeRecord c b = s.complete c .writeFault := by
  have h' : s.media.metaWrite b (max 1 ((b.length + unitBytes - 1) / unitBytes)) 0 = none := h
  simp only [State.writeRecord, h']

end Record

/-- R64 step 6: the record of a registration is durable. -/
theorem finish_register {s : State} {c : Cmd} (ho : c.opc = 0x04) (hf : c.fid = 0x30) :
    s.finish c = (s.addDataset (registered c.data)).complete c .ok := by
  simp only [State.finish, ho, hf, bne_self_eq_false, Bool.false_eq_true, if_false]

/-- R61: the record of a removal is durable. -/
theorem finish_remove {s : State} {c : Cmd} (ho : c.opc = 0x04) (hf : c.fid = 0x31) (hu : s.datasetUser c.fval = none) :
    s.finish c = ({ s with catalogue := s.catalogue.filter fun d => d.dset != c.fval } : State).complete c .ok := by
  simp only [State.finish, ho, hf, hu, bne_self_eq_false, Bool.false_eq_true, if_false]

/-- A search among the entries that a filter keeps, where it keeps all that the search is for. -/
theorem find_filter_kept {α : Type} {p q : α → Bool} (l : List α) (h : ∀ x, q x = true → p x = true) :
    (l.filter p).find? q = l.find? q := by
  rw [List.find?_filter]
  congr
  funext x
  cases hq : q x with
  | false => simp
  | true => simp [h x hq]

/-- A search among the entries that a filter keeps, where it keeps none that the search is for. -/
theorem find_filter_gone {α : Type} {p q : α → Bool} (l : List α) (h : ∀ x, q x = true → p x = false) :
    (l.filter p).find? q = none := by
  refine List.find?_eq_none.2 fun x hx hq => ?_
  have hp : p x = true := (List.mem_filter.1 hx).2
  rw [h x hq] at hp
  exact Bool.false_ne_true hp

/-- The lower numbers hold no entry of this number, so the search meets the dataset entered. -/
theorem addDataset_dataset_self (s : State) (d : Dataset) : (s.addDataset d).dataset d.dset = some d := by
  unfold State.addDataset State.dataset
  rw [List.find?_append, find_filter_gone _ (by grind), Option.none_or]
  exact List.find?_cons_of_pos (beq_self_eq_true d.dset)

/-- Another number is found where it was: among the lower numbers or among the higher ones. -/
theorem addDataset_dataset_other (s : State) {d : Dataset} {n : Nat} (h : n ≠ d.dset) :
    (s.addDataset d).dataset n = s.dataset n := by
  unfold State.addDataset State.dataset
  rw [List.find?_append, List.find?_cons_of_neg (by simpa using Ne.symm h)]
  rcases Nat.lt_or_gt_of_ne h with hlow | hhigh
  · rw [find_filter_kept _ (by grind), find_filter_gone _ (by grind), Option.or_none]
  · rw [find_filter_gone _ (by grind), find_filter_kept _ (by grind), Option.none_or]

/-! ### The statement -/

/-- Settles O29: each clause is the effect of the command, or of its durable record, where the premises put it. -/
theorem catalogueChanges : Obligations.CatalogueChanges := by
  refine ⟨?register, ?record, ?registered, ?remove, fun _ _ => finish_remove, ?outOfTurn⟩
  case register =>
    intro s q i c hc ht hm
    rw [exec_catalogueRegister hc]
    split
    case h_1 f hf => rw [registerCmd_badStructure ht hm hf, registrationFailed_eq]
    case h_2 hf =>
      split
      case isTrue hh => rw [registerCmd_held ht hm hf hh]
      case isFalse hh =>
        rw [Bool.not_eq_true] at hh
        split
        case h_1 f hr => rw [registerCmd_badShards ht hm hf hh hr, registrationFailed_eq]
        case h_2 hr => rw [registerCmd_passes ht hm hf hh hr]
  case record =>
    intro s c b
    split
    case h_1 l m hw => rw [writeRecord_written hw]
    case h_2 hw => rw [writeRecord_noGroup hw]
  case registered =>
    intro s c ho hf
    exact ⟨finish_register ho hf, addDataset_dataset_self s _, fun n hn => addDataset_dataset_other s hn⟩
  case remove =>
    intro s q i c d hc ht hm hd loads
    rw [exec_catalogueRemove hc]
    refine ⟨fun hl hq => ?_, fun hl hu => ?_, fun hl k hu => ?_⟩
    · rw [removeDataset_loading ht hm hd hl, settle_quiet hq]
    · rw [removeDataset_unused ht hm hd hl hu]
    · rw [removeDataset_used ht hm hd hl hu]
  case outOfTurn =>
    intro s q i c hq ht
    refine ⟨fun hc => ?_, fun hc => ?_⟩
    · rw [exec_catalogueRegister hc, registerCmd_outOfTurn ht, settle_quiet hq]
    · rw [exec_catalogueRemove hc, removeDataset_outOfTurn ht, settle_quiet hq]

end Sys2Proof.Machine
end

section
/-!
PROOFS. Dealing and running (R57, R125, R165, R167 to R169): a crew's next position, a record's blocks and a unit's result, and the
statement O31 from that.
-/
namespace Sys2Proof.Machine

theorem exec_dealPosition (s : State) (n : Nat) : exec (.dealPosition n) s = .next (s.deal n).settle := rfl

theorem exec_flashBlockArrive (s : State) (n : Nat) : exec (.flashBlockArrive n) s = .next (s.blocksArrive n).settle := rfl

theorem exec_unitResultArrive (s : State) (n : Nat) : exec (.unitResultArrive n) s = .next (s.unitResult n).settle := rfl

/-! ### A crew deals -/

/-- R167: a crew that deals: OPEN or RUNNING, its job not stopped and let to deal. -/
def Run.deals (r : Run) : Prop := (r.crew.state = 2 ∨ r.crew.state = 3) ∧ r.job.stopped = false ∧ r.job.dealing = true

theorem Run.deals_iff {r : Run} :
    r.deals ↔ ((r.crew.state == 2 || r.crew.state == 3) && !r.job.stopped && r.job.dealing) = true := by
  simp only [Run.deals, Bool.and_eq_true, Bool.or_eq_true, beq_iff_eq, Bool.not_eq_true', and_assoc]

section Deal
variable {s : State} {n : Nat} {r : Run} (hr : s.run n = some r)
include hr

/-- R25: a sample that waits to be made again goes first. -/
theorem deal_again {c : Context} {l : List Context} (hd : r.deals) (ha : r.job.again = c :: l) : s.deal n = s.dealAgain r c := by
  simp only [State.deal, hr, Run.deals_iff.1 hd, ha, if_true]

theorem deal_first (hd : r.deals) (ha : r.job.again = []) : s.deal n = State.dealFirst r r.dealOrder s := by
  simp only [State.deal, hr, Run.deals_iff.1 hd, ha, if_true]

theorem deal_paused (hd : ¬r.deals) : s.deal n = s := by
  rw [Run.deals_iff] at hd
  simp only [State.deal, hr, hd, Bool.false_eq_true, if_false]

end Deal

section Ranks
variable {s : State} {r : Run} {k : RankJob}

/-- R167: the first rank of the order that can be dealt is. -/
theorem dealFirst_dealt (l : List RankJob) (h : (s.dealRank r k).1 = true) :
    State.dealFirst r (k :: l) s = (s.dealRank r k).2.tellBoundary r.crew.num k.epoch := by
  rcases hx : s.dealRank r k with ⟨b, t⟩
  rw [hx] at h
  subst h
  simp only [State.dealFirst, hx]

theorem dealFirst_passedOver (l : List RankJob) (h : (s.dealRank r k).1 = false) :
    State.dealFirst r (k :: l) s = State.dealFirst r l (s.dealRank r k).2 := by
  rcases hx : s.dealRank r k with ⟨b, t⟩
  rw [hx] at h
  subst h
  simp only [State.dealFirst, hx]

/-- R168, R169, R235: with a context, a place and a working buffer, the rank's position moves on and its first attempt is dealt. -/
theorem dealRank_dealt {n : Nat} (hn : s.pickContext r.crew.num [] = some n) (hp : (s.readyPlace r k).1 = true)
    (hw : ((s.readyPlace r k).2.drawWorking r.crew.num n).1 = true) :
    s.dealRank r k = (true, State.dealAttempt r 33
      (((s.readyPlace r k).2.drawWorking r.crew.num n).2.modJob r.crew.num fun j => j.modRank k.rank (RankJob.advance j))
      { num := n, st := .waitFlash, crew := r.crew.num, rank := k.rank, epoch := k.epoch, pos := k.q * r.job.m + k.rank
        tries := 0, sid := 0, origSid := r.job.sidAt k.epoch (k.q * r.job.m + k.rank) 0 } 0) := by
  rcases hx : s.readyPlace r k with ⟨b, t⟩
  rw [hx] at hp hw
  rcases hy : t.drawWorking r.crew.num n with ⟨d, u⟩
  rw [hy] at hw
  subst hp hw
  simp only [State.dealRank, hn, hx, hy]

end Ranks

section Advance
variable {j : Job} {k : RankJob}

theorem advance_dealt : (RankJob.advance j k).dealt = k.dealt + 1 := rfl

theorem advance_within (h : k.q + 1 < j.q) : (RankJob.advance j k).q = k.q + 1 ∧ (RankJob.advance j k).epoch = k.epoch := by
  have hlast : (k.q + 1 == j.q) = false := beq_false_of_ne (Nat.ne_of_lt h)
  simp only [RankJob.advance, hlast, Bool.false_eq_true, if_false, and_self]

/-- After an epoch's last position comes the first of the next epoch. -/
theorem advance_last (h : k.q + 1 = j.q) : (RankJob.advance j k).q = 0 ∧ (RankJob.advance j k).epoch = k.epoch + 1 := by
  have hlast : (k.q + 1 == j.q) = true := beq_iff_eq.2 h
  simp only [RankJob.advance, hlast, if_true, and_self]

end Advance

/-! ### A context runs on -/

section Outcome
variable {s : State} {r : Run} {c : Context}

theorem outcome_runs (c' : Context) : s.outcome r c (.inl c') = s.modCtx c.num fun _ => c' := rfl

theorem outcome_drop (d : Drop) (h : c.peerOf = none) : s.outcome r c (.inr d) = s.dropSample r c d := by
  simp only [State.outcome, h, Option.isSome_none, Bool.false_eq_true, if_false]

/-- R653: a peer making that drops has no output. -/
theorem outcome_peerDrop (d : Drop) (h : c.peerOf ≠ none) :
    s.outcome r c (.inr d) = s.modCtx c.num fun x => { x with out := none, st := .sent } := by
  simp only [State.outcome, Option.isSome_iff_ne_none.2 h, if_true]

end Outcome

/-- R447: the working buffer of context n, drawn where it is not there yet. -/
def State.needWorking (s : State) (crew n : Nat) : Bool × State :=
  if s.hasRef (.context n) = true then (true, s) else s.drawWorking crew n

section Blocks
variable {s : State} {n : Nat} {c : Context} {r : Run} (hc : s.ctx n = some c) (hr : s.run c.crew = some r)
  (hst : c.st = .waitFlash) (hm : s.media.mounted = true)
include hc hr hst hm

theorem blocksArrive_noBuffer (h : (s.needWorking c.crew n).1 = false) : s.blocksArrive n = (s.needWorking c.crew n).2 := by
  unfold State.needWorking at h ⊢
  simp only [State.blocksArrive, hc, hr, hst, hm, h, bne_self_eq_false, Bool.not_true, Bool.or_self, Bool.not_false,
    Bool.false_eq_true, if_false, if_true]

/-- R57, R125: the stages run on the record read. -/
theorem blocksArrive_runs {c' : Context} (h : (s.needWorking c.crew n).1 = true)
    (hf : stageFetch r c (readRecord (s.needWorking c.crew n).2.media (r.job.slbaOf c.sid) (c.sid % 2 ^ 24)) = .inl c') :
    s.blocksArrive n = (s.needWorking c.crew n).2.outcome r c (runStages r 33 c') := by
  unfold State.needWorking at h hf ⊢
  simp only [State.blocksArrive, hc, hr, hst, hm, h, hf, bne_self_eq_false, Bool.not_true, Bool.or_self, Bool.false_eq_true, if_false]

theorem blocksArrive_drops {d : Drop} (h : (s.needWorking c.crew n).1 = true)
    (hf : stageFetch r c (readRecord (s.needWorking c.crew n).2.media (r.job.slbaOf c.sid) (c.sid % 2 ^ 24)) = .inr d) :
    s.blocksArrive n = (s.needWorking c.crew n).2.outcome r c (.inr d) := by
  unfold State.needWorking at h hf ⊢
  simp only [State.blocksArrive, hc, hr, hst, hm, h, hf, bne_self_eq_false, Bool.not_true, Bool.or_self, Bool.false_eq_true, if_false]

end Blocks

section Unit
variable {s w : State} {n : Nat} {c : Context} {r : Run} (hc : s.ctx n = some c) (hr : s.run c.crew = some r)
  (hst : c.st = .waitUnit) (hk : c.askedTag = none)
include hc hr hst hk

/-- R165: the context runs on with its unit's result. -/
theorem unitResult_runs {c' : Context} (h : stageUnit s r c (rcpStage r.rc.image c.stage) = (w, .inl c')) :
    s.unitResult n = w.outcome r c (runStages r 33 { c' with st := .run }) := by
  simp only [State.unitResult, hc, hr, hst, hk, h, bne_self_eq_false, Option.isSome_none, Bool.or_self, Bool.false_eq_true, if_false]

theorem unitResult_drops {d : Drop} (h : stageUnit s r c (rcpStage r.rc.image c.stage) = (w, .inr d)) :
    s.unitResult n = w.outcome r c (.inr d) := by
  simp only [State.unitResult, hc, hr, hst, hk, h, bne_self_eq_false, Option.isSome_none, Bool.or_self, Bool.false_eq_true, if_false]

end Unit

/-! ### The statement -/

/-- Settles O31: each clause is the effect of the event, or of a step of dealing, where the premises put it. -/
theorem positionsDealtAndRun : Obligations.PositionsDealtAndRun := by
  refine ⟨?deal, ?order, ?rank, ?paused, fun _ _ => ⟨advance_dealt, advance_within, advance_last⟩, ?blocks, ?unit, ?outcome⟩
  case deal =>
    intro s n r hr hst hstop hdeal
    have hd : r.deals := ⟨hst, hstop, hdeal⟩
    rw [exec_dealPosition]
    split
    case h_1 c l ha => rw [deal_again hr hd ha]
    case h_2 ha => rw [deal_first hr hd ha]
  case order =>
    intro r k l s
    exact ⟨rfl, dealFirst_dealt l, dealFirst_passedOver l⟩
  case rank =>
    intro s r k n hn hp hw
    exact dealRank_dealt hn hp hw
  case paused =>
    intro s n r hq hr hno
    have hd : ¬r.deals := by
      rintro ⟨-, hstop, hdeal⟩
      rcases hno with h | h
      · rw [hstop] at h; cases h
      · rw [hdeal] at h; cases h
    rw [exec_dealPosition, deal_paused hr hd, settle_quiet hq]
  case blocks =>
    intro s n c r hc hr hst hm x
    rw [exec_flashBlockArrive]
    split
    case isFalse hx => rw [blocksArrive_noBuffer hc hr hst hm (Bool.eq_false_of_not_eq_true hx)]; rfl
    case isTrue hx =>
      split
      case h_1 c' hf => rw [blocksArrive_runs hc hr hst hm hx hf]; rfl
      case h_2 d hf => rw [blocksArrive_drops hc hr hst hm hx hf]; rfl
  case unit =>
    intro s n c r hc hr hst hk
    rw [exec_unitResultArrive]
    split
    case h_1 w c' h => rw [unitResult_runs hc hr hst hk h]
    case h_2 w d h => rw [unitResult_drops hc hr hst hk h]
  case outcome =>
    intro s r c c' d
    exact ⟨outcome_runs c', outcome_drop d, outcome_peerDrop d⟩

end Sys2Proof.Machine
end

section
/-!
PROOFS. Samples and shards over the job domain (R41, R102, R228, R267, R612, R614, R616 to R619): what each packet or timer does, branch
by branch, and the statement O45 from that.
-/
namespace Sys2Proof.Machine

/-! ### Packets taken from the inbox -/

/-- The state once a packet has left the inbox. -/
def State.withoutPacket (s : State) (b : Bytes) : State := s.modDomain fun d => { d with inbox := d.inbox.erase b }

theorem takeInbox_found {s : State} {t : Nat} {b : Bytes} (h : (s.domain.inbox.find? fun p => pktType (p.drop 1) == t) = some b) :
    s.takeInbox t = some (field b 0 1, b.drop 1, s.withoutPacket b) := by
  simp only [State.takeInbox, h, State.withoutPacket]

/-! ### Prepare requests -/

theorem exec_prepareRequestReceive (s : State) : exec .prepareRequestReceive s = .next s.takePrepare.settle := rfl

/-- R617: the context that prepares, for the device that asks, the sample of a request. -/
def prepareCtx (r : Run) (n : Nat) (p : Bytes) : Context :=
  let b := pktBody p
  let sid := field b 0 8
  let orig := r.job.sidAt (field b 8 4) (field b 16 8) 0
  { num := n, st := .waitFlash, crew := r.crew.num, rank := field b 14 2, epoch := field b 8 4, pos := field b 16 8
    tries := if field b 12 1 = 0 ∧ sid = orig then 0 else field b 12 1 + 1, sid := sid, origSid := orig, remote := some (pktSrc p, pktTag p) }

section Prepare
variable {s w : State} {a : Nat} {p : Bytes} {r : Run} (ht : s.takeInbox 0x01 = some (a, p, w))
  (hr : w.jobRun (field (pktBody p) 13 1) = some r)
include ht hr

/-- R41: a request for no sample of the dataset is discarded. -/
theorem takePrepare_noSample (hv : sidValid r.job.manifest (field (pktBody p) 0 8) = false) : s.takePrepare = w := by
  simp only [State.takePrepare, ht, hr, hv, Bool.not_false, if_true]

section Valid
variable (hv : sidValid r.job.manifest (field (pktBody p) 0 8) = true)
include hv

/-- R102: with no context FREE the request waits in the inbox. -/
theorem takePrepare_noContext (hn : w.pickContext r.crew.num [] = none) : s.takePrepare = s := by
  simp only [State.takePrepare, ht, hr, hv, hn, Bool.not_true, Bool.false_eq_true, if_false]

variable {n : Nat} (hn : w.pickContext r.crew.num [] = some n)
include hn

/-- R617: with no working buffer the request waits too; only what the pools noted of the buffer asked for stays. -/
theorem takePrepare_noBuffer (hw : (w.drawWorking r.crew.num n).1 = false) :
    s.takePrepare = { s with mem := (w.drawWorking r.crew.num n).2.mem } := by
  rcases hx : w.drawWorking r.crew.num n with ⟨ok, t⟩
  rw [hx] at hw
  subst hw
  simp only [State.takePrepare, ht, hr, hv, hn, hx, Bool.not_true, Bool.false_eq_true, if_false]

theorem takePrepare_starts (hw : (w.drawWorking r.crew.num n).1 = true) :
    s.takePrepare = (w.drawWorking r.crew.num n).2.startCtx (prepareCtx r n p) := by
  rcases hx : w.drawWorking r.crew.num n with ⟨ok, t⟩
  rw [hx] at hw
  subst hw
  simp only [State.takePrepare, ht, hr, hv, hn, hx, prepareCtx, Bool.not_true, Bool.false_eq_true, if_false, Bool.and_eq_true,
    beq_iff_eq]

end Valid
end Prepare

/-! ### Prepared samples -/

theorem exec_preparedSampleReceive (s : State) : exec .preparedSampleReceive s = .next s.takePrepared.settle := rfl

/-- R618: the parts held of a device's sample under a tag. -/
def State.partsFrom (s : State) (src tag : Nat) : List (Nat × Bytes) :=
  match s.domain.partSamples.find? fun x => x.src == src && x.tag == tag with
  | some x => x.parts
  | none => []

/-- The samples arriving but a device's under a tag. -/
def State.partsElse (s : State) (src tag : Nat) : List PartSample :=
  s.domain.partSamples.filter fun x => !(x.src == src && x.tag == tag)

section Prepared
variable {s w : State} {a : Nat} {p : Bytes} {c : Context} (ht : s.takeInbox 0x02 = some (a, p, w))
  (hc : (w.contexts.find? fun c => c.askedTag == some (pktTag p)) = some c)
include ht hc

/-- R267: a part waits while its sender has 16 samples at the collector. -/
theorem takePrepared_full (hf : 16 ≤ w.forwarded c.crew (pktSrc p)) : s.takePrepared = s := by
  simp only [State.takePrepared, ht, hc, hf, if_true]

section Room
variable (hf : w.forwarded c.crew (pktSrc p) < 16)
include hf

theorem takePrepared_part (hj : joinParts (field (pktBody p) 4 4)
      (w.partsFrom (pktSrc p) (pktTag p) ++ [(field (pktBody p) 0 4, (pktBody p).drop 16)]) = none) :
    s.takePrepared = w.modDomain fun d => { d with partSamples := w.partsElse (pktSrc p) (pktTag p) ++
      [{ src := pktSrc p, tag := pktTag p, total := field (pktBody p) 4 4
         parts := w.partsFrom (pktSrc p) (pktTag p) ++ [(field (pktBody p) 0 4, (pktBody p).drop 16)] }] } := by
  unfold State.partsFrom at hj ⊢
  cases hold : w.domain.partSamples.find? fun x => x.src == pktSrc p && x.tag == pktTag p with
  | none | some x =>
    rw [hold] at hj
    simp only [State.takePrepared, ht, hc, Nat.not_le.2 hf, hold, hj, State.partsElse, if_false]

theorem takePrepared_whole {y : Bytes} (hj : joinParts (field (pktBody p) 4 4)
      (w.partsFrom (pktSrc p) (pktTag p) ++ [(field (pktBody p) 0 4, (pktBody p).drop 16)]) = some y) :
    s.takePrepared = (w.modDomain fun d => { d with partSamples := w.partsElse (pktSrc p) (pktTag p) }).wholeSample
      (pktSrc p) (pktTag p) (pktCoded p) y := by
  unfold State.partsFrom at hj
  cases hold : w.domain.partSamples.find? fun x => x.src == pktSrc p && x.tag == pktTag p with
  | none | some x =>
    rw [hold] at hj
    simp only [State.takePrepared, ht, hc, Nat.not_le.2 hf, hold, hj, State.partsElse, if_false]

end Room
end Prepared

/-! ### Shard copies -/

theorem exec_exchangeDataReceive (s : State) : exec .exchangeDataReceive s = .next s.takeExchange.settle := rfl

/-- R619: the state with a part of a shard kept by its offset. -/
def State.withPart (s : State) (p data : Bytes) : State :=
  s.modDomain fun x => x.addPart (field (pktBody p) 0 2) (field (pktBody p) 2 3) (pktSrc p) (field (pktBody p) 8 8) data

section Exchange
variable {s w : State} {a i : Nat} {p data : Bytes} {d : Dataset} (ht : s.takeInbox 0x03 = some (a, p, w))
  (hdata : (if pktCoded p then uncodeBlocks 2 ((pktBody p).drop 16) else some ((pktBody p).drop 16)) = some data)
  (hshard : field (pktBody p) 2 3 ≠ tableShard) (hd : w.datasetOf (field (pktBody p) 0 2) = some d)
  (hi : (d.place.findIdx? fun q => q.1 == field (pktBody p) 2 3) = some i) (hfar : isLocal (d.place.getD i (0, 0)).2 = false)
include ht hdata hshard hd hi hfar

theorem takeExchange_part
    (hj : joinParts (manSlen d.manifest i) ((w.withPart p data).copyParts (field (pktBody p) 0 2) (field (pktBody p) 2 3)) = none) :
    s.takeExchange = w.withPart p data := by
  unfold State.withPart at hj ⊢
  simp only [State.takeExchange, ht, hdata, beq_false_of_ne hshard, hd, hi, hfar, hj, Bool.false_eq_true, if_false]

/-- R616: a shard that is whole is written. -/
theorem takeExchange_whole {y : Bytes}
    (hj : joinParts (manSlen d.manifest i) ((w.withPart p data).copyParts (field (pktBody p) 0 2) (field (pktBody p) 2 3)) = some y) :
    s.takeExchange = (w.withPart p data).storeCopy (field (pktBody p) 0 2) (field (pktBody p) 2 3) y := by
  unfold State.withPart at hj ⊢
  simp only [State.takeExchange, ht, hdata, beq_false_of_ne hshard, hd, hi, hfar, hj, Bool.false_eq_true, if_false]

end Exchange

theorem exec_shardCopyDone (s : State) (d h : Nat) : exec (.shardCopyDone d h) s = .next (s.copyWhole d h).settle := rfl

/-- A shard registered at a new place. -/
def Dataset.moveShard (h a : Nat) (x : Dataset) : Dataset := { x with place := x.place.map fun p => if p.1 = h then (p.1, a) else p }

/-- R616: a copy whose programs all count as programmed is registered here. -/
theorem copyHeld_programmed {s : State} {d h a : Nat} {c : Copy}
    (hc : (s.domain.copies.find? fun c => c.dset == d && c.shard == h && c.dst == s.domain.deviceId) = some c) (ha : c.slba = some a)
    (hp : ∀ q ∈ c.seqs, s.media.under q = false) :
    s.copyHeld d h = ({ s with catalogue := updWhere (fun x => x.dset == d) (Dataset.moveShard h a) s.catalogue } : State).dropCopy d h := by
  have hdone : c.seqs.any s.media.under = false := by simpa using hp
  simp only [State.copyHeld, hc, ha, hdone, Bool.false_eq_true, if_false, beq_iff_eq]
  rfl

/-- Only at a manager does a copy that is whole go further. -/
theorem copyWhole_worker {s : State} {d h : Nat} (hr : (s.copyHeld d h).domain.role = 2) : s.copyWhole d h = s.copyHeld d h := by
  have hno : ((2 : Nat) == 1) = false := rfl
  simp only [State.copyWhole, hr, hno, Bool.false_eq_true, if_false]

/-! ### The wait for a manager -/

theorem exec_managerOpenTimeout (s : State) (n : Nat) : exec (.managerOpenTimeout n) s = .next (s.openTimeout n).settle := rfl

/-- R614: an open whose job no manager has announced is refused with cause 4. -/
theorem openTimeout_unannounced {s : State} {n j : Nat} {c : Cmd} {k : Crew}
    (hc : (s.host.cmds.find? fun c => c.opc == 0x21 && c.wait == .manager && c.crew == n) = some c) (hk : s.crew n = some k)
    (hj : k.domainJob = some j) (ha : s.announced j = none) : s.openTimeout n = s.complete c (refusal 0 4) := by
  simp only [State.openTimeout, hc, hk, Option.bind_some, hj, ha, Option.isSome_none, Bool.false_eq_true, if_false]

/-! ### The statement -/

/-- Settles O45: each clause is the branch of the packet's or timer's effect that its premises choose. -/
theorem samplesAndShardsOverTheDomain : Obligations.SamplesAndShardsOverTheDomain := by
  refine ⟨?prepare, ?prepared, ?exchange, ?copied, ?timeout⟩
  case prepare =>
    intro s b r hb w body sid hr
    have ht := takeInbox_found hb
    rw [exec_prepareRequestReceive]
    refine ⟨fun hv => ?_, fun hv hn => ?_, fun n hv hn => ?_⟩
    · rw [takePrepare_noSample ht hr hv]; rfl
    · rw [takePrepare_noContext ht hr hv hn]
    · intro x orig c
      split
      case isTrue hx => rw [takePrepare_starts ht hr hv hn hx]; rfl
      case isFalse hx => rw [takePrepare_noBuffer ht hr hv hn (Bool.eq_false_of_not_eq_true hx)]; rfl
  case prepared =>
    intro s b c hb w p body hc keep old parts
    have ht := takeInbox_found hb
    rw [exec_preparedSampleReceive]
    refine ⟨fun hf => ?_, fun hf => ?_⟩
    · rw [takePrepared_full ht hc hf]
    · split
      case h_1 hj => rw [takePrepared_part ht hc hf hj]; rfl
      case h_2 y hj => rw [takePrepared_whole ht hc hf hj]; rfl
  case exchange =>
    intro s b data i d hb w p body hdata hshard hd hi hfar u
    have ht := takeInbox_found hb
    rw [exec_exchangeDataReceive]
    split
    case h_1 hj => rw [takeExchange_part ht hdata hshard hd hi hfar hj]; rfl
    case h_2 y hj => rw [takeExchange_whole ht hdata hshard hd hi hfar hj]; rfl
  case copied =>
    intro s d h a c hq hrole hc ha hp put l
    have heq := copyHeld_programmed hc ha hp
    have hrole' : (s.copyHeld d h).domain.role = 2 := by rw [heq]; exact hrole
    have hq' : (s.copyHeld d h).quiet := by rw [heq]; exact hq
    rw [exec_shardCopyDone, copyWhole_worker hrole', settle_quiet hq', heq]
    rfl
  case timeout =>
    intro s n j c k hq hc hk hj ha
    have hq' : (s.complete c (refusal 0 4)).quiet := by rwa [State.quiet, complete_faults]
    rw [exec_managerOpenTimeout, openTimeout_unannounced hc hk hj ha, settle_quiet hq']

end Sys2Proof.Machine
end

section
/-!
PROOFS. Domain control packets and route probes (R101, R370, R609, R610, R613, R621, R623, R624, R626, R627): what each operation of a
control packet does to the device that takes it, what a probe and its answer do, and the statement O44 from that.
-/
namespace Sys2Proof.Machine

/-! ### The operations of a control packet -/

theorem exec_domainControlReceive (s : State) : exec .domainControlReceive s = .next s.takeControl.settle := rfl

section Control
variable {s w : State} {a : Nat} {p : Bytes} (ht : s.takeInbox 0x05 = some (a, p, w))
include ht

theorem takeControl_assign (hop : field (pktBody p) 0 1 = 0x01) : s.takeControl = w.controlId ((pktBody p).drop 8) := by
  simp only [State.takeControl, ht, hop]

theorem takeControl_open (hop : field (pktBody p) 0 1 = 0x02) :
    s.takeControl = w.controlOpen (pktSrc p) (field (pktBody p) 1 1) ((pktBody p).drop 8) := by
  simp only [State.takeControl, ht, hop]

theorem takeControl_epoch (hop : field (pktBody p) 0 1 = 0x03) (hr : w.domain.role = 2) :
    s.takeControl = w.controlEpoch (field (pktBody p) 1 1) ((pktBody p).drop 8) := by
  simp only [State.takeControl, ht, hop, hr, beq_self_eq_true, if_true]

theorem takeControl_abort (hop : field (pktBody p) 0 1 = 0x04) (hr : w.domain.role ≠ 1) :
    s.takeControl = w.controlAbort (field (pktBody p) 1 1) ((pktBody p).drop 8) := by
  simp only [State.takeControl, ht, hop, beq_false_of_ne hr, Bool.false_eq_true, if_false]

theorem takeControl_expel (hop : field (pktBody p) 0 1 = 0x05) : s.takeControl = w.controlExpel ((pktBody p).drop 8) := by
  simp only [State.takeControl, ht, hop]

theorem takeControl_probation (hop : field (pktBody p) 0 1 = 0x06) (hr : w.domain.role = 2) :
    s.takeControl = w.controlProbation ((pktBody p).drop 8) := by
  simp only [State.takeControl, ht, hop, hr, beq_self_eq_true, if_true]

/-- R624: the order to copy a shard of a dataset that the worker knows is carried out. -/
theorem takeControl_copy (hop : field (pktBody p) 0 1 = 0x07) (hr : w.domain.role = 2)
    (hd : (w.datasetOf (field ((pktBody p).drop 8) 0 2)).isSome = true) :
    s.takeControl =
      w.sendShard (field ((pktBody p).drop 8) 0 2) (field ((pktBody p).drop 8) 2 3) (field ((pktBody p).drop 8) 6 2) := by
  have hknown : (w.datasetOf (field ((pktBody p).drop 8) 0 2)).isNone = false := by
    rw [← Option.not_isSome, hd, Bool.not_true]
  simp only [State.takeControl, ht, hop, hr, hknown, bne_self_eq_false, Bool.false_eq_true, if_false]

/-- R621 gives an operation the numbers 1 to 7 alone: any other packet only leaves the inbox. -/
theorem takeControl_unknown (hop : field (pktBody p) 0 1 = 0 ∨ 7 < field (pktBody p) 0 1) : s.takeControl = w := by
  simp only [State.takeControl, ht]
  split
  case h_8 => rfl
  all_goals omega

end Control

/-! ### What the operations do -/

section Operations
variable {w : State} {ops : Bytes}

/-- R370, R610: an id that can be assigned makes the device a worker. -/
theorem controlId_assigned (hr : w.domain.role ≠ 1) (hid : field ops 0 2 % 4096 < noId) :
    w.controlId ops = w.modDomain fun d => { d with role := 2, deviceId := field ops 0 2 % 4096, routes := routesOf ops } := by
  simp only [State.controlId, beq_false_of_ne hr, Bool.false_eq_true, if_false, if_neg (Nat.not_le.2 hid)]

/-- R609: the address of a device without an id ends the membership. -/
theorem controlId_unassigned (hr : w.domain.role ≠ 1) (hid : noId ≤ field ops 0 2 % 4096) :
    w.controlId ops = w.modDomain Domain.left := by
  simp only [State.controlId, beq_false_of_ne hr, Bool.false_eq_true, if_false, if_pos hid]

/-- R101, R613: a job that takes from the manager its seed, the boundary when it is one of the job's epochs, and leave to deal (log
entry 141). -/
def Job.takeEpoch (ops : Bytes) (j : Job) : Job :=
  if jobE0 j.block ≤ field ops 16 4 ∧ field ops 16 4 ≤ jobElast j.block then
    { j with seed := field ops 0 16, dealing := true, boundary := max j.boundary (field ops 16 4) }
  else j

theorem controlEpoch_eq (job : Nat) :
    w.controlEpoch job ops =
      { w with crews := w.crews.map fun k => if k.domainJob == some job then { k with job := k.job.map (Job.takeEpoch ops) } else k } := by
  simp only [State.controlEpoch, Bool.and_eq_true, decide_eq_true_eq]
  rfl

theorem controlExpel_self (hr : w.domain.role ≠ 1) (hid : field ops 0 2 = w.domain.deviceId) :
    w.controlExpel ops = w.modDomain Domain.left := by
  simp only [State.controlExpel, beq_false_of_ne hr, hid, beq_self_eq_true, Bool.false_eq_true, if_false, if_true]

/-- R626, R627: at the manager, control 0x05 reports a worker, which is then expelled (log entry 82). -/
theorem controlExpel_manager (hr : w.domain.role = 1) (hm : ∃ m ∈ w.workers, m.id = field ops 0 2) :
    w.controlExpel ops = w.expel (field ops 0 2) := by
  have hany : (w.workers.any fun m => m.id == field ops 0 2) = true := by simpa using hm
  simp only [State.controlExpel, hr, hany, beq_self_eq_true, if_true]

theorem controlProbation_eq :
    w.controlProbation ops = w.modDomain fun d =>
      let rest := d.members.filter fun m => m.id != field ops 0 2
      { d with members := if field ops 2 1 = 1 then
          rest ++ [{ id := field ops 0 2, serial := zeros 16, cause := 0, route := [], probation := true }] else rest } := by
  simp only [State.controlProbation, beq_iff_eq]

end Operations

/-! ### Route probes -/

theorem exec_routeProbeReceive (s : State) : exec .routeProbeReceive s = .next s.takeProbe.settle := rfl

/-- R609: a manager whose Domain form awaits the answers to its probes. -/
def State.awaitsAnswers (s : State) : Prop := s.domain.role = 1 ∧ ∃ c ∈ s.host.cmds, c.opc = 0x04 ∧ c.fid = 0x23 ∧ c.wait = .probes

theorem State.awaitsAnswers_iff {s : State} :
    s.awaitsAnswers ↔
      (s.domain.role == 1 && s.host.cmds.any fun c => c.opc == 0x04 && c.fid == 0x23 && c.wait == .probes) = true := by
  simp only [State.awaitsAnswers, Bool.and_eq_true, List.any_eq_true, beq_iff_eq, and_assoc]

/-- R621: the answer leaves by the port of the probe's arrival, with as many hops as the probe made, and names this device. -/
theorem answerProbe_sent (s : State) (port : Nat) (p : Bytes) :
    ∃ l : List Nat, l.length = pktHops p - 1 ∧ s.answerProbe port p =
      (s.useFree (pktHops p - 1)).sendRoute 0x06 0 (pktSrc p) (port :: l) (pktTag p)
        ([0x01] ++ zeros 7 ++ fitTo 16 s.fuses.serial ++ [byteOf port]) :=
  ⟨(List.range (pktHops p - 1)).map fun i => Config.freeNat (s.free + i) % 64, by rw [List.length_map, List.length_range], rfl⟩

section Probe
variable {s w : State} {a : Nat} {p : Bytes} (ht : s.takeInbox 0x06 = some (a, p, w))
include ht

theorem takeProbe_probe (hb : field (pktBody p) 0 1 = 0) : s.takeProbe = w.answerProbe a p := by
  simp only [State.takeProbe, ht, hb]

theorem takeProbe_recorded (hb : field (pktBody p) 0 1 = 1) (hf : w.awaitsAnswers) :
    s.takeProbe = w.modDomain fun d => { d with answers := d.answers ++
      [(slice (pktBody p) 8 16, tagRoute (pktTag p), field (pktBody p) 24 1 + 256 * pktSrc p)] } := by
  simp only [State.takeProbe, ht, hb, State.awaitsAnswers_iff.1 hf, if_true]

theorem takeProbe_dropped (hb : field (pktBody p) 0 1 = 1) (hf : ¬w.awaitsAnswers) : s.takeProbe = w := by
  rw [State.awaitsAnswers_iff] at hf
  simp only [State.takeProbe, ht, hb, if_neg hf]

end Probe

/-! ### The statement -/

/-- Settles O44: each clause is the branch of the packet's effect that its operation and the device's role choose. -/
theorem controlAndProbePackets : Obligations.ControlAndProbePackets := by
  refine ⟨?control, ?probe⟩
  case control =>
    intro s b hb w body op job args id does
    have ht := takeInbox_found hb
    have hdoes {t : State} (h : s.takeControl = t) : does t := by
      subst h
      exact exec_domainControlReceive s
    refine ⟨fun hop hr hid => ?_, fun hop hr hid => ?_, fun hop => ?_, fun hop hr => ?_, fun hop hr => ?_, fun hop hr hid => ?_,
      fun hop hr hm => ?_, fun hop hr => ?_, fun hop hr hd => ?_, fun hop => ?_⟩
    · exact hdoes ((takeControl_assign ht hop).trans (controlId_assigned hr hid))
    · exact hdoes ((takeControl_assign ht hop).trans (controlId_unassigned hr hid))
    · exact hdoes (takeControl_open ht hop)
    · exact hdoes ((takeControl_epoch ht hop hr).trans (controlEpoch_eq _))
    · exact hdoes (takeControl_abort ht hop hr)
    · exact hdoes ((takeControl_expel ht hop).trans (controlExpel_self hr hid))
    · exact hdoes ((takeControl_expel ht hop).trans (controlExpel_manager hr hm))
    · exact hdoes ((takeControl_probation ht hop hr).trans controlProbation_eq)
    · exact hdoes (takeControl_copy ht hop hr hd)
    · exact hdoes (takeControl_unknown ht hop)
  case probe =>
    intro s b hb w p body forms
    have ht := takeInbox_found hb
    rw [exec_routeProbeReceive]
    refine ⟨fun h0 => ?_, fun h1 hf => ?_, fun h1 hf => ?_⟩
    · obtain ⟨l, hl, hsent⟩ := answerProbe_sent w (field b 0 1) p
      exact ⟨l, hl, by rw [takeProbe_probe ht h0, ← hsent]; rfl⟩
    · rw [takeProbe_recorded ht h1 hf]; rfl
    · rw [takeProbe_dropped ht h1 hf]; rfl

end Sys2Proof.Machine
end

section
/-!
PROOFS. Recipes and epochs opened (R149, R151, R156, R157, R565, R568, R694): a recipe's load, its set tables and an epoch's open, branch
by branch, and the statement O25 from that.
-/
namespace Sys2Proof.Machine

theorem exec_loadRecipe {s : State} {q i : Nat} {c : Cmd} (h : s.readyCmd q i 0x20 none = some c) :
    exec (.loadRecipe q i) s = .next (s.loadCmd c).settle := atCmd_ready (f := fun c s => s.loadCmd c) h

theorem exec_setTablesBuilt (s : State) (n : Nat) : exec (.setTablesBuilt n) s = .next (s.tablesBuilt n).settle := rfl

theorem exec_openEpoch {s : State} {q i : Nat} {c : Cmd} (h : s.readyCmd q i 0x21 none = some c) :
    exec (.openEpoch q i) s = .next (s.openCmd c).settle := atCmd_ready (f := fun c s => s.openCmd c) h

/-! ### Loading -/

/-- R157, R773: a rejected recipe's status completes the command, and Recipe rejected leaves its entry with the crew. -/
theorem rejectLoad_eq (s : State) (c : Cmd) (f : LoadFail) :
    s.rejectLoad c f = (if f.status = 0x20 then s.modCrew c.crew fun y => { y with
      rejection := some (rejectionEntry f c.qid c.cid c.data s.us) } else s).complete c { status := f.status } := by
  simp only [State.rejectLoad, beq_iff_eq]

section Load
variable {s : State} {c : Cmd} {k : Crew} (ht : s.jobTurn c = true) (hk : s.crew c.crew = some k) (h0 : k.state = 0)
include ht hk h0

/-- R694: while the media mount a load waits. -/
theorem loadCmd_mounting (hm : s.media.stateCode = 5) : s.loadCmd c = s := by
  simp only [State.loadCmd, jobCmd_turn ht hk (List.mem_singleton.2 h0), hm, beq_self_eq_true, if_true]

section Mounted
variable (hm : s.media.stateCode ≠ 5)
include hm

theorem loadCmd_rejected {f : LoadFail} (hl : loadRecipe s c.data = .inr f) : s.loadCmd c = s.rejectLoad c f := by
  simp only [State.loadCmd, jobCmd_turn ht hk (List.mem_singleton.2 h0), beq_false_of_ne hm, hl, Bool.false_eq_true, if_false]

variable {r : Recipe} (hl : loadRecipe s c.data = .inl r)
include hl

/-- R156: a recipe that binds no set is loaded at once. -/
theorem loadCmd_noSets (he : setStages r.image = []) : s.loadCmd c = (s.setLoaded c.crew r).complete c .ok := by
  simp only [State.loadCmd, jobCmd_turn ht hk (List.mem_singleton.2 h0), beq_false_of_ne hm, hl, he, crew_num hk,
    List.isEmpty_nil, Bool.false_eq_true, if_false, if_true]

variable (he : setStages r.image ≠ [])
include he

/-- R151: without buffers for every table the load ends, and only the fallbacks counted stay. -/
theorem loadCmd_noRoom (hx : (s.takeTables c.crew (setStages r.image)).1 = false) :
    s.loadCmd c = (s.afterFail (s.takeTables c.crew (setStages r.image)).2).complete c .quota := by
  rcases hy : s.takeTables c.crew (setStages r.image) with ⟨ok, t⟩
  rw [hy] at hx
  subst hx
  simp only [State.loadCmd, jobCmd_turn ht hk (List.mem_singleton.2 h0), beq_false_of_ne hm, hl, List.isEmpty_eq_false_iff.2 he,
    crew_num hk, hy, Bool.false_eq_true, if_false]

/-- R156: with its buffers taken a load waits for the tables. -/
theorem loadCmd_awaitsTables (hx : (s.takeTables c.crew (setStages r.image)).1 = true) :
    s.loadCmd c = ((s.takeTables c.crew (setStages r.image)).2.modCrew c.crew fun y => { y with loading := some r }).modCmd
      c.qid c.cid fun y => { y with wait := .tables } := by
  rcases hy : s.takeTables c.crew (setStages r.image) with ⟨ok, t⟩
  rw [hy] at hx
  subst hx
  simp only [State.loadCmd, jobCmd_turn ht hk (List.mem_singleton.2 h0), beq_false_of_ne hm, hl, List.isEmpty_eq_false_iff.2 he,
    crew_num hk, hy, Bool.false_eq_true, if_false]

end Mounted
end Load

/-! ### Set tables -/

/-- R149, log entry 135: the message of kind 0x13 for granule g of shard h of dataset d, from the walk unit of the crew's lowest eight. -/
def tableFault (s : State) (k : Crew) (n d h g : Nat) : Raise :=
  { unit := 0x200 + k.eights.headD 0, sub := 4, kind := 0x13, phys := some (s.physEight (k.eights.headD 0)), crew := some n
    addr := g, ctx := some (sampleId d h 0, 0) }

/-- The state with no load of the crew waiting for its tables. -/
def State.loadTaken (s : State) (n : Nat) : State := s.modCrew n fun y => { y with loading := none }

section Tables
variable {s : State} {n : Nat} {c : Cmd} {k : Crew} {r : Recipe}
  (hc : (s.host.cmds.find? fun c => c.opc == 0x20 && c.crew == n && c.wait == .tables) = some c) (hk : s.crew n = some k)
  (hr : k.loading = some r)
include hc hk hr

theorem tablesBuilt_loads {l : List SetTable} (hb : buildTables (s.loadTaken n) r.image = .inl l) :
    s.tablesBuilt n = ((s.loadTaken n).setLoaded n { r with tables := l }).complete c .ok := by
  unfold State.loadTaken at hb ⊢
  simp only [State.tablesBuilt, hc, hk, hr, Option.bind_some, Option.map_some, hb]

/-- R151: check 13 fails at stage p: the buffers are free again, the granule is reported, the recipe rejected. -/
theorem tablesBuilt_rejects {p d h g : Nat} (hb : buildTables (s.loadTaken n) r.image = .inr (p, d, h, g)) :
    s.tablesBuilt n = (((s.loadTaken n).freeTables n).raise (tableFault ((s.loadTaken n).freeTables n) k n d h g)).rejectLoad c
      (reject 0x0B p) := by
  unfold State.loadTaken at hb ⊢
  simp only [State.tablesBuilt, hc, hk, hr, Option.bind_some, Option.map_some, hb, tableFault]

end Tables

/-! ### Opening -/

section Open
variable {s : State} {c : Cmd} {k : Crew} (ht : s.jobTurn c = true) (hk : s.crew c.crew = some k) (h1 : k.state = 1)
include ht hk h1

/-- R694: while the media mount an open waits. -/
theorem openCmd_mounting (hm : s.media.stateCode = 5) : s.openCmd c = s := by
  simp only [State.openCmd, jobCmd_turn ht hk (List.mem_singleton.2 h1), hm, beq_self_eq_true, if_true]

theorem openCmd_mounted (hm : s.media.stateCode ≠ 5) : s.openCmd c = s.openEpoch c k := by
  simp only [State.openCmd, jobCmd_turn ht hk (List.mem_singleton.2 h1), beq_false_of_ne hm, Bool.false_eq_true, if_false]

end Open

section Judge
variable {s : State} {c : Cmd} {k : Crew} {r : Recipe} (hr : k.recipe = some r) (hd : k.domainJob = none)
include hr hd

/-- R568: outside a domain job an open block that passes opens its job. -/
theorem openEpoch_opens {j : Job} (hj : s.judgeOpen c k r none = .inr j) : s.openEpoch c k = s.openWith c k r j := by
  simp only [State.openEpoch, hr, hd, hj]

theorem openEpoch_refuses {x : Result × Bool} (hj : s.judgeOpen c k r none = .inl x) : s.openEpoch c k = s.refuseOpen c k r x := by
  simp only [State.openEpoch, hr, hd, hj]

end Judge

/-! ### The statement -/

/-- Settles O25: each clause is the branch of the command or event that its premises choose. -/
theorem recipeAndEpochOpened : Obligations.RecipeAndEpochOpened := by
  refine ⟨?load, ?tables, ?opened, ?mounting⟩
  case load =>
    intro s q i c k hc ht hk h0 hm
    obtain ⟨hq, hi, -⟩ := readyCmd_cmd hc
    rw [exec_loadRecipe hc]
    split
    case h_2 f hl => rw [loadCmd_rejected ht hk h0 hm hl, rejectLoad_eq]
    case h_1 r hl =>
      split
      case isTrue he => rw [loadCmd_noSets ht hk h0 hm hl he]
      case isFalse he =>
        dsimp only
        split
        case isTrue hx => rw [loadCmd_awaitsTables ht hk h0 hm hl he hx, hq, hi]
        case isFalse hx => rw [loadCmd_noRoom ht hk h0 hm hl he (Bool.eq_false_of_not_eq_true hx)]
  case tables =>
    intro s n c k r hc hk hr w
    rw [exec_setTablesBuilt]
    split
    case h_1 l hb => rw [tablesBuilt_loads hc hk hr hb]; rfl
    case h_2 p d h g hb => rw [tablesBuilt_rejects hc hk hr hb]; rfl
  case opened =>
    intro s q i c k r hc ht hk h1 hm hr hd
    rw [exec_openEpoch hc, openCmd_mounted ht hk h1 hm]
    split
    case h_1 j hj => rw [openEpoch_opens hr hd hj]
    case h_2 x hj => rw [openEpoch_refuses hr hd hj]
  case mounting =>
    intro s q i c k hq ht hk hm
    refine ⟨fun hc h0 => ?_, fun hc h1 => ?_⟩
    · rw [exec_loadRecipe hc, loadCmd_mounting ht hk h0 hm, settle_quiet hq]
    · rw [exec_openEpoch hc, openCmd_mounting ht hk h1 hm, settle_quiet hq]

end Sys2Proof.Machine
end

section
/-!
PROOFS. The work cap, crabs and the release of a sample (R152, R170 to R173, R175, R232, R264, R267, R653): what each event does to a
context, branch by branch, and the statement O32 from that.
-/
namespace Sys2Proof.Machine

theorem exec_workCapAbort (s : State) (n : Nat) : exec (.workCapAbort n) s = .next (s.capAbort n).settle := rfl

theorem exec_crabBudgetExpiry (s : State) (n : Nat) : exec (.crabBudgetExpiry n) s = .next (s.crabExpiry n).settle := rfl

theorem exec_sampleRelease (s : State) (n : Nat) : exec (.sampleRelease n) s = .next (s.releaseSample n).settle := rfl

/-! ### The work cap -/

/-- R152, R175: a sample beyond the cap and not sent is dropped. -/
theorem capAbort_drops {s : State} {n : Nat} {c : Context} {r : Run} (hc : s.ctx n = some c) (hr : s.run c.crew = some r)
    (hcap : c.capStage.isSome = true) (hst : c.st ≠ .sent) : s.capAbort n = s.outcome r c (.inr .capped) := by
  simp only [State.capAbort, hc, hr, hcap, bne_iff_ne.2 hst, Bool.and_self, if_true]

/-- A sample within the cap, or one sent, stays. -/
theorem capAbort_stays {s : State} {n : Nat} {c : Context} (hc : s.ctx n = some c) (h : c.capStage = none ∨ c.st = .sent) :
    s.capAbort n = s := by
  have hno : (c.capStage.isSome && c.st != .sent) = false := by
    rcases h with h | h <;> simp [h]
  cases hr : s.run c.crew <;> simp only [State.capAbort, hc, hr, hno, Bool.false_eq_true, if_false]

/-! ### Crabs -/

/-- R173: a position that is a crab already in its epoch is not counted again. -/
theorem noteCrab_counted {s : State} {c : Context} {j : Job} (h : j.crabs.contains (c.epoch, c.pos) = true) :
    s.noteCrab c j = s.raiseEngine c 0x10 c.epoch := by
  simp only [State.noteCrab, h, if_true]

theorem crabExpiry_crab {s : State} {n : Nat} {c : Context} (hc : s.ctx n = some c) (hb : c.crab = true) : s.crabExpiry n = s := by
  cases hr : s.run c.crew <;> simp only [State.crabExpiry, hc, hr, hb, if_true]

section Crab
variable {s : State} {n : Nat} {c : Context} {r : Run} (hc : s.ctx n = some c) (hr : s.run c.crew = some r) (hb : c.crab = false)
include hc hr hb

/-- R170, R172: a sample within the cap becomes a crab, is counted, and the crabs of its crew are judged. -/
theorem crabExpiry_becomesCrab (hcap : c.capStage = none) :
    s.crabExpiry n = ((s.modCtx n fun x => { x with crab := true }).noteCrab c r.job).judgeCrabs c.crew := by
  simp only [State.crabExpiry, hc, hr, hb, hcap, Option.isSome_none, Bool.false_eq_true, if_false]

/-- R174: past both cap and budget, a sample is dropped first and counted then. -/
theorem crabExpiry_capped (hcap : c.capStage ≠ none) : s.crabExpiry n = (s.outcome r c (.inr .capped)).noteCrab c r.job := by
  simp only [State.crabExpiry, hc, hr, hb, Option.isSome_iff_ne_none.2 hcap, Bool.false_eq_true, if_false, if_true]

end Crab

/-! ### Release -/

/-- R232, R653: a sample sent and joined to the collector's releases, on probation or not. -/
def State.joinReleases (s : State) (n crew : Nat) (doubt : Bool) : State :=
  (s.modCtx n fun x => { x with st := .sent, probation := doubt }).modJob crew fun j => { j with releases := j.releases ++ [n] }

section Release
variable {s : State} {n : Nat} {c : Context} {r : Run} {o : Contribution} (hc : s.ctx n = some c) (hr : s.run c.crew = some r)
  (ho : c.out = some o) (hst : c.st = .release)
include hc hr ho hst

/-- R267: a sample made for another device is sent to it. -/
theorem releaseSample_remote {d t : Nat} (hm : c.remote = some (d, t)) : s.releaseSample n = s.sendPrepared r c d t o := by
  simp only [State.releaseSample, hc, hr, ho, hst, hm, bne_self_eq_false, Bool.false_eq_true, if_false]

variable (hm : c.remote = none)
include hm

/-- R264: without a credit the sample stays. -/
theorem releaseSample_noCredit (h : s.hasCredit r c = false) : s.releaseSample n = s := by
  simp only [State.releaseSample, hc, hr, ho, hst, hm, h, bne_self_eq_false, Bool.not_false, Bool.false_eq_true, if_false, if_true]

variable (h : s.hasCredit r c = true)
include h

/-- R653, log entry 59: a peer making is marked as sent, nothing more. -/
theorem releaseSample_peer (hp : c.peerOf ≠ none) : s.releaseSample n = s.modCtx n fun x => { x with st := .sent } := by
  simp only [State.releaseSample, hc, hr, ho, hst, hm, h, Option.isSome_iff_ne_none.2 hp, bne_self_eq_false, Bool.not_true,
    Bool.false_eq_true, if_false, if_true]

variable (hp : c.peerOf = none)
include hp

theorem releaseSample_clean (hd : s.doubted c = []) : s.releaseSample n = s.joinReleases n c.crew false := by
  simp only [State.releaseSample, hc, hr, ho, hst, hm, h, hp, hd, State.joinReleases, Option.isSome_none, List.isEmpty_nil,
    bne_self_eq_false, Bool.not_true, Bool.false_eq_true, if_false]

/-- R653: a sample that a unit on probation served is made again by a peer. -/
theorem releaseSample_doubted (hd : s.doubted c ≠ []) :
    s.releaseSample n = (s.joinReleases n c.crew true).startPeer c [c.engine] := by
  simp only [State.releaseSample, hc, hr, ho, hst, hm, h, hp, List.isEmpty_eq_false_iff.2 hd, State.joinReleases,
    Option.isSome_none, bne_self_eq_false, Bool.not_true, Bool.not_false, Bool.false_eq_true, if_false, if_true]

end Release

/-! ### The statement -/

/-- Settles O32: each clause is the branch of the event that its premises choose. -/
theorem capCrabAndRelease : Obligations.CapCrabAndRelease := by
  refine ⟨?capped, ?uncapped, ?expires, fun _ _ _ => noteCrab_counted, ?crabAlready, ?release⟩
  case capped =>
    intro s n c r hc hr hcap hst
    rw [exec_workCapAbort, capAbort_drops hc hr hcap hst]
  case uncapped =>
    intro s n c hq hc h
    rw [exec_workCapAbort, capAbort_stays hc h, settle_quiet hq]
  case expires =>
    intro s n c r hc hr hb
    rw [exec_crabBudgetExpiry]
    refine ⟨fun hcap => ?_, fun hcap => ?_⟩
    · rw [crabExpiry_becomesCrab hc hr hb hcap]
    · rw [crabExpiry_capped hc hr hb hcap]
  case crabAlready =>
    intro s n c hq hc hb
    rw [exec_crabBudgetExpiry, crabExpiry_crab hc hb, settle_quiet hq]
  case release =>
    intro s n c r o hc hr ho hst
    rw [exec_sampleRelease]
    refine ⟨fun d t hm => ?_, fun hm h => ?_, fun hm h hp => ?_, fun hm h hp => ⟨fun hd => ?_, fun hd => ?_⟩⟩
    · rw [releaseSample_remote hc hr ho hst hm]
    · rw [releaseSample_noCredit hc hr ho hst hm h]
    · rw [releaseSample_peer hc hr ho hst hm h hp]
    · rw [releaseSample_clean hc hr ho hst hm h hp hd]; rfl
    · rw [releaseSample_doubted hc hr ho hst hm h hp hd]; rfl

end Sys2Proof.Machine
end

section
/-!
PROOFS. Ingest streams and the compression slices (R221 to R228, R563): what an ingest command does with its header or its bytes, what a
slice does for each kind of stream, and the statement O22 from that.
-/
namespace Sys2Proof.Machine

/-- A completion in a quiet state needs no delivery. -/
theorem complete_settle {s : State} (h : s.quiet) (c : Cmd) (r : Result) : (s.complete c r).settle = s.complete c r :=
  settle_quiet (by rwa [State.quiet, complete_faults])

/-! ### Opening -/

theorem exec_ingestOpen {s : State} {q i : Nat} {c : Cmd} (h : s.readyCmd q i 0x04 (some 0x08) = some c) :
    exec (.ingestOpen q i) s = .next (s.openIngest c).settle := atCmd_ready (f := fun c s => s.openIngest c) h

/-- R563: the stream that an ingest header opens. -/
def Ingest.ofHeader (c : Cmd) : Ingest :=
  { n := field c.data 0 1, crew := field c.data 1 1, qid := c.qid, mode := field c.data 2 1, doff := field c.data 4 4
    slba := field c.data 8 8, nblk := field c.data 16 8, endOff := field c.data 4 4 }

/-- R563: a header that holds opens its stream, after those that are open. -/
theorem openIngest_holds {s : State} {c : Cmd} (hl : c.short 32 = false) (hb : s.ingestBad c.data = none) :
    s.openIngest c =
      ({ s with host := { s.host with ingests := s.host.ingests ++ [Ingest.ofHeader c] } } : State).complete c .ok := by
  simp only [State.openIngest, hl, hb, Bool.false_eq_true, if_false]
  rfl

/-! ### WRITE with INGEST -/

theorem exec_ingestWrite {s : State} {q i : Nat} {c : Cmd} (h : s.readyCmd q i 0x11 none = some c) (hi : c.ingest = true) :
    exec (.ingestWrite q i) s = .next (s.ingestData c).settle := by
  calc exec (.ingestWrite q i) s = .next (if c.ingest then s.ingestData c else s).settle :=
        atCmd_ready (f := fun c s => if c.ingest then s.ingestData c else s) h
    _ = .next (s.ingestData c).settle := by rw [if_pos hi]

/-- R458: the data of a media command within its queue pair's quota do not pass it. -/
theorem overQuota_within {s : State} {c : Cmd} (h : c.dlen ≤ s.num 0x5820 0 * 1048576) : s.overQuota c = false :=
  decide_eq_false (Nat.not_lt.2 h)

/-- R563: the bytes of a WRITE handed to its stream: the WRITE waits until the blocks that its bytes complete are stored. -/
def State.takeIngest (s : State) (c : Cmd) (g : Ingest) : State :=
  let data := c.data.take c.dlen
  let w := s.modIngest g.n fun x => { x with
    pending := x.pending ++ data, olen := g.olen + data.length, writes := x.writes ++ [(c.qid, c.cid, g.olen + data.length)] }
  let u : State := { w with media := { w.media with hostBytes := w.media.hostBytes + data.length } }
  (u.modCmd c.qid c.cid fun x => { x with wait := .blocks }).settleIngest g.n

/-- R563: a WRITE that nothing holds back, to a stream of its queue pair that has room, hands its bytes over. -/
theorem ingestData_taken {s : State} {c : Cmd} {g : Ingest}
    (hup : ∀ f, s.mediaCmd c .readOnly f = f s) (hw : s.media.state < 2) (hquota : c.dlen ≤ s.num 0x5820 0 * 1048576)
    (hg : s.ingest c.istream = some g) (hqid : g.qid = c.qid) (hopen : g.closedOnly = false)
    (hext : s.inExtent c g.slba g.nblk = false) (hsec : s.media.inSecure g.slba g.nblk = false)
    (hfit : g.endWith (c.data.take c.dlen) ≤ 4096 * g.nblk)
    (hroom : s.media.over (g.slba + g.endOff / 4096) (ceilDiv (g.endWith (c.data.take c.dlen)) 4096 - g.endOff / 4096) = false) :
    s.ingestData c = s.takeIngest c g := by
  simp only [State.ingestData, hup, overQuota_within hquota, hg, hqid, hopen, hext, hsec, hroom, beq_false_of_ne (Nat.ne_of_lt hw),
    if_neg (Nat.not_lt.2 hfit), bne_self_eq_false, Bool.or_self, Bool.false_eq_true, if_false]
  rfl

/-! ### Compression slices -/

theorem exec_blockCompress_up {s : State} (hm : s.media.mounted = true) (hf : s.media.frozen = false) (b : BlockStream) :
    exec (.blockCompress b) s = .next (s.compress b).settle := by
  calc exec (.blockCompress b) s = .next (if s.media.mounted && !s.media.frozen then s.compress b else s).settle := rfl
    _ = .next (s.compress b).settle := by rw [hm, hf, Bool.not_false, Bool.and_self, if_pos rfl]

/-- A slice with no block to serve does nothing, whether or not the media run. -/
theorem exec_blockCompress_idle {s : State} {b : BlockStream} (hq : s.quiet) (h : s.compress b = s) :
    exec (.blockCompress b) s = .next s := by
  calc exec (.blockCompress b) s = .next (if s.media.mounted && !s.media.frozen then s.compress b else s).settle := rfl
    _ = .next s := by rw [h, ite_self, settle_quiet hq]

section Ingest
variable {s : State} {n : Nat} {g : Ingest} (hg : s.ingest n = some g)
include hg

/-- R228: a full block is served. -/
theorem compress_ingest_full (h : 65536 ≤ g.pending.length) : s.compress (.ingest n) = s.ingestBlock n := by
  simp only [State.compress, hg, decide_eq_true h, Bool.true_or, if_true]

/-- R228: a short block waits for more bytes or for the stream's end. -/
theorem compress_ingest_short (h : g.pending.length < 65536) (hc : s.ingestClosing n = false) : s.compress (.ingest n) = s := by
  simp only [State.compress, hg, decide_eq_false (Nat.not_le.2 h), hc, Bool.and_false, Bool.or_self, Bool.false_eq_true, if_false]

end Ingest

/-- R228: a sink's full block is served. -/
theorem compress_sink_full {s : State} {n : Nat} {k : Sink} (hk : s.sink n = some k) (h : 65536 ≤ k.pending.length) :
    s.compress (.sink n) = s.storeBlock n := by
  simp only [State.compress, hk, if_pos h]

/-- R225, R228: a block of a compressed exchange that does not verify raises the fault of the slice. -/
theorem compress_exchange_bad {s : State} {n : Nat} {b : Bytes} {k : Crew} {j : Job} (hk : s.crew n = some k) (hj : k.job = some j)
    (hx : j.exchange = 1) (hb : (compressBlock 1 (b.take 65536)).2 = true) : s.compress (.exchange n b) = s.compressFault n 0 := by
  simp only [State.compress, hk, Option.bind_some, hj, Option.map_some, hx, hb, beq_self_eq_true, Bool.and_self, if_true]

/-! ### Blocks of an ingest stream -/

/-- R221: the original bytes of a stream's next block. -/
def Ingest.nextBlock (g : Ingest) : Bytes := g.pending.take 65536

/-- R221 to R225: a stream's next block compressed, and whether its verification failed. -/
def Ingest.nextCompressed (g : Ingest) : Bytes × Bool := compressBlock g.mode g.nextBlock

/-- R51, R563: where a stream's next block begins on the media, in bytes: at the next offset that is a multiple of 16. -/
def Ingest.nextAddr (g : Ingest) : Nat := 4096 * g.slba + up16 g.endOff

/-- R221: the write of a stream's next block, with what stands before it in its first logical block. -/
def State.nextBlockWrite (s : State) (g : Ingest) : Option (List Nat × Media) :=
  let a := g.nextAddr
  let k := ceilDiv (a % 4096 + g.nextCompressed.1.length) 4096
  s.media.write (a / 4096) k (fitTo (4096 * k) (s.media.readBytes (4096 * (a / 4096)) (a % 4096) ++ g.nextCompressed.1))

/-- R221, R225: a stream's next block stored by a write of the media: its table entry is made, and a failed verification is a fault. -/
def State.nextBlockStored (s : State) (n : Nat) (g : Ingest) (l : List Nat) (m : Media) : State :=
  let w := if g.nextCompressed.2 then s.compressFault g.crew g.blocks.length else s
  let entry := (up16 g.endOff, g.nextCompressed.1.length, crc32c g.nextBlock)
  (((w.noteSeqs g l).modIngest n fun x => { x with
    pending := x.pending.drop 65536, blocks := x.blocks ++ [entry], endOff := entry.1 + entry.2.1 }).setMedia m).settleIngest n

/-- R221: the next block of a stream is stored where its write finds room, and otherwise waits. -/
theorem ingestBlock_eq {s : State} {n : Nat} {g : Ingest} (hg : s.ingest n = some g) :
    s.ingestBlock n = (s.nextBlockWrite g).elim s fun w => s.nextBlockStored n g w.1 w.2 := by
  simp only [State.ingestBlock, hg]
  change (match s.nextBlockWrite g with | none => s | some (l, m) => s.nextBlockStored n g l m) = _
  cases s.nextBlockWrite g <;> rfl

/-! ### Closing -/

theorem exec_ingestClose {s : State} {q i : Nat} {c : Cmd} (h : s.readyCmd q i 0x04 (some 0x09) = some c) :
    exec (.ingestClose q i) s = .next (s.closeIngest c).settle := atCmd_ready (f := fun c s => s.closeIngest c) h

/-- R51, R563: what a close of a stream writes to the host: its block table, its original length and its end. -/
def Ingest.closeData (g : Ingest) : Bytes := g.blocks.flatMap blockEntry ++ leBytes 8 g.olen ++ leBytes 8 g.endOff

/-- R563: with every block stored and programmed the stream ends, and its table goes to the host. -/
theorem closeIngest_whole {s : State} {c : Cmd} {g : Ingest} (hg : s.ingest c.fval = some g)
    (hw : ∀ d ∈ s.host.cmds, d.ingest = false) (hp : g.pending = []) (hd : 16 * g.blocks.length + 16 ≤ c.dlen)
    (hs : s.media.settled (4096 * g.slba + g.doff) (g.endOff - g.doff) = true) :
    s.closeIngest c = (({ s with host := { s.host with
      ingests := s.host.ingests.filter fun x => x.n != g.n } } : State).toHost c g.closeData).complete c .ok := by
  have hnone : (s.host.cmds.any fun d => d.opc == 0x11 && d.ingest && d.istream == g.n && d.order < c.order && d.untaken) = false :=
    List.any_eq_false.2 fun d hd => by simp [hw d hd]
  have hfit : ¬c.dlen < 16 * (g.blocks.length + ceilDiv ([] : Bytes).length 65536) + 16 := Nat.not_lt.2 hd
  simp only [State.closeIngest, hg, hnone, hp, if_neg hfit, hs, List.isEmpty_nil, Bool.not_true, Bool.or_self, Bool.false_eq_true,
    if_false]
  rfl

/-! ### The statement -/

/-- Settles O22: each clause is the effect of the command, or of the slice, where its premises put it. -/
theorem ingestStreams : Obligations.IngestStreams := by
  refine ⟨?opened, ?write, ?block, ?short, ?sink, ?exchange, ?close⟩
  case opened =>
    intro s q i c hq hc hl hb g
    rw [exec_ingestOpen hc, openIngest_holds hl hb, complete_settle]
    · rfl
    · exact hq
  case write =>
    intro s q i c g hc hi hw hquota hf hh hr hg hqid hopen hext hsec hfit hroom len w u
    obtain ⟨rfl, rfl, -⟩ := readyCmd_cmd hc
    have hup (f : State → State) : s.mediaCmd c .readOnly f = f s :=
      mediaCmd_up (Nat.le_of_lt hw) hf hh (by rw [hr, Bool.and_false])
    rw [exec_ingestWrite hc hi, ingestData_taken hup hw hquota hg hqid hopen hext hsec hfit hroom]
    rfl
  case block =>
    intro s n g hm hf hg hfull orig b off a k
    rw [exec_blockCompress_up hm hf, compress_ingest_full hg hfull, ingestBlock_eq hg]
    split
    case h_1 l m hw => rw [show s.nextBlockWrite g = some (l, m) from hw]; rfl
    case h_2 hw => rw [show s.nextBlockWrite g = none from hw]; rfl
  case short =>
    intro s n g hq hg hlt hc
    exact exec_blockCompress_idle hq (compress_ingest_short hg hlt hc)
  case sink =>
    intro s n k hm hf hk hfull
    rw [exec_blockCompress_up hm hf, compress_sink_full hk hfull]
  case exchange =>
    intro s n k j b hm hf hk hj hx hb
    rw [exec_blockCompress_up hm hf, compress_exchange_bad hk hj hx hb]
  case close =>
    intro s q i c g hq hc hg hw hp hd hs w
    rw [exec_ingestClose hc, closeIngest_whole hg hw hp hd hs, complete_settle]
    · rfl
    · exact hq

end Sys2Proof.Machine
end

section
/-!
PROOFS. Delivery of batches over CXL and by RDMA (R234, R262, R378 to R385, R591, R592): which batch of a rank goes next, what each event
of its delivery does, branch by branch, and the statement O34 from that.
-/
namespace Sys2Proof.Machine

theorem exec_batchTransmitStart (s : State) (n rk : Nat) :
    exec (.batchTransmitStart n rk) s = .next (s.startBatch n rk).settle := rfl

theorem exec_cxlBatchWrite (s : State) (n rk : Nat) : exec (.cxlBatchWrite n rk) s = .next (s.cxlWrite n rk).settle := rfl

theorem exec_rdmaAckReceive (s : State) (q n : Nat) : exec (.rdmaAckReceive q n) s = .next (s.rdmaAck q n).settle := rfl

theorem exec_transportTimeout (s : State) (q : Nat) : exec (.transportTimeout q) s = .next (s.transportTimeout q).settle := rfl

theorem exec_rnrNakReceive (s : State) (q : Nat) : exec (.rnrNakReceive q) s = .next (s.rnrNak q).settle := rfl

/-! ### The next batch of a rank -/

section Next
variable {r : Run} {k : RankJob} {b : Batch}

/-- R262: a crew that does not run, or is stopped, sends nothing. -/
theorem nextSend_paused (h : r.crew.state ≠ 3 ∨ r.job.stopped = true) : r.nextSend k = none :=
  if_pos (by simpa only [Bool.or_eq_true, bne_iff_ne] using h)

/-- A batch found in a job has the rank and the index it was looked up by. -/
theorem batch_some {j : Job} {rk i : Nat} (h : j.batch rk i = some b) : b.rank = rk ∧ b.k = i := by
  simpa only [Bool.and_eq_true, beq_iff_eq] using List.find?_some h

/-- R234: what makes a batch ready to go once every earlier one is gone. -/
def Batch.ready (b : Batch) (k : RankJob) : Prop :=
  b.tx = .idle ∧ b.desc.isSome = true ∧ b.k < k.granted ∧ ∀ w ∈ b.rewrites, w.awaited = false

theorem Batch.ready_iff : b.ready k ↔
    (b.tx == .idle && b.desc.isSome && b.k < k.granted && !b.rewrites.any (·.awaited)) = true := by
  simp [Batch.ready, and_assoc]

/-- R234: the batch that goes next is ready, and no earlier than the rank's next one. -/
theorem nextSend_some (h : r.nextSend k = some b) :
    r.crew.state = 3 ∧ r.job.stopped = false ∧ k.next ≤ b.k ∧ b.ready k := by
  have hrun : ¬(r.crew.state ≠ 3 ∨ r.job.stopped = true) := fun hp => by
    rw [nextSend_paused hp] at h
    cases h
  obtain ⟨hstate, hstop⟩ := not_or.1 hrun
  refine ⟨not_not.1 hstate, Bool.eq_false_of_not_eq_true hstop, ?_⟩
  rw [Run.nextSend, if_neg (by simpa only [Bool.or_eq_true, bne_iff_ne] using hrun)] at h
  dsimp only at h
  split at h
  case h_1 x hx =>
    obtain ⟨-, hk⟩ := batch_some hx
    obtain ⟨hready, hb⟩ := Option.ite_none_right_eq_some.1 h
    cases hb
    exact ⟨hk ▸ Nat.le_add_right .., Batch.ready_iff.2 hready⟩
  case h_2 => cases h

end Next

/-! ### A transmission begins -/

section Start
variable {s : State} {n rk : Nat} {r : Run} {k : RankJob} (hr : s.run n = some r) (hk : r.job.rank rk = some k)
include hr hk

theorem startBatch_none (hb : r.nextSend k = none) : s.startBatch n rk = s := by
  simp only [State.startBatch, hr, hk, hb]

variable {b : Batch} (hb : r.nextSend k = some b)
include hb

/-- R591: over CXL a batch is under way at once. -/
theorem startBatch_cxl (hc : tgtCxl k.target = true) :
    s.startBatch n rk = s.modJob n fun j => j.modBatch rk b.k fun b => { b with tx := .sending } := by
  simp only [State.startBatch, hr, hk, hb, hc, if_true]

/-- R383, R384: over RDMA its rows and its headers join the crew's transmit queue at the port of the queue pair. -/
theorem startBatch_rdma {p : RocePair} (hc : tgtCxl k.target = false) (hp : s.rp (tgtLqpn k.target) = some p)
    (he : p.err = false) (hresp : p.responder = false) :
    s.startBatch n rk = (s.modJob n fun j => j.modBatch rk b.k fun b => { b with tx := .sending }).queueAll p.port n
      (writeFrames p n rk b.k (regionAddr k.target b.k) (tgtRkey k.target) ((batchImage b).take (r.job.b * r.rc.rowBytes))
          ((batchImage b).drop (r.job.b * r.rc.rowBytes + 128)).isEmpty ++
        writeFrames p n rk b.k (regionAddr k.target b.k + r.job.b * r.rc.rowBytes + 128) (tgtRkey k.target)
          ((batchImage b).drop (r.job.b * r.rc.rowBytes + 128)) true) := by
  simp only [State.startBatch, hr, hk, hb, hc, hp, he, hresp, Bool.or_self, Bool.false_eq_true, if_false]

end Start

/-! ### A batch written over CXL -/

/-- R591: the image of a batch written to host memory: its rows, its headers, and its descriptor last and in order. -/
def State.writeBatch (s : State) (r : Run) (k : RankJob) (b : Batch) : State :=
  let rows := r.job.b * r.rc.rowBytes
  ((s.dmaWrites (regionAddr k.target b.k) ((batchImage b).take rows) s.host.relaxedOrdering).dmaWrites
    (regionAddr k.target b.k + rows + 128) ((batchImage b).drop (rows + 128)) s.host.relaxedOrdering).dmaWrites
      (regionAddr k.target b.k + rows) (b.desc.getD []) false

/-- R592: the interrupt that a target may ask for at the queue pair of the crew's job. -/
def State.signalDelivery (s : State) (r : Run) (k : RankJob) : State :=
  if tgtImm k.target then match s.qp r.job.qid with | some q => s.signal q.vector | none => s else s

/-- Writes to host memory leave the host interface as it is. -/
theorem dmaWrites_host (s : State) (a : Nat) (b : Bytes) (x : Bool) : (s.dmaWrites a b x).host = s.host :=
  List.foldlRecOn (motive := fun t : State => t.host = s.host) _ _ rfl fun _ ht _ _ => (send_host ..).trans ht

theorem signalDelivery_silent {s : State} {r : Run} {k : RankJob} (h : tgtImm k.target = false ∨ s.qp r.job.qid = none) :
    s.signalDelivery r k = s := by
  rcases h with h | h <;> simp only [State.signalDelivery, h, Bool.false_eq_true, if_false, ite_self]

theorem signalDelivery_interrupt {s : State} {r : Run} {k : RankJob} {q : QueuePair} (h : tgtImm k.target = true)
    (hq : s.qp r.job.qid = some q) : s.signalDelivery r k = s.signal q.vector := by
  simp only [State.signalDelivery, h, hq, if_true]

/-- R591, R592: a batch under way is written, signalled and delivered. -/
theorem cxlWrite_sending {s : State} {n rk : Nat} {r : Run} {k : RankJob} {b : Batch} (hr : s.run n = some r)
    (hk : r.job.rank rk = some k) (hb : (r.job.batches.find? fun b => b.rank == rk && b.tx == .sending) = some b)
    (hc : tgtCxl k.target = true) (hf : s.host.flit ≠ 0) :
    s.cxlWrite n rk = ((s.writeBatch r k b).signalDelivery r k).delivered n rk b.k := by
  simp only [State.cxlWrite, hr, hk, hb, hc, beq_false_of_ne hf, dmaWrites_host, Bool.not_true, Bool.or_self,
    Bool.false_eq_true, if_false]
  rfl

/-! ### Acknowledgements -/

/-- R384, R385: what an acknowledgement of packet i in flight, of PSN n, does to its queue pair: the packets up to it leave the flight and
the port, the counts of retries begin again, and the buffers that only their retry held are freed. -/
def State.ackFlight (s : State) (q n i : Nat) (p : RocePair) : State :=
  let next := (n + 1) % 16777216
  let w := (s.keepFrames p.port fun f => !(p.flight.take (i + 1)).contains f).modRp q fun p => { p with
    flight := p.flight.drop (i + 1), acked := next, retries := 0, rnrRetries := 0 }
  w.freeRef fun b => match b with | .retry x m => x == q && psnAcked next m | _ => false

/-- The batches that go over a queue pair: crew, rank and index. -/
def State.batchesOver (s : State) (q : Nat) : List (Nat × Nat × Nat) :=
  s.crews.flatMap fun c => match c.job with
    | some j => (j.batches.filter fun b => match j.rank b.rank with
        | some k => !tgtCxl k.target && tgtLqpn k.target == q
        | none => false).map fun b => (c.num, b.rank, b.k)
    | none => []

/-- Does a packet in flight carry PSN n? -/
def Frame.hasPsn (n : Nat) (f : Frame) : Bool :=
  match f.body with | .out (.rdma _ m _ _ _ _ _ _) => m == n | _ => false

/-- R384, R385: an acknowledgement of a packet in flight moves on every batch of its queue pair. -/
theorem rdmaAck_inFlight {s : State} {q n i : Nat} {p : RocePair} (hp : s.rp q = some p)
    (hi : p.flight.findIdx? (Frame.hasPsn n) = some i) :
    s.rdmaAck q n = ((s.ackFlight q n i p).batchesOver q).foldl (fun s x => s.ackBatch q x.1 x.2.1 x.2.2)
      (s.ackFlight q n i p) := by
  unfold State.rdmaAck
  rw [hp]
  dsimp only
  split
  case h_1 h => exact absurd (h.symm.trans hi) nofun
  case h_2 x h =>
    obtain rfl : x = i := Option.some.inj (h.symm.trans hi)
    rfl

/-! ### Retries -/

section Retry
variable {s : State} {q : Nat} {p : RocePair} (hp : s.rp q = some p) (he : p.err = false) (hf : p.flight ≠ [])
include hp he hf

theorem transportTimeout_resends (h : p.retries < p.retryMax) :
    s.transportTimeout q = (s.modRp q fun p => { p with retries := p.retries + 1 }).resend p := by
  simp only [State.transportTimeout, hp, he, List.isEmpty_eq_false_iff.2 hf, Nat.not_le.2 h, Bool.or_self, Bool.false_eq_true,
    if_false]

theorem transportTimeout_errs (h : p.retryMax ≤ p.retries) : s.transportTimeout q = s.rocePairError p := by
  simp only [State.transportTimeout, hp, he, List.isEmpty_eq_false_iff.2 hf, h, Bool.or_self, Bool.false_eq_true, if_false, if_true]

/-- R380: an RNR limit of 7 is none. -/
theorem rnrNak_resends (h : p.rnrMax = 7 ∨ p.rnrRetries < p.rnrMax) :
    s.rnrNak q = (s.modRp q fun p => { p with rnrRetries := p.rnrRetries + 1 }).resend p := by
  have hlimit : (p.rnrMax != 7 && decide (p.rnrMax ≤ p.rnrRetries)) = false := by
    simpa [imp_iff_not_or] using h
  simp only [State.rnrNak, hp, he, List.isEmpty_eq_false_iff.2 hf, hlimit, Bool.or_self, Bool.false_eq_true, if_false]

theorem rnrNak_errs (h7 : p.rnrMax ≠ 7) (h : p.rnrMax ≤ p.rnrRetries) : s.rnrNak q = s.rocePairError p := by
  simp only [State.rnrNak, hp, he, List.isEmpty_eq_false_iff.2 hf, bne_iff_ne.2 h7, h, decide_true, Bool.and_self, Bool.or_self,
    Bool.false_eq_true, if_false, if_true]

end Retry

/-! ### The statement -/

/-- Settles O34: each clause is the effect of the event on the batch, or the queue pair, where its premises put it. -/
theorem batchesDelivered : Obligations.BatchesDelivered := by
  refine ⟨?start, ?next, ?paused, ?cxl, ?ack, ?retry⟩
  case start =>
    intro s n rk r k b hr hk hb w
    refine ⟨fun hc => ?_, fun p hc hp he hresp => ?_⟩
    · rw [exec_batchTransmitStart, startBatch_cxl hr hk hb hc]
    · rw [exec_batchTransmitStart, startBatch_rdma hr hk hb hc hp he hresp]
  case next =>
    intro r k b hb
    obtain ⟨hstate, hstop, hfirst, htx, hdesc, hgranted, hrewrites⟩ := nextSend_some hb
    exact ⟨hstate, hstop, htx, hdesc, hgranted, hfirst, hrewrites⟩
  case paused =>
    intro s n rk r k hq hr hk hpaused
    rw [exec_batchTransmitStart, startBatch_none hr hk (nextSend_paused hpaused), settle_quiet hq]
  case cxl =>
    intro s n rk r k b hr hk hb hc hf img rows w
    have hw : s.writeBatch r k b = w := rfl
    rw [exec_cxlBatchWrite, cxlWrite_sending hr hk hb hc hf]
    refine ⟨fun hsilent => ?_, fun q himm hqp => ?_⟩
    · rw [hw, signalDelivery_silent hsilent]
    · rw [hw, signalDelivery_interrupt himm hqp]
  case ack =>
    intro s q n i p hp hi next w u mine
    rw [exec_rdmaAckReceive, rdmaAck_inFlight hp hi]
    rfl
  case retry =>
    intro s q p hp he hf
    rw [exec_transportTimeout, exec_rnrNakReceive]
    refine ⟨fun h => ?_, fun h => ?_, fun h => ?_, fun h7 h => ?_⟩
    · rw [transportTimeout_resends hp he hf h]
    · rw [transportTimeout_errs hp he hf h]
    · rw [rnrNak_resends hp he hf h]
    · rw [rnrNak_errs hp he hf h7 h]

end Sys2Proof.Machine
end

section
/-!
PROOFS. Vocabularies and grammars (R299 to R303, R325): what drawing and freeing buffers leaves alone, what a load or remove command does
with its number and its image, what its record does when it is durable, and the statement O30 from that.
-/
namespace Sys2Proof.Machine

/-! ### Drawing and freeing touch the buffers alone -/

/-- Two states that differ in their memory pools alone. -/
def State.sameButMem (s t : State) : Prop := ∃ m, t = { s with mem := m }

theorem State.sameButMem.refl (s : State) : s.sameButMem s := ⟨s.mem, rfl⟩

theorem State.sameButMem.trans {s t u : State} (h : s.sameButMem t) (h' : t.sameButMem u) : s.sameButMem u := by
  obtain ⟨m, rfl⟩ := h
  obtain ⟨n, rfl⟩ := h'
  exact ⟨n, rfl⟩

theorem foldl_sameButMem {α : Type} {f : State → α → State} (hf : ∀ (s : State) a, s.sameButMem (f s a)) (l : List α) (s : State) :
    s.sameButMem (l.foldl f s) := by
  exact List.foldlRecOn l f (State.sameButMem.refl s) fun t ht a _ => ht.trans (hf t a)

theorem tryTier_sameButMem {s t : State} {tier : Nat} {ref : BufRef} {use : BufUse} {bytes : Nat} {owners : List Nat}
    (h : s.tryTier tier ref use bytes owners = .granted t) : s.sameButMem t := by
  unfold State.tryTier at h
  split at h
  case h_1 => cases h
  case h_2 =>
    dsimp only at h
    split at h
    case isTrue => cases h; exact ⟨_, rfl⟩
    case isFalse => cases h

/-- R444, R447: a request that moves on to the fallback tier, unless one quota covers both tiers (`whole`). -/
def State.allocFallback (s : State) (use : BufUse) (ref : BufRef) (bytes : Nat) (owners : List Nat) (whole : Bool) : Bool × State :=
  match useFallback use with
  | none => (false, s)
  | some t =>
    if whole then (false, s) else
      let w : State := { s with mem := { s.mem with tierFallbacks := bumpTier s.mem.tierFallbacks (usePreferred use) } }
      match w.tryTier t ref use bytes owners with
      | .granted s' => (true, s')
      | _ => (false, w)

/-- R444: the preferred tier grants a request, or it moves on. -/
theorem alloc_eq (s : State) (use : BufUse) (ref : BufRef) (bytes : Nat) (owners : List Nat) :
    s.alloc use ref bytes owners = match s.tryTier (usePreferred use) ref use bytes owners with
      | .granted t => (true, t)
      | .noPool => s.allocFallback use ref bytes owners false
      | .noQuota => s.allocFallback use ref bytes owners (owners.any fun o => (s.payer use o).combined) := rfl

theorem allocFallback_sameButMem (s : State) (use : BufUse) (ref : BufRef) (bytes : Nat) (owners : List Nat) (whole : Bool) :
    s.sameButMem (s.allocFallback use ref bytes owners whole).2 := by
  unfold State.allocFallback
  split
  case h_1 => exact .refl s
  case h_2 =>
    split
    case isTrue => exact .refl s
    case isFalse =>
      dsimp only
      split
      case h_1 h => exact State.sameButMem.trans ⟨_, rfl⟩ (tryTier_sameButMem h)
      case h_2 => exact ⟨_, rfl⟩

theorem alloc_sameButMem (s : State) (use : BufUse) (ref : BufRef) (bytes : Nat) (owners : List Nat) :
    s.sameButMem (s.alloc use ref bytes owners).2 := by
  rw [alloc_eq]
  split
  case h_1 h => exact tryTier_sameButMem h
  case h_2 => exact allocFallback_sameButMem ..
  case h_3 => exact allocFallback_sameButMem ..

theorem leave_sameButMem (s : State) (owner : Nat) (b : Buf) : s.sameButMem (s.leave owner b) := by
  unfold State.leave
  dsimp only
  split
  · exact ⟨_, rfl⟩
  · exact ⟨_, rfl⟩

theorem serveWaiting_sameButMem (s : State) : s.sameButMem s.serveWaiting := by
  refine foldl_sameButMem (fun s w => ?_) _ s
  have ha := alloc_sameButMem s w.use (w.ref.getD (requestRef s.mem.next)) w.bytes [ownerId (useClass w.use) w.holder]
  split
  case h_1 h => rw [h] at ha; exact ha.trans ⟨_, rfl⟩
  case h_2 => exact .refl s

/-- R447, R452: the holders of buffers leave them, their waiting requests go, and what that frees is served: all in the pools. -/
theorem freeRef_sameButMem (s : State) (p : BufRef → Bool) : s.sameButMem (s.freeRef p) := by
  have hleft := foldl_sameButMem (fun s b => leave_sameButMem s (b.owners.headD (ownerId (useClass b.use) 0)) b)
    (s.mem.bufs.filter fun b => p b.ref) s
  unfold State.freeRef
  dsimp only
  split
  case isTrue => exact hleft.trans ⟨_, rfl⟩
  case isFalse => exact (hleft.trans ⟨_, rfl⟩).trans (serveWaiting_sameButMem _)

/-! ### Numbers in use -/

section Numbers
variable {α : Type} {l : List α} {num : α → Nat} {n : Nat}

theorem any_number_eq_false (h : ∀ v ∈ l, num v ≠ n) : (l.any fun v => num v == n) = false :=
  List.any_eq_false.2 fun v hv => by simpa using h v hv

theorem any_number_eq_true (h : ∃ v ∈ l, num v = n) : (l.any fun v => num v == n) = true := by simpa using h

end Numbers

/-! ### Loads -/

theorem exec_vocabularyLoad {s : State} {q i : Nat} {c : Cmd} (h : s.readyCmd q i 0x04 (some 0x40) = some c) :
    exec (.vocabularyLoad q i) s = .next (s.loadVocab c).settle := atCmd_ready (f := fun c s => s.loadVocab c) h

theorem exec_grammarLoad {s : State} {q i : Nat} {c : Cmd} (h : s.readyCmd q i 0x04 (some 0x42) = some c) :
    exec (.grammarLoad q i) s = .next (s.loadGrammar c).settle := atCmd_ready (f := fun c s => s.loadGrammar c) h

theorem within_iff {a b n : Nat} : within a b n = true ↔ a ≤ n ∧ n ≤ b := by simp [within]

/-- R299, R325: no earlier load writes a table of this number. -/
theorem loading_eq_false {s : State} {fid n : Nat}
    (h : ∀ x ∈ s.host.cmds, ¬(x.opc = 0x04 ∧ x.fid = fid ∧ x.wait = .programs ∧ field x.data 0 1 = n)) :
    s.loading fid n = false :=
  List.any_eq_false.2 fun x hx => by simpa [and_assoc] using h x hx

section Load
variable {s : State} {c : Cmd} (hm : s.media.stateCode ≠ 5) (hl : c.short 72 = false)
include hm hl

/-- R299: an image that holds, of a free number, is written once its buffer is drawn, and waits while there is none. -/
theorem loadVocab_free (hn : within 1 16 (field c.data 0 1) = true) (hv : ∀ v ∈ s.vocabs, v.num ≠ field c.data 0 1)
    (hw : s.loading 0x40 (field c.data 0 1) = false) (hi : vocBad (c.data.drop 8) = none) :
    s.loadVocab c = if (s.drawVocab (field c.data 0 1) (c.data.drop 8).length).1 = true
      then (s.drawVocab (field c.data 0 1) (c.data.drop 8).length).2.writeRecord c (c.data.drop 8)
      else (s.drawVocab (field c.data 0 1) (c.data.drop 8).length).2 := by
  simp only [State.loadVocab, whenMounted_mounted hm, hl, hn, any_number_eq_false hv, hw, hi, Bool.not_true, Bool.or_self, Bool.false_eq_true,
    if_false]
  rcases s.drawVocab (field c.data 0 1) (c.data.drop 8).length with ⟨granted, w⟩
  cases granted <;> rfl

theorem loadVocab_inUse (hv : ∃ v ∈ s.vocabs, v.num = field c.data 0 1) : s.loadVocab c = s.complete c (.dataField 0) := by
  simp only [State.loadVocab, whenMounted_mounted hm, hl, any_number_eq_true hv, Bool.or_true, Bool.true_or, Bool.false_eq_true,
    if_false, if_true]

/-- R325: an image that holds, of a free number, is written once its buffer is drawn, and waits while there is none. -/
theorem loadGrammar_free (hn : within 1 64 (field c.data 0 1) = true) (hv : ∀ v ∈ s.grammars, v.num ≠ field c.data 0 1)
    (hw : s.loading 0x42 (field c.data 0 1) = false) (hi : gramBad (c.data.drop 8) = none) :
    s.loadGrammar c = if (s.drawGrammar (field c.data 0 1) (c.data.drop 8).length).1 = true
      then (s.drawGrammar (field c.data 0 1) (c.data.drop 8).length).2.writeRecord c (c.data.drop 8)
      else (s.drawGrammar (field c.data 0 1) (c.data.drop 8).length).2 := by
  simp only [State.loadGrammar, whenMounted_mounted hm, hl, hn, any_number_eq_false hv, hw, hi, Bool.not_true, Bool.or_self, Bool.false_eq_true,
    if_false]
  rcases s.drawGrammar (field c.data 0 1) (c.data.drop 8).length with ⟨granted, w⟩
  cases granted <;> rfl

theorem loadGrammar_inUse (hv : ∃ v ∈ s.grammars, v.num = field c.data 0 1) : s.loadGrammar c = s.complete c (.dataField 0) := by
  simp only [State.loadGrammar, whenMounted_mounted hm, hl, any_number_eq_true hv, Bool.or_true, Bool.true_or, Bool.false_eq_true,
    if_false, if_true]

end Load

/-! ### Removals -/

theorem exec_vocabularyRemove {s : State} {q i : Nat} {c : Cmd} (h : s.readyCmd q i 0x04 (some 0x41) = some c) :
    exec (.vocabularyRemove q i) s = .next (s.removeVocab c).settle := atCmd_ready (f := fun c s => s.removeVocab c) h

theorem exec_grammarRemove {s : State} {q i : Nat} {c : Cmd} (h : s.readyCmd q i 0x04 (some 0x43) = some c) :
    exec (.grammarRemove q i) s = .next (s.removeGrammar c).settle := atCmd_ready (f := fun c s => s.removeGrammar c) h

section Remove
variable {s : State} {c : Cmd}

theorem removeVocab_absent (h : ∀ v ∈ s.vocabs, v.num ≠ c.fval) : s.removeVocab c = s.complete c (.capsuleField 24) := by
  simp only [State.removeVocab, any_number_eq_false h, Bool.not_false, if_true]

/-- R303: a vocabulary that a crew uses stays. -/
theorem removeVocab_used {k : Nat} (h : ∃ v ∈ s.vocabs, v.num = c.fval) (hu : s.vocabUser c.fval = some k) :
    s.removeVocab c = s.complete c (.sequence (some k)) := by
  simp only [State.removeVocab, any_number_eq_true h, hu, Bool.not_true, Bool.false_eq_true, if_false]

theorem removeVocab_unused (h : ∃ v ∈ s.vocabs, v.num = c.fval) (hu : s.vocabUser c.fval = none) :
    s.removeVocab c = s.writeRecord c (leBytes 1 c.fval) := by
  simp only [State.removeVocab, any_number_eq_true h, hu, Bool.not_true, Bool.false_eq_true, if_false]

theorem removeGrammar_absent (h : ∀ v ∈ s.grammars, v.num ≠ c.fval) : s.removeGrammar c = s.complete c (.capsuleField 24) := by
  simp only [State.removeGrammar, any_number_eq_false h, Bool.not_false, if_true]

theorem removeGrammar_there (h : ∃ v ∈ s.grammars, v.num = c.fval) : s.removeGrammar c = s.writeRecord c (leBytes 1 c.fval) := by
  simp only [State.removeGrammar, any_number_eq_true h, Bool.not_true, Bool.false_eq_true, if_false]

end Remove

/-! ### Durable records -/

section Finish
variable {s : State} {c : Cmd} (ho : c.opc = 0x04)
include ho

/-- R302: the record of a vocabulary is durable. -/
theorem finish_vocabularyLoad (hf : c.fid = 0x40) : s.finish c = ({ s with vocabs := s.vocabs ++
    [{ num := field c.data 0 1, image := c.data.drop 8, hash := sha384 (c.data.drop 8) }] } : State).complete c .ok := by
  simp only [State.finish, ho, hf, bne_self_eq_false, Bool.false_eq_true, if_false]

/-- R303: the record of a vocabulary's removal is durable: its buffer goes back with it. -/
theorem finish_vocabularyRemove (hf : c.fid = 0x41) (hu : s.vocabUser c.fval = none) :
    s.finish c = ({ s.freeRef fun b => b == vocabRef c.fval with
      vocabs := (s.freeRef fun b => b == vocabRef c.fval).vocabs.filter fun v => v.num != c.fval } : State).complete c .ok := by
  simp only [State.finish, ho, hf, hu, bne_self_eq_false, Bool.false_eq_true, if_false]

/-- R325: the record of a grammar is durable. -/
theorem finish_grammarLoad (hf : c.fid = 0x42) : s.finish c =
    ({ s with grammars := s.grammars ++ [{ num := field c.data 0 1, image := c.data.drop 8 }] } : State).complete c .ok := by
  simp only [State.finish, ho, hf, bne_self_eq_false, Bool.false_eq_true, if_false]

/-- R303, R325: the record of a grammar's removal is durable: its buffer goes back with it. -/
theorem finish_grammarRemove (hf : c.fid = 0x43) :
    s.finish c = ({ s.freeRef fun b => b == grammarRef c.fval with
      grammars := (s.freeRef fun b => b == grammarRef c.fval).grammars.filter fun v => v.num != c.fval } : State).complete c .ok := by
  simp only [State.finish, ho, hf, bne_self_eq_false, Bool.false_eq_true, if_false]

end Finish

/-! ### The statement -/

/-- Settles O30: each clause is the effect of the command, or of its durable record, where the premises put it; a removal's record takes
the table away and, of the rest, touches the pools alone. -/
theorem textTablesLoadAndLeave : Obligations.TextTablesLoadAndLeave := by
  refine ⟨?vocabularyLoad, ?vocabularyRemove, ?grammarLoad, ?grammarRemove, ?durable⟩
  case vocabularyLoad =>
    intro s q i c hc hm hl n
    rw [exec_vocabularyLoad hc]
    refine ⟨?_, fun v hv hn => ?_⟩
    · intro h1 h16 hv hw hi x
      rw [loadVocab_free hm hl (within_iff.2 ⟨h1, h16⟩) hv (loading_eq_false hw) hi]
    · rw [loadVocab_inUse hm hl ⟨v, hv, hn⟩]
      rfl
  case vocabularyRemove =>
    intro s q i c hc
    rw [exec_vocabularyRemove hc]
    refine ⟨fun hn => ?_, fun v hv hn => ⟨fun hu => ?_, fun k hu => ?_⟩⟩
    · rw [removeVocab_absent hn]
      rfl
    · rw [removeVocab_unused ⟨v, hv, hn⟩ hu]
    · rw [removeVocab_used ⟨v, hv, hn⟩ hu]
  case grammarLoad =>
    intro s q i c hc hm hl n
    rw [exec_grammarLoad hc]
    refine ⟨?_, fun v hv hn => ?_⟩
    · intro h1 h64 hv hw hi x
      rw [loadGrammar_free hm hl (within_iff.2 ⟨h1, h64⟩) hv (loading_eq_false hw) hi]
    · rw [loadGrammar_inUse hm hl ⟨v, hv, hn⟩]
      rfl
  case grammarRemove =>
    intro s q i c hc
    rw [exec_grammarRemove hc]
    refine ⟨fun hn => ?_, fun v hv hn => ?_⟩
    · rw [removeGrammar_absent hn]
      rfl
    · rw [removeGrammar_there ⟨v, hv, hn⟩]
  case durable =>
    intro s c ho
    refine ⟨finish_vocabularyLoad ho, fun hf hu => ?_, finish_grammarLoad ho, fun hf => ?_⟩
    · obtain ⟨m, hm⟩ := freeRef_sameButMem s fun b => b == vocabRef c.fval
      exact ⟨_, finish_vocabularyRemove ho hf hu, by rw [hm]⟩
    · obtain ⟨m, hm⟩ := freeRef_sameButMem s fun b => b == grammarRef c.fval
      exact ⟨_, finish_grammarRemove ho hf, by rw [hm]⟩

end Sys2Proof.Machine
end

section
/-!
PROOFS. Rollout sinks (R310 to R312, R332 to R334): what an open does with its header, what a flush and a close do on media that may
program, what is left when a sink is gone, and the statement O40 from that.
-/
namespace Sys2Proof.Machine

/-! ### Opening -/

theorem exec_rolloutSinkOpen {s : State} {q i : Nat} {c : Cmd} (h : s.readyCmd q i 0x04 (some 0x44) = some c) :
    exec (.rolloutSinkOpen q i) s = .next (s.openSink c).settle := atCmd_ready (f := fun c s => s.openSink c) h

/-- The first of a list of checks, where it fails, gives its offset. -/
theorem firstOff_cons_false (off : Nat) (l : List (Bool × Nat)) : firstOff ((false, off) :: l) = some off := rfl

/-- R311: a header that holds has version 1. -/
theorem sinkBad_none_version {s : State} {b : Bytes} (h : s.sinkBad b = none) : field b 0 1 = 1 := by
  by_contra hv
  have hbad : s.sinkBad b = some 0 := by simp only [State.sinkBad, beq_false_of_ne hv, firstOff_cons_false]
  rw [hbad] at h
  cases h

/-- R312: the catalogue with a rollout dataset in it, entered empty when it is new. -/
def State.withRollouts (s : State) (d : Nat) : State :=
  if (s.dataset d).isSome = true then s
  else s.addDataset { dset := d, kind := 4, manifest := rolloutManifest d, mhash := [], gen := 0, place := [] }

theorem withRollouts_faults (s : State) (d : Nat) : (s.withRollouts d).faults = s.faults := by
  unfold State.withRollouts
  split
  · rfl
  · rfl

/-- R80: the shard after those that a dataset has. -/
def State.nextShard (s : State) (d : Nat) : Nat :=
  match s.dataset d with | some x => (x.place.map fun p => p.1 + 1).foldl max 0 | none => 0

/-- R311: the image of a grammar, none where a sink names none. -/
def State.grammarImage (s : State) (n : Nat) : Bytes :=
  match s.grammars.find? fun v => v.num == n with | some v => v.image | none => []

/-- R311, R312: the sink that a header opens. -/
def Sink.ofHeader (s : State) (b : Bytes) : Sink :=
  { num := sinkNum b, image := b, shard := s.nextShard (sinkDset b), base := sinkSlba b, mode := s.num 0x7020 0,
    grammar := s.grammarImage (sinkGrammar b) }

/-- R310, R337: a sink added, its consumer line watched. -/
def State.addSink (s : State) (k : Sink) : State :=
  { s with sinks := s.sinks ++ [k], host := { s.host with watched := s.host.watched ++ [256 + k.num] } }

/-- R310: a crew that is EMPTY has no recipe. -/
def State.hasNoRecipe (s : State) (n : Nat) : Bool := match s.crew n with | some k => k.state == 0 | none => false

theorem hasNoRecipe_eq_false {s : State} {n : Nat} (h : ∀ k, s.crew n = some k → k.state ≠ 0) : s.hasNoRecipe n = false := by
  unfold State.hasNoRecipe
  split
  case h_1 k hk => exact beq_false_of_ne (h k hk)
  case h_2 => rfl

/-- R310 to R312: the checks of an open in their order, and the sink that it opens when they hold. -/
theorem openSink_eq (s : State) (c : Cmd) :
    s.openSink c =
      if s.features / 2 % 2 == 0 then s.complete c .licence
      else if field c.data 0 1 != 1 && !c.short 1 then s.complete c (.dataField 0)
      else if c.short 1152 || c.short (1152 + 8 * sinkPcount c.data) then s.complete c (.capsuleField 16)
      else if s.hasNoRecipe (sinkCrew c.data) then s.complete c (.sequence (some (sinkCrew c.data)))
      else match s.sinkBad c.data with
        | some off => s.complete c (.dataField off)
        | none =>
          let w := s.withRollouts (sinkDset c.data)
          (w.addSink (Sink.ofHeader w c.data)).complete c .ok := rfl

/-- R310, R767: without the rollout licence no sink opens. -/
theorem openSink_unlicensed {s : State} {c : Cmd} (h : s.features / 2 % 2 = 0) : s.openSink c = s.complete c .licence := by
  rw [openSink_eq, h, beq_self_eq_true, if_pos rfl]

/-- R310 to R312: an open that passes every check enters its dataset and opens its sink. -/
theorem openSink_opens {s : State} {c : Cmd} (hf : s.features / 2 % 2 = 1) (hh : c.short 1152 = false)
    (hp : c.short (1152 + 8 * sinkPcount c.data) = false) (hk : ∀ k, s.crew (sinkCrew c.data) = some k → k.state ≠ 0)
    (hb : s.sinkBad c.data = none) :
    s.openSink c = ((s.withRollouts (sinkDset c.data)).addSink
      (Sink.ofHeader (s.withRollouts (sinkDset c.data)) c.data)).complete c .ok := by
  simp only [openSink_eq, hf, sinkBad_none_version hb, hh, hp, hasNoRecipe_eq_false hk, hb, bne_self_eq_false, Bool.false_and,
    Bool.or_self, Bool.false_eq_true, if_false, Nat.reduceBEq]

/-! ### Flushing -/

theorem exec_rolloutSinkFlush {s : State} {q i : Nat} {c : Cmd} (h : s.readyCmd q i 0x04 (some 0x45) = some c) :
    exec (.rolloutSinkFlush q i) s = .next (s.flushSink c).settle := atCmd_ready (f := fun c s => s.flushSink c) h

theorem flushSink_closed {s : State} {c : Cmd} (h : s.sink c.fval = none) : s.flushSink c = s.complete c (.capsuleField 24) := by
  simp only [State.flushSink, h]

/-- R332: a flush seals the shard that was open as it was fetched, and waits for it. -/
theorem flushSink_open {s : State} {c : Cmd} {k : Sink} (hk : s.sink c.fval = some k) (hf : s.media.frozen = false) :
    s.flushSink c =
      ((if k.shard = c.first then s.seal c.fval else s).modCmd c.qid c.cid fun x => { x with wait := .sealing }).settleSeals := by
  simp only [State.flushSink, hk, hf, beq_iff_eq, Bool.false_eq_true, if_false]

/-! ### Closing -/

theorem exec_rolloutSinkClose {s : State} {q i : Nat} {c : Cmd} (h : s.readyCmd q i 0x04 (some 0x46) = some c) :
    exec (.rolloutSinkClose q i) s = .next (s.closeSinkCmd c).settle := atCmd_ready (f := fun c s => s.closeSinkCmd c) h

theorem closeSinkCmd_closed {s : State} {c : Cmd} (h : s.sink c.fval = none) :
    s.closeSinkCmd c = s.complete c (.capsuleField 24) := by
  simp only [State.closeSinkCmd, h, Option.isNone_none, if_true]

/-- R333: a close of an open sink, on media that may program, closes it and waits for its shards. -/
theorem closeSinkCmd_open {s : State} {c : Cmd} {k : Sink} (hk : s.sink c.fval = some k) (hf : s.media.frozen = false) :
    s.closeSinkCmd c = (s.modCmd c.qid c.cid fun x => { x with wait := .sealing }).closeSink c.fval := by
  simp only [State.closeSinkCmd, hk, hf, Option.isNone_some, Bool.false_eq_true, if_false]

theorem sinkGone_sink (s : State) (n d : Nat) : (s.sinkGone n d).sink n = none := by
  unfold State.sinkGone State.sink
  exact find_filter_gone _ fun k hk => by simpa using hk

theorem sinkGone_unwatched (s : State) (n d : Nat) : 256 + n ∉ (s.sinkGone n d).host.watched := by
  unfold State.sinkGone
  simp [List.mem_filter]

/-! ### The statement -/

/-- Settles O40: each clause is the effect of the command where its premises put it. -/
theorem sinksOpenFlushClose : Obligations.SinksOpenFlushClose := by
  refine ⟨?opened, ?unlicensed, ?flush, ?close, fun s n d => ⟨sinkGone_sink s n d, sinkGone_unwatched s n d⟩, ?absent⟩
  case opened =>
    intro s q i c hq hc hf hh hp hk hb d w top gram k
    refine ⟨?_, rfl, rfl, rfl, rfl, rfl, rfl, rfl⟩
    rw [exec_rolloutSinkOpen hc, openSink_opens hf hh hp hk hb, complete_settle]
    · rfl
    · exact (congrArg Faults.transit (withRollouts_faults s _)).trans hq
  case unlicensed =>
    intro s q i c hq hc hf
    rw [exec_rolloutSinkOpen hc, openSink_unlicensed hf, complete_settle hq]
  case flush =>
    intro s q i c k hc hk hf w
    obtain ⟨rfl, rfl, -⟩ := readyCmd_cmd hc
    rw [exec_rolloutSinkFlush hc, flushSink_open hk hf]
  case close =>
    intro s q i c k hc hk hf n w u v x
    obtain ⟨rfl, rfl, -⟩ := readyCmd_cmd hc
    rw [exec_rolloutSinkClose hc, closeSinkCmd_open hk hf]
    rfl
  case absent =>
    intro s q i c hq hk
    refine ⟨fun hc => ?_, fun hc => ?_⟩
    · rw [exec_rolloutSinkFlush hc, flushSink_closed hk, complete_settle hq]
      rfl
    · rw [exec_rolloutSinkClose hc, closeSinkCmd_closed hk, complete_settle hq]
      rfl

end Sys2Proof.Machine
end

section
/-!
PROOFS. The rollout return path (R313 to R315, R327 to R329, R335, R337, R339, R392): whose turn it is among the messages that wait, what a
message does at its stream, what the filter does with a stream that has ended, the record written back, a sink's interrupt, and the
statement O41 from that.
-/
namespace Sys2Proof.Machine

/-! ### The least of a list -/

/-- A list with an entry has a least one, and finds it. -/
theorem argmin_least {α : Type} (key : α → Nat) {l : List α} (h : l ≠ []) :
    ∃ y ∈ l, argmin key l = some y ∧ ∀ x ∈ l, key y ≤ key x := by
  induction l with
  | nil => exact absurd rfl h
  | cons a l ih =>
    rcases eq_or_ne l [] with rfl | hl
    · exact ⟨a, List.mem_singleton_self a, rfl, by simp⟩
    · obtain ⟨y, hy, hmin, hle⟩ := ih hl
      rcases Nat.lt_or_ge (key y) (key a) with hlt | hge
      · exact ⟨y, List.mem_cons_of_mem a hy, by simp only [argmin, hmin, if_pos hlt], List.forall_mem_cons.2 ⟨hlt.le, hle⟩⟩
      · exact ⟨a, List.mem_cons_self, by simp only [argmin, hmin, if_neg (Nat.not_lt.2 hge)],
          List.forall_mem_cons.2 ⟨le_rfl, fun x hx => hge.trans (hle x hx)⟩⟩

theorem argmin_id_eq {l : List Nat} {t : Nat} (ht : t ∈ l) (hmin : ∀ x ∈ l, t ≤ x) : argmin id l = some t := by
  obtain ⟨y, hy, hfound, hle⟩ := argmin_least id (List.ne_nil_of_mem ht)
  have heq : y = t := Nat.le_antisymm (hle t ht) (hmin y hy)
  rw [hfound, heq]

/-! ### The turn among the messages that wait -/

theorem exec_rolloutMessage (s : State) : exec .rolloutMessage s = .next s.nextMessage.settle := rfl

/-- R339: what names the stream of a message. -/
def msgKey (b : Bytes) : Nat := msgSink b * 4294967296 + msgStream b

/-- R339: the names of the streams that have messages waiting. -/
def State.waitingKeys (s : State) : List Nat := s.ingress.map fun x => msgKey x.2

/-- R339: the stream whose turn it is: the least from the last one served on, and from the first where there is none. -/
def State.messageTurn (s : State) : Option Nat :=
  let after := s.waitingKeys.filter fun n => s.textTurn ≤ n
  argmin id (if after.isEmpty then s.waitingKeys else after)

/-- R339: t is the stream whose turn it is. -/
def State.isTurn (s : State) (t : Nat) : Prop :=
  ∀ n ∈ s.waitingKeys, (s.textTurn ≤ t → s.textTurn ≤ n → t ≤ n) ∧ (t < s.textTurn → n < s.textTurn ∧ t ≤ n)

theorem messageTurn_eq {s : State} {t : Nat} (ht : t ∈ s.waitingKeys) (h : s.isTurn t) : s.messageTurn = some t := by
  unfold State.messageTurn
  dsimp only
  rcases Nat.lt_or_ge t s.textTurn with hlt | hge
  · have hafter : (s.waitingKeys.filter fun n => s.textTurn ≤ n) = [] :=
      List.filter_eq_nil_iff.2 fun n hn => by simpa using ((h n hn).2 hlt).1
    rw [hafter, List.isEmpty_nil, if_pos rfl]
    exact argmin_id_eq ht fun n hn => ((h n hn).2 hlt).2
  · have hmem : t ∈ s.waitingKeys.filter fun n => s.textTurn ≤ n := List.mem_filter.2 ⟨ht, decide_eq_true hge⟩
    rw [List.isEmpty_eq_false_iff.2 (List.ne_nil_of_mem hmem), if_neg Bool.false_ne_true]
    refine argmin_id_eq hmem fun n hn => ?_
    obtain ⟨hn, hle⟩ := List.mem_filter.1 hn
    exact (h n hn).1 hge (of_decide_eq_true hle)

/-- R339, R392: the oldest message of the stream whose turn it is leaves the ingress buffers for the text unit. -/
theorem nextMessage_taken {s : State} {n t : Nat} {b : Bytes} (ht : s.messageTurn = some t)
    (hf : (s.ingress.find? fun x => msgKey x.2 == t) = some (n, b)) :
    s.nextMessage = (({ s with ingress := s.ingress.erase (n, b), textTurn := t + 1 } : State).takeMessage b).judgeIngress n := by
  have hkey : msgKey b = t := by simpa using List.find?_some hf
  have hfind : (s.ingress.find? fun x => s.messageTurn == some (msgKey x.2)) = some (n, b) := by
    rw [← hf, ht]
    congr 1
    funext x
    rw [Option.some_beq_some, Bool.beq_comm]
  calc s.nextMessage = (match s.ingress.find? fun x => s.messageTurn == some (msgKey x.2) with
        | none => s
        | some (port, b) =>
          (({ s with ingress := s.ingress.erase (port, b), textTurn := msgKey b + 1 } : State).takeMessage b).judgeIngress port) := rfl
    _ = _ := by rw [hfind, ← hkey]

/-! ### A message at its stream -/

/-- R299: the image of a vocabulary, none where it is not loaded. -/
def State.vocabImage (s : State) (n : Nat) : Bytes :=
  match s.vocabs.find? fun v => v.num == n with | some v => v.image | none => []

/-- R314, R315: what becomes of a message: discarded, the first of its stream, out of its sequence, or the next. -/
theorem takeMessage_eq (s : State) (b : Bytes) :
    s.takeMessage b = match s.messageBad b with
      | some why => s.sinkEvent (msgSink b) { kind := 0x05, stream := msgStream b, prompt := msgPrompt b, endr := why }
      | none => match s.sink (msgSink b) with
        | none => s
        | some k => match s.stream k.num (msgStream b) with
          | none =>
            let t : Stream := { sink := k.num, num := msgStream b, prompt := msgPrompt b, seq := 0 }
            { s with streams := s.streams ++ [t.message k (s.vocabImage (sinkVocab k.image)) b] }
          | some t =>
            if msgSeq b != (t.seq + 1) % 4294967296 then s.abortStream t
            else s.modStream k.num t.num fun t => t.message k (s.vocabImage (sinkVocab k.image)) b := rfl

section Message
variable {s : State} {b : Bytes}

theorem takeMessage_discarded {e : Nat} (h : s.messageBad b = some e) : s.takeMessage b =
    s.sinkEvent (msgSink b) { kind := 0x05, stream := msgStream b, prompt := msgPrompt b, endr := e } := by
  simp only [takeMessage_eq, h]

variable {k : Sink} (h : s.messageBad b = none) (hk : s.sink (msgSink b) = some k)
include h hk

theorem takeMessage_begins (ht : s.stream k.num (msgStream b) = none) :
    let t : Stream := { sink := k.num, num := msgStream b, prompt := msgPrompt b, seq := 0 }
    s.takeMessage b = { s with streams := s.streams ++ [t.message k (s.vocabImage (sinkVocab k.image)) b] } := by
  simp only [takeMessage_eq, h, hk, ht]

theorem takeMessage_goesOn {t : Stream} (ht : s.stream k.num (msgStream b) = some t) (hq : msgSeq b = (t.seq + 1) % 4294967296) :
    s.takeMessage b = s.modStream k.num t.num fun t => t.message k (s.vocabImage (sinkVocab k.image)) b := by
  simp only [takeMessage_eq, h, hk, ht, hq, bne_self_eq_false, Bool.false_eq_true, if_false]

theorem takeMessage_aborts {t : Stream} (ht : s.stream k.num (msgStream b) = some t) (hq : msgSeq b ≠ (t.seq + 1) % 4294967296) :
    s.takeMessage b = s.abortStream t := by
  simp only [takeMessage_eq, h, hk, ht, bne_iff_ne.2 hq, if_true]

end Message

/-! ### The filter -/

/-- R328: a sink's filter program, where it has one, lets a stream pass. -/
def Sink.passes (k : Sink) (t : Stream) : Bool :=
  sinkPcount k.image == 0 || (runFilter t.filterEnv (filterCode (sinkProg k.image) 0 (sinkPcount k.image))).1 != 0

/-- R328: a sink keeps streams of a stream's verdict. -/
def Sink.keepsVerdict (k : Sink) (t : Stream) : Bool := sinkKeep k.image / 2 ^ t.verdict % 2 == 1

theorem Sink.passes_iff {k : Sink} {t : Stream} : k.passes t = true ↔
    sinkPcount k.image = 0 ∨ (runFilter t.filterEnv (filterCode (sinkProg k.image) 0 (sinkPcount k.image))).1 ≠ 0 := by
  simp [Sink.passes]

theorem Sink.keepsVerdict_iff {k : Sink} {t : Stream} : k.keepsVerdict t = true ↔ sinkKeep k.image / 2 ^ t.verdict % 2 = 1 := by
  simp [Sink.keepsVerdict]

/-- R328: the buffer drawn for the record of a stream that passed. -/
def State.drawRecord (s : State) (t : Stream) : Bool × State :=
  s.alloc .rolloutRecord (recordRef t.sink t.num) t.body.length [ownerId 5 t.sink]

/-- R328, R335: why the event of a stream that is not kept says it went. -/
def Sink.whyFiltered (k : Sink) (t : Stream) : Nat := if k.full then 3 else if k.passes t then 2 else 1

theorem endedStream_sink {s : State} {x n : Nat} {t : Stream}
    (ht : (s.streams.find? fun u => u.sink == x && u.num == n && u.ended.isSome && !u.kept) = some t) : t.sink = x := by
  have hfound := List.find?_some ht
  simp only [Bool.and_eq_true, beq_iff_eq] at hfound
  obtain ⟨⟨⟨hx, -⟩, -⟩, -⟩ := hfound
  exact hx

/-- R328, R335: what the filter of an open sink does with a stream that has ended. -/
theorem exec_rolloutFilter {s : State} {n : Nat} {t : Stream} {k : Sink}
    (ht : (s.streams.find? fun u => u.sink == t.sink && u.num == n && u.ended.isSome && !u.kept) = some t)
    (hk : s.sink t.sink = some k) :
    exec (.rolloutFilter t.sink n) s = .next (
      let gone : State := { s with streams := s.streams.erase t }
      if k.passes t && k.keepsVerdict t then
        if k.full then gone.sinkEvent t.sink (t.event 3 0 0)
        else if (s.drawRecord t).1 then { (s.drawRecord t).2 with streams := s.streams.erase t ++ [{ t with kept := true }] } else s
      else (gone.modSink t.sink fun k => { k with filtered := (k.filtered + 1) % 4294967296 }).sinkEvent t.sink
        (t.event (k.whyFiltered t) 0 0)).settle := by
  calc exec (.rolloutFilter t.sink n) s = .next (s.runRolloutFilter t.sink n).settle := rfl
    _ = .next (State.filterStream false s t).settle := by simp only [State.runRolloutFilter, ht]
    _ = _ := by
      simp only [State.filterStream, hk]
      rfl

/-! ### The record written back -/

theorem keptStream_sink {s : State} {x : Nat} {t : Stream} (ht : (s.streams.find? fun u => u.sink == x && u.kept) = some t) :
    t.sink = x := by
  have hfound := List.find?_some ht
  simp only [Bool.and_eq_true, beq_iff_eq] at hfound
  exact hfound.1

/-- R329: the first of a sink's kept streams leaves for its record, on media that may program. -/
theorem exec_rolloutRecordWritten_first {s : State} {t : Stream}
    (ht : (s.streams.find? fun u => u.sink == t.sink && u.kept) = some t) (hm : s.media.mounted = true)
    (hf : s.media.frozen = false) : exec (.rolloutRecordWritten t.sink t.num) s = .next (s.takeKept t).settle := by
  calc exec (.rolloutRecordWritten t.sink t.num) s = .next (s.recordWritten t.sink t.num).settle := rfl
    _ = .next (s.takeKept t).settle := by
      simp only [State.recordWritten, ht, hm, hf, beq_self_eq_true, Bool.not_false, Bool.and_self, if_true]

/-! ### The interrupt -/

theorem exec_sinkInterrupt (s : State) (n : Nat) : exec (.sinkInterrupt n) s = .next (s.interruptSink n).settle := rfl

@[simp] theorem setPba_faults (s : State) (v : Nat) (on : Bool) : (s.setPba v on).faults = s.faults := rfl

@[simp] theorem setPba_sinks (s : State) (v : Nat) (on : Bool) : (s.setPba v on).sinks = s.sinks := rfl

@[simp] theorem signal_faults (s : State) (v : Nat) : (s.signal v).faults = s.faults := by
  unfold State.signal
  split
  · exact setPba_faults s v true
  · exact send_faults s _

@[simp] theorem signal_sinks (s : State) (v : Nat) : (s.signal v).sinks = s.sinks := by
  unfold State.signal
  split
  · exact setPba_sinks s v true
  · exact send_sinks s _

/-- R337: an open sink with no signal due from before signals for its events that it has not signalled. -/
theorem interruptSink_open {s : State} {n : Nat} {k : Sink} (hk : s.sink n = some k) (hs : ∀ x ∈ s.host.sinkSignals, x.1 ≠ n) :
    s.interruptSink n =
      if k.unsignalled then (s.modSink n fun k => { k with unsignalled := false }).signal (sinkMsix k.image) else s := by
  have hdue : (s.host.sinkSignals.filter fun x => x.1 == n) = [] := List.filter_eq_nil_iff.2 fun x hx => by simpa using hs x hx
  have hrest : (s.host.sinkSignals.filter fun x => x.1 != n) = s.host.sinkSignals :=
    List.filter_eq_self.2 fun x hx => by simpa using hs x hx
  simp only [State.interruptSink, hdue, hrest, List.foldl_nil, hk]

/-- R337: a sink that is gone signals what it left due. -/
theorem interruptSink_gone {s : State} {n v : Nat} (hk : s.sink n = none) (hs : s.host.sinkSignals = [(n, v)]) :
    s.interruptSink n = ({ s with host := { s.host with sinkSignals := [] } } : State).signal v := by
  have hgone : (({ s with host := { s.host with sinkSignals := [] } } : State).signal v).sink n = none := by
    rw [State.sink, signal_sinks]
    exact hk
  simp only [State.interruptSink, hs, List.filter_cons, List.filter_nil, beq_self_eq_true, bne_self_eq_false, Bool.false_eq_true,
    if_true, if_false, List.foldl_cons, List.foldl_nil, hgone]

/-! ### The statement -/

/-- Settles O41: each clause is the effect of the event where its premises put it. -/
theorem rolloutMessagesAndRecords : Obligations.RolloutMessagesAndRecords := by
  refine ⟨?turn, ?message, ?filter, ?written, ?interrupt, ?gone⟩
  case turn =>
    intro s n t b _ ht hturn hf
    have hmin : s.isTurn t := List.forall_mem_map.2 hturn
    rw [exec_rolloutMessage, nextMessage_taken (messageTurn_eq ht hmin) hf]
  case message =>
    intro s b
    refine ⟨fun e => takeMessage_discarded, fun k => takeMessage_begins, fun k t h hk ht => ⟨?_, ?_⟩⟩
    · exact takeMessage_goesOn h hk ht
    · exact takeMessage_aborts h hk ht
  case filter =>
    intro s x n t k ht hk pass keep gone
    obtain rfl := endedStream_sink ht
    rw [exec_rolloutFilter ht hk]
    have hpass : k.passes t = true ↔ pass := Sink.passes_iff
    have hkeep : k.keepsVerdict t = true ↔ keep := Sink.keepsVerdict_iff
    refine ⟨fun hp hv hf => ?_, ?_, fun hno => ⟨k.whyFiltered t, fun hf => ?_, fun hf => ⟨fun hp => ?_, fun hp => ?_⟩, ?_⟩⟩
    · simp only [hpass.2 hp, hkeep.2 hv, hf, Bool.and_self, if_true]
      rfl
    · intro hp hv hf a
      simp only [hpass.2 hp, hkeep.2 hv, hf, Bool.and_self, Bool.false_eq_true, if_true, if_false]
      rfl
    · simp only [Sink.whyFiltered, hf, if_true]
    · simp only [Sink.whyFiltered, hf, hpass.2 hp, Bool.false_eq_true, if_false, if_true]
    · simp only [Sink.whyFiltered, hf, mt hpass.1 hp, Bool.false_eq_true, if_false]
    · have hdropped : (k.passes t && k.keepsVerdict t) = false := by
        rwa [← Bool.not_eq_true, Bool.and_eq_true, hpass, hkeep]
      simp only [hdropped, Bool.false_eq_true, if_false]
      rfl
  case written =>
    intro s k n t ht hn hm hf w
    obtain rfl := keptStream_sink ht
    subst hn
    rw [exec_rolloutRecordWritten_first ht hm hf]
    rfl
  case interrupt =>
    intro s n k hq hk hs
    rw [exec_sinkInterrupt, interruptSink_open hk hs]
    refine ⟨fun hu => ?_, fun hu => ?_⟩
    · rw [hu, if_pos rfl, settle_quiet]
      rw [State.quiet, signal_faults]
      exact hq
    · rw [hu, if_neg Bool.false_ne_true, settle_quiet hq]
  case gone =>
    intro s n v hq hk hs
    rw [exec_sinkInterrupt, interruptSink_gone hk hs, settle_quiet]
    rw [State.quiet, signal_faults]
    exact hq

end Sys2Proof.Machine
end

section
/-!
PROOFS. A port's training, the lanes it loses and its frame overhead (R345 to R354, R399, R700): what a changed port reads as, how a port
comes up, and the statement O36 from that.
-/
namespace Sys2Proof.Machine

/-! ### A changed port, as it reads -/

section PortRead
variable {s : State} {n : Nat} {p : Port}

/-- A change that keeps a port's number is what the port reads as. -/
theorem modPort_port_self (h : s.port n = some p) {f : Port → Port} (hf : ∀ a, (f a).n = a.n) :
    (s.modPort n f).port n = some (f p) :=
  find_updWhere _ _ _ _ (fun a ha => by simpa [hf] using ha) h

/-- A change of one port leaves the others. -/
theorem modPort_port_other {m : Nat} (hm : m ≠ n) {f : Port → Port} (hf : ∀ a, (f a).n = a.n) :
    (s.modPort n f).port m = s.port m :=
  find_updWhere_other _ _ _ _ fun a ha => by
    have ha : a.n = n := by simpa using ha
    simp [hf, ha, hm.symm]

/-- R351: a port that enters a PortState, as every port reads then. -/
theorem setPortState_port (h : s.port n = some p) (st m : Nat) :
    (s.setPortState n st).port m = (s.modPort n fun p => { p with state := st }).port m := by
  unfold State.setPortState
  rw [h]
  dsimp only
  split <;> rfl

theorem setPortState_port_self (h : s.port n = some p) (st : Nat) :
    (s.setPortState n st).port n = some { p with state := st } :=
  (setPortState_port h st n).trans (modPort_port_self h fun _ => rfl)

theorem setPortState_port_other (h : s.port n = some p) (st : Nat) {m : Nat} (hm : m ≠ n) :
    (s.setPortState n st).port m = s.port m :=
  (setPortState_port h st m).trans (modPort_port_other hm fun _ => rfl)

@[simp] theorem setPortState_startup (s : State) (n st : Nat) : (s.setPortState n st).startup = s.startup := by
  unfold State.setPortState
  cases s.port n with
  | none => rfl
  | some p => dsimp only; split <;> rfl

@[simp] theorem setPortState_faults (s : State) (n st : Nat) : (s.setPortState n st).faults = s.faults := by
  unfold State.setPortState
  cases s.port n with
  | none => rfl
  | some p => dsimp only; split <;> rfl

@[simp] theorem replayOn_startup (s : State) (n : Nat) : (s.replayOn n).startup = s.startup := by
  unfold State.replayOn
  cases s.port n with
  | none => rfl
  | some p => rfl

/-- R368: a link that has no flits to replay replays none. -/
theorem replayOn_nothing (h : s.port n = some p) (h0 : p.link.resend = 0) :
    s.replayOn n = s.modPort n fun x => { x with link := p.link } := by
  unfold State.replayOn
  rw [h]
  dsimp only
  rw [h0, Nat.sub_zero, List.drop_length]
  rfl

end PortRead

/-! ### A port comes up -/

/-- R348, R352, R399: what a port takes over as it comes up, before its state. -/
def Port.comesUp (p : Port) (resuming : Bool) : Port :=
  { p with width := p.agreed, agreed := 0, cause := 0, resuming := false, protoErr := false, overhead := p.overhead || resuming,
           linkReplays := (p.linkReplays + (if p.link.resend = 0 then 0 else 1)) % 4294967296 }

section ComesUp
variable {s : State} {n : Nat} {p : Port}

/-- R345 step 5: during start-up a port comes up and nothing is judged again. -/
theorem portComesUp_startup (h : s.port n = some p) (hs : s.started = false) :
    s.portComesUp n = ((s.modPort n (Port.comesUp · p.resuming)).setPortState n (if p.agreed = 4 then 2 else 3)).replayOn n := by
  have hstarted : (((s.modPort n (Port.comesUp · p.resuming)).setPortState n (if p.agreed = 4 then 2 else 3)).replayOn n).started = false := by
    unfold State.started
    rw [replayOn_startup, setPortState_startup]
    exact hs
  unfold State.portComesUp
  rw [h]
  dsimp only
  rw [hs, Bool.or_false]
  simp only [beq_iff_eq]
  exact if_neg (ne_true_of_eq_false hstarted)

end ComesUp

/-! ### Training ends -/

theorem exec_portTrainingComplete (s : State) (n : Nat) (r : TrainResult) :
    exec (.portTrainingComplete n r) s = .next (s.portTrained n r).settle := rfl

theorem exec_laneLoss (s : State) (n l : Nat) : exec (.laneLoss n l) s = .next (s.lanesLost n l).settle := rfl

theorem exec_frameOverheadExpiry (s : State) (n : Nat) : exec (.frameOverheadExpiry n) s = .next (s.overheadEnds n).settle := rfl

/-- R350, R700: the lanes that trained here noted. -/
def State.notesLanes (s : State) (n : Nat) (r : TrainResult) : State :=
  (s.trainedBy 3 r.fellBack).modPort n fun p => { p with lanes := r.lanesHere % 16 }

/-- R346, R347: the width that the lanes trained at both ends give. -/
def State.trainedWidth (s : State) (n : Nat) (r : TrainResult) : Option (Nat × Nat) :=
  widthOf (s.portMode n) (s.num 0x4001 (n + 1)) (r.lanesHere % 16 &&& r.lanesPeer % 16)

/-- R345 step 3: the lanes noted and a width agreed. -/
def State.agreesWidth (s : State) (n : Nat) (r : TrainResult) (w : Nat) : State :=
  (s.notesLanes n r).modPort n fun p => { p with agreed := w }

/-- R345 step 4, R356: the width agreed and the handshake sent. -/
def State.sendsHandshake (s : State) (n : Nat) (p : Port) (r : TrainResult) (w : Nat) : State :=
  (s.agreesWidth n r w).send (.flit n ((s.agreesWidth n r w).handshake { p with lanes := r.lanesHere % 16 }))

/-- R349, R354: why a port that did not train is fenced. -/
def Port.failCause (p : Port) (r : TrainResult) : Nat := if p.protoErr = true then 6 else if r.lanesHere % 16 = 0 then 1 else 2

section Trained
variable {s : State} {n : Nat} {p : Port} {r : TrainResult}

theorem portTrained_notInTraining (hp : s.port n = some p) (h1 : p.state ≠ 1) : s.portTrained n r = s := by
  unfold State.portTrained
  rw [hp]
  dsimp only
  rw [if_pos (by simp [h1])]

variable (hp : s.port n = some p) (h1 : p.state = 1) (hm : s.portMode n ≠ 0)
include hp h1 hm

theorem portTrained_agreed {w v : Nat} (hw : s.trainedWidth n r = some (w, v)) (hl : r.linkUp = true) :
    s.portTrained n r =
      if s.portMode n = 2 then (s.agreesWidth n r w).portComesUp n
      else if p.shaken then (s.sendsHandshake n p r w).portComesUp n else s.sendsHandshake n p r w := by
  have hw : widthOf (s.portMode n) ((s.notesLanes n r).num 0x4001 (n + 1)) (r.lanesHere % 16 &&& r.lanesPeer % 16) = some (w, v) := hw
  unfold State.notesLanes at hw
  unfold State.portTrained
  rw [hp]
  dsimp only
  rw [if_neg (by simp [h1, hm]), hw, hl]
  simp only [beq_iff_eq]
  rfl

theorem portTrained_fails (hw : s.trainedWidth n r = none ∨ r.linkUp = false) :
    s.portTrained n r =
      let f := (s.notesLanes n r).fencePort n (p.failCause r)
      if f.started then f.recheckTimed.reroute else f := by
  have hnum : s.trainedWidth n r =
      widthOf (s.portMode n) ((s.notesLanes n r).num 0x4001 (n + 1)) (r.lanesHere % 16 &&& r.lanesPeer % 16) := rfl
  rw [hnum] at hw
  unfold State.notesLanes at hw
  unfold State.portTrained
  rw [hp]
  dsimp only
  rw [if_neg (by simp [h1, hm])]
  simp only [beq_iff_eq]
  split
  case h_1 hu hs => simp [hu, hs] at hw
  case h_2 => rfl

end Trained

/-- R352: a running port that loses lanes recovers without them. -/
theorem lanesLost_running {s : State} {n l : Nat} {p : Port} (hp : s.port n = some p) (h : p.state = 2 ∨ p.state = 3) :
    s.lanesLost n l = (s.modPort n fun p => { p with lanes := p.lanes - (p.lanes &&& l % 16) }).recoverPort n false := by
  unfold State.lanesLost
  rw [hp]
  dsimp only
  rw [if_pos (by simpa using h)]

/-! ### The statement -/

/-- Settles O36: each clause is the branch of the port's event that its premises choose. -/
theorem portTrainingAndLanes : Obligations.PortTrainingAndLanes := by
  refine ⟨?trained, ?comesUp, ?notInTraining, ?lanes, ?overhead⟩
  case trained =>
    intro s n p r hp h1 hm t width
    simp only [exec_portTrainingComplete]
    refine ⟨fun w v hw hl => ⟨fun he => ?_, fun he hs => ?_, fun he hs => ?_⟩, fun hw => ?_⟩
    · rw [portTrained_agreed hp h1 hm hw hl, if_pos he]; rfl
    · rw [portTrained_agreed hp h1 hm hw hl, if_neg he, if_pos hs]; rfl
    · rw [portTrained_agreed hp h1 hm hw hl, if_neg he, if_neg (by simp [hs])]; rfl
    · rw [portTrained_fails hp h1 hm hw]; rfl
  case comesUp =>
    intro s n p hp hs h0
    have hport : (s.modPort n (Port.comesUp · p.resuming)).port n = some (p.comesUp p.resuming) := modPort_port_self hp fun _ => rfl
    have hstate := setPortState_port_self hport (if p.agreed = 4 then 2 else 3)
    rw [portComesUp_startup hp hs, replayOn_nothing hstate h0]
    refine ⟨_, modPort_port_self hstate fun _ => rfl, rfl, rfl, rfl, rfl, rfl, rfl, fun m hm => ?_⟩
    rw [modPort_port_other hm, setPortState_port_other hport _ hm, modPort_port_other hm]
    all_goals exact fun _ => rfl
  case notInTraining =>
    intro s n p r hq hp h1
    rw [exec_portTrainingComplete, portTrained_notInTraining hp h1, settle_quiet hq]
  case lanes =>
    intro s n l p hp h
    rw [exec_laneLoss, lanesLost_running hp h]
  case overhead =>
    intro s n hq
    rw [exec_frameOverheadExpiry, settle_quiet (s := s.overheadEnds n) hq]
    rfl

end Sys2Proof.Machine
end

section
/-!
PROOFS. A whole packet that no reassembly buffer takes (R366, R371, R447): the request that moves on to the fallback tier counts in
TierFallbacks though it fails (R444, R463), so the port's state is not the state before, and the refutation of O38 from that.
-/
namespace Sys2Proof.Machine

theorem exec_ryheroPacketReceive (s : State) (n v : Nat) : exec (.ryheroPacketReceive n v) s = .next (s.packetIn n v).settle := rfl

/-- R447: a whole packet that gets no reassembly buffer stays; what its request counted stands. -/
theorem packetIn_waits {s w : State} {n v : Nat} {p : Port} {l : List Bytes} (hp : s.port n = some p)
    (hl : wholePacket (p.link.rx.getD v []) = some l) (hup : s.portUp n 1 = true)
    (ha : s.alloc .portReassembly (.other n) (max 1 (l.flatMap flitData).length) [ownerId 2 n] = (false, w)) :
    s.packetIn n v = w := by
  unfold State.packetIn
  rw [hp]
  dsimp only
  rw [hl]
  dsimp only
  rw [if_neg (by simp [hup]), ha]

/-- A data flit that is a whole packet. -/
def oneFlitPacket : Bytes := flit 1 1 0 0 0 0 0 24 true true (zeros 24)

/-- Port 0 with a whole packet in channel 0. -/
def portHoldingPacket : Port := { n := 0, state := 2, width := 4, lanes := 15, link := { ver := 1, rx := [[oneFlitPacket], [], [], []] } }

/-- A device whose port 0 runs in Ryhero mode and holds a whole packet, and whose pools have no buffer to give. -/
def withoutBuffers : State := { ports := [portHoldingPacket], dict := { values := [((0x4000, 1), .num 1)] } }

/-- R463: the device after a request that tier 1 could not serve has moved on to tier 0 in vain. -/
def afterFallback : State := { withoutBuffers with mem := { withoutBuffers.mem with tierFallbacks := [0, 1] } }

theorem withoutBuffers_alloc : withoutBuffers.alloc .portReassembly (.other 0) (max 1 ([oneFlitPacket].flatMap flitData).length)
    [ownerId 2 0] = (false, afterFallback) := by rfl

/-- Refutes O38: a packet that waits for a reassembly buffer has raised TierFallbacks, where the statement has the state unchanged. -/
theorem not_packetsAndFrames : ¬ Obligations.PacketsAndFrames := by
  rintro ⟨hwhole, -⟩
  have hp : withoutBuffers.port 0 = some portHoldingPacket := by rfl
  have hl : wholePacket (portHoldingPacket.link.rx.getD 0 []) = some [oneFlitPacket] := by rfl
  have hup : withoutBuffers.portUp 0 1 = true := by rfl
  have hexec := hwhole withoutBuffers 0 0 portHoldingPacket [oneFlitPacket] hp hl hup
  rw [exec_ryheroPacketReceive, packetIn_waits hp hl hup withoutBuffers_alloc, withoutBuffers_alloc] at hexec
  dsimp only at hexec
  rw [if_neg Bool.false_ne_true, settle_quiet (s := afterFallback) rfl, settle_quiet (s := withoutBuffers) rfl] at hexec
  have hsame : afterFallback = withoutBuffers := Host.Outcome.next.inj hexec
  have hcount : ([0, 1] : List Nat) = [0, 0] := congrArg (fun s => s.mem.tierFallbacks) hsame
  exact absurd hcount (by decide)

end Sys2Proof.Machine
end

section
/-!
PROOFS. RoCEv2 queue pairs and the neighbours of a port (R375 to R379, R388 to R392): a pair set, removed, marked and cut in its rate, what
a responder does with a request packet, the neighbour frames, and the statement O39 from that.
-/
namespace Sys2Proof.Machine

/-! ### A queue pair set and removed -/

theorem exec_queuePairSet {s : State} {q i : Nat} {c : Cmd} (h : s.readyCmd q i 0x04 (some 0x50) = some c) :
    exec (.queuePairSet q i) s = .next (s.setRocePair c).settle := atCmd_ready (f := fun c s => s.setRocePair c) h

theorem exec_queuePairRemove {s : State} {q i : Nat} {c : Cmd} (h : s.readyCmd q i 0x04 (some 0x51) = some c) :
    exec (.queuePairRemove q i) s = .next (s.removeRocePair c).settle := atCmd_ready (f := fun c s => s.removeRocePair c) h

/-- R378: what the context that a queue pair had before leaves behind is gone. -/
def State.unsendEarlier (s : State) (n : Nat) : State := match s.rp n with | some p => s.unsend p | none => s

/-- R377, R390: the queue pair of a context, its policing bucket full at a time. -/
def rocePairOf (b : Bytes) (t : Nat) : RocePair :=
  { lqpn := field b 4 3, ctx := b, psn := field b 12 3, expect := field b 16 3, acked := field b 12 3
    bucket := field b 52 3 * 1024 * 32768, filled := t }

theorem unsendEarlier_uptime (s : State) (n : Nat) : (s.unsendEarlier n).uptime = s.uptime := by
  unfold State.unsendEarlier
  split
  · exact congrArg Kernel.uptime (unsend_kernel s _)
  · rfl

theorem setRocePair_holds {s : State} {c : Cmd} (hd : c.short 64 = false) (hb : s.rocePairBad (c.data.take 64) = none)
    (hroom : s.rp (field (c.data.take 64) 4 3) ≠ none ∨ s.roce.length < 4096) :
    s.setRocePair c = ({ s.unsendEarlier (field (c.data.take 64) 4 3) with
      roce := ((s.unsendEarlier (field (c.data.take 64) 4 3)).roce.filter fun x => x.lqpn != field (c.data.take 64) 4 3) ++
        [rocePairOf (c.data.take 64) s.uptime] } : State).complete c .ok := by
  have hfull : ((s.rp (field (c.data.take 64) 4 3)).isNone && decide (4096 ≤ s.roce.length)) = false := by
    rcases hroom with h | h
    · simp [h]
    · simp [h]
  rw [← unsendEarlier_uptime s (field (c.data.take 64) 4 3)]
  unfold State.setRocePair
  dsimp only
  rw [hd, hb]
  dsimp only
  rw [hfull]
  rfl

section Remove
variable {s : State} {c : Cmd} {p : RocePair} (hd : c.short 3 = false) (hp : s.rp (field c.data 0 3) = some p)
include hd hp

theorem removeRocePair_unused (hu : s.rocePairUser p = none) :
    s.removeRocePair c = ({ s.unsend p with roce := (s.unsend p).roce.filter fun x => x.lqpn != p.lqpn } : State).complete c .ok := by
  unfold State.removeRocePair
  rw [hd, hp]
  dsimp only
  rw [hu]
  rfl

theorem removeRocePair_used {k : Nat} (hu : s.rocePairUser p = some k) : s.removeRocePair c = s.complete c (.sequence (some k)) := by
  unfold State.removeRocePair
  rw [hd, hp]
  dsimp only
  rw [hu]
  rfl

end Remove

/-! ### Congestion -/

theorem exec_cnpReceive (s : State) (q us : Nat) : exec (.cnpReceive ⟨q, us⟩) s = .next (s.cnp q us).settle := rfl

theorem exec_rateRecoveryTick (s : State) (q : Nat) : exec (.rateRecoveryTick q) s = .next (s.recoverRate q).settle := rfl

theorem exec_cePacketReceive (s : State) (q us : Nat) : exec (.cePacketReceive ⟨q, us⟩) s = .next (s.cePacket q us).settle := rfl

/-- R389: a CNP at a requester counts, and cuts the rate unless 20 µs have not passed. -/
theorem cnp_requester {s : State} {q us : Nat} {p : RocePair} (hp : s.rp q = some p) (hr : p.responder = false) :
    s.cnp q us =
      let w := s.modPort p.port fun x => { x with cnpReceived := (x.cnpReceived + 1) % 4294967296 }
      if p.cnpIgnored us then w
      else w.modRp q fun p => { w.pacedPair p with rate := max (p.rate * 7 / 8) (1 / 256), cnpAt := some us } := by
  unfold State.cnp
  rw [hp]
  dsimp only
  rw [hr]
  rfl

theorem cnpIgnored_first {p : RocePair} (us : Nat) (h : p.cnpAt = none) : p.cnpIgnored us = false := by
  simp only [RocePair.cnpIgnored, h]

theorem cnpIgnored_iff {p : RocePair} {t us : Nat} (h : p.cnpAt = some t) (ht : t ≤ us) : p.cnpIgnored us = true ↔ us < t + 20 := by
  simp only [RocePair.cnpIgnored, h, decide_eq_true_eq]
  omega

/-- R388: a marked packet at a responder queues a CNP when one is due. -/
theorem cePacket_due {s : State} {q us : Nat} {p : RocePair} (hp : s.rp q = some p) (hr : p.responder = true)
    (hd : s.cnpDue p us = true) :
    s.cePacket q us = (s.modRp q fun p => { p with cnpSent := some us }).queueReply p (.cnp q (s.roceFrame p)) 16 := by
  unfold State.cePacket
  rw [hp]
  dsimp only
  rw [hr, hd]
  rfl

/-! ### Request packets -/

theorem exec_roceSendReceive (s : State) (k : RocePacket) : exec (.roceSendReceive k) s = .next (s.roceRequest k).settle := rfl

section Request
variable {s : State} {k : RocePacket} (hup : s.portUp k.port 2 = true)
include hup

/-- R375: a frame outside the supported items, or of a queue pair that is not there, is discarded and counted. -/
theorem roceRequest_discarded (h : roceGood k = false ∨ s.rp k.lqpn = none) : s.roceRequest k = s.discardFrame k.port := by
  unfold State.roceRequest
  rw [if_neg (by simp [hup])]
  rcases h with h | h
  · rw [if_pos (by simp [h])]
  · rw [h]
    exact ite_self _

/-- R376: a good packet for a responder is served in sequence, and dropped out of it. -/
theorem roceRequest_responder {p : RocePair} (hg : roceGood k = true) (hp : s.rp k.lqpn = some p) (hr : p.responder = true)
    (hport : p.port = k.port) : s.roceRequest k = if k.psn = p.expect then s.responderRequest k p else s := by
  unfold State.roceRequest
  rw [if_neg (by simp [hup]), if_neg (by simp [hg]), hp]
  dsimp only
  rw [if_neg (by simp [hr, hport])]
  by_cases h : k.psn = p.expect <;> simp [h]

end Request

/-- R376: a packet that begins a message: SEND First or Only. -/
def startsMessage (k : RocePacket) : Bool := k.opcode == 0 || k.opcode == 3

/-- R376: a packet that ends a message: SEND Last or Only. -/
def endsMessage (k : RocePacket) : Bool := k.opcode == 2 || k.opcode == 3

/-- R390: the policing bucket is short for the first packet of a message. -/
def RocePair.policed (p : RocePair) (k : RocePacket) : Bool :=
  startsMessage k && p.polRate != 0 && p.bucket < ((k.frameLen * 32768 : Nat) : Int)

/-- R392: the bytes of the message under way with a packet's. -/
def RocePair.messageWith (p : RocePair) (k : RocePacket) : Bytes := (if startsMessage k then [] else p.message) ++ k.payload

theorem startsMessage_iff {k : RocePacket} : startsMessage k = true ↔ k.opcode = 0 ∨ k.opcode = 3 := by simp [startsMessage]

theorem endsMessage_iff {k : RocePacket} : endsMessage k = true ↔ k.opcode = 2 ∨ k.opcode = 3 := by simp [endsMessage]

theorem RocePair.policed_iff {p : RocePair} {k : RocePacket} : p.policed k = true ↔
    (k.opcode = 0 ∨ k.opcode = 3) ∧ p.polRate ≠ 0 ∧ p.bucket < ((k.frameLen * 32768 : Nat) : Int) := by
  simp [RocePair.policed, startsMessage, and_assoc]

/-- R376, R390 to R392: what a responder does with a packet in sequence. -/
theorem responderRequest_eq (s : State) (k : RocePacket) (x : RocePair) :
    s.responderRequest k x =
      let p := s.filledPol x
      let w := s.modRp k.lqpn fun _ => p
      let next := (p.expect + 1) % 16777216
      let v := w.modRp k.lqpn fun p => p.drain k.frameLen
      if 3 < k.opcode then
        (w.modRp k.lqpn fun p => { p with expect := next }).queueReply p (.roceNak k.lqpn k.psn false (w.roceFrame p)) 4
      else if p.policed k then
        (w.modPort p.port fun x => { x with policedSends := (x.policedSends + 1) % 4294967296 }).queueReply p
          (.roceNak k.lqpn k.psn true (w.roceFrame p)) 4
      else if startsMessage k && 16777216 ≤ v.ingressBytes p.port then v.queueReply p (.roceNak k.lqpn k.psn true (w.roceFrame p)) 4
      else if endsMessage k then
        let u := (v.modRp k.lqpn fun p => { p with expect := next, message := [] }).queueReply p
          (.roceAck k.lqpn k.psn (w.roceFrame p)) 4
        ({ u.leavePs1 with ingress := u.ingress ++ [(p.port, p.messageWith k)] } : State).judgeIngress p.port
      else v.modRp k.lqpn fun q => { q with expect := next, message := p.messageWith k } := by
  unfold State.responderRequest
  cases he : endsMessage k <;> simp only [endsMessage] at he <;> simp only [he] <;> rfl

/-! ### Neighbours -/

theorem exec_neighbourRequestReceive (s : State) (n : Nat) (f : NeighbourFrame) :
    exec (.neighbourRequestReceive n f) s = .next (s.neighbour n f).settle := rfl

section Neighbour
variable {s : State} {n : Nat} (hup : s.portUp n 2 = true)
include hup

theorem neighbour_arp {a : Bytes} (ho : s.ownAddress n a = true) : s.neighbour n (.arp a) = s.send (.neighbourReply n a []) := by
  unfold State.neighbour
  rw [if_neg (by simp [hup])]
  exact if_pos ho

theorem neighbour_solicitation {a : Bytes} (ho : s.ownAddress n a = true) :
    s.neighbour n (.solicitation a) = s.send (.neighbourReply n a []) := by
  unfold State.neighbour
  rw [if_neg (by simp [hup])]
  exact if_pos ho

theorem neighbour_echo {a d : Bytes} {m : Bool} (ho : s.ownAddress n a = true) :
    s.neighbour n (.echo a m d) = s.send (.neighbourReply n a d) := by
  unfold State.neighbour
  rw [if_neg (by simp [hup])]
  exact if_pos ho

theorem neighbour_unsupported : s.neighbour n .unsupported = s.discardFrame n := by
  unfold State.neighbour
  rw [if_neg (by simp [hup])]

end Neighbour

/-! ### The statement -/

/-- Settles O39: each clause is the branch of the event that its premises choose. -/
theorem roceQueuePairs : Obligations.RoceQueuePairs := by
  refine ⟨?set, ?remove, ?cnp, ?ignored, ?recovery, ?marked, ?packet, ?discarded, ?responder, ?neighbour, ?unsupported⟩
  case set =>
    intro s q i c hc hd b n p hb hroom w
    refine ⟨?_, rfl, rfl, rfl⟩
    rw [exec_queuePairSet hc, setRocePair_holds hd hb hroom]
    rfl
  case remove =>
    intro s q i c p hc hd hp
    rw [exec_queuePairRemove hc]
    exact ⟨fun hu => by rw [removeRocePair_unused hd hp hu], fun k hu => by rw [removeRocePair_used hd hp hu]⟩
  case cnp =>
    intro s q us p hq hp hr w
    rw [exec_cnpReceive, cnp_requester hp hr]
    refine ⟨fun hi => ?_, fun hi => ?_⟩
    · simp only [hi, if_true]
      rw [settle_quiet (s := w) hq]
    · simp only [hi, Bool.false_eq_true, if_false]
      rw [settle_quiet]
      exact hq
  case ignored => exact fun p t us => ⟨cnpIgnored_first us, cnpIgnored_iff⟩
  case recovery =>
    intro s q hq
    rw [exec_rateRecoveryTick, settle_quiet (s := s.recoverRate q) hq]
    rfl
  case marked =>
    intro s q us p hp hr hd
    rw [exec_cePacketReceive, cePacket_due hp hr hd]
  case packet =>
    intro s k p hup hg hp hr hport
    rw [exec_roceSendReceive, roceRequest_responder hup hg hp hr hport]
    exact ⟨fun h => by rw [if_pos h], fun h => by rw [if_neg h]⟩
  case discarded =>
    intro s k hq hup h
    rw [exec_roceSendReceive, roceRequest_discarded hup h, settle_quiet (s := s.discardFrame k.port) hq]
    rfl
  case responder =>
    intro s k x p w next starts short v msg
    have hpoliced : p.policed k = true ↔ short := RocePair.policed_iff
    have hstarts : startsMessage k = true ↔ starts := startsMessage_iff
    have hends : endsMessage k = true ↔ k.opcode = 2 ∨ k.opcode = 3 := endsMessage_iff
    have hfull : (startsMessage k && decide (16777216 ≤ v.ingressBytes p.port)) = true ↔ starts ∧ 16777216 ≤ v.ingressBytes p.port := by
      rw [Bool.and_eq_true, hstarts, decide_eq_true_iff]
    have hmsg : p.messageWith k = msg := by
      unfold RocePair.messageWith
      rw [if_congr hstarts rfl rfl]
    have heq := responderRequest_eq s k x
    refine ⟨fun h => ?_, fun h hs => ?_, fun h hs hst hf => ?_, fun h hs hroom h2 h3 => ?_, fun hs hroom h => ?_⟩
    · exact heq.trans (if_pos h)
    · exact heq.trans ((if_neg (by omega)).trans (if_pos (hpoliced.2 hs)))
    · exact heq.trans ((if_neg (by omega)).trans ((if_neg (mt hpoliced.1 hs)).trans (if_pos (hfull.2 ⟨hst, hf⟩))))
    · rw [← hmsg]
      exact heq.trans ((if_neg (by omega)).trans ((if_neg (mt hpoliced.1 hs)).trans ((if_neg (mt hfull.1 (by omega))).trans
        (if_neg (mt hends.1 (by omega))))))
    · rw [← hmsg]
      exact heq.trans ((if_neg (by omega)).trans ((if_neg (mt hpoliced.1 hs)).trans ((if_neg (mt hfull.1 (by omega))).trans
        (if_pos (hends.2 h)))))
  case neighbour =>
    intro s n a d m hq hup ho
    simp only [exec_neighbourRequestReceive]
    rw [neighbour_arp hup ho, neighbour_solicitation hup ho, neighbour_echo hup ho]
    exact ⟨by rw [settle_quiet]; exact hq, by rw [settle_quiet]; exact hq, by rw [settle_quiet]; exact hq⟩
  case unsupported =>
    intro s n hq hup
    rw [exec_neighbourRequestReceive, neighbour_unsupported hup, settle_quiet (s := s.discardFrame n) hq]
    rfl

end Sys2Proof.Machine
end

section
/-!
PROOFS. WRITEs of the device's objects (R343, R353, R398, R527, R637, R716) and what reaches it beside the dictionary (R672, R714, R715):
what accepting a WRITE leaves alone, the effect of each object's rule, SPDM, and the statement O54 from that.
-/
namespace Sys2Proof.Machine

/-! ### What accepting a WRITE leaves alone -/

theorem leavePs1_eq (s : State) : ∃ w, s.leavePs1 = { s with power := w } := by
  unfold State.leavePs1
  split
  · exact ⟨_, rfl⟩
  · exact ⟨s.power, rfl⟩

/-- Accepting a WRITE changes the power state and the sessions alone. -/
theorem accepted_eq (s : State) (m : DictMsg) (x : Session) (r : ObjRow) :
    ∃ w l, s.accepted m x r = { s with power := w, dict := { s.dict with sessions := l } } := by
  obtain ⟨w, hw⟩ := leavePs1_eq s
  unfold State.accepted
  rw [hw]
  dsimp only
  split
  · exact ⟨w, _, rfl⟩
  · exact ⟨w, _, rfl⟩

section Accepted
variable (s : State) (m : DictMsg) (x : Session) (r : ObjRow)

/-- What looks at neither the power state nor the sessions is as it was. -/
theorem accepted_keeps {α : Type} (f : State → α)
    (hf : ∀ s w l, f { s with power := w, dict := { s.dict with sessions := l } } = f s) : f (s.accepted m x r) = f s := by
  obtain ⟨w, l, h⟩ := accepted_eq s m x r
  rw [h, hf]

@[simp] theorem accepted_media : (s.accepted m x r).media = s.media := accepted_keeps s m x r State.media fun _ _ _ => rfl

@[simp] theorem accepted_startup : (s.accepted m x r).startup = s.startup := accepted_keeps s m x r State.startup fun _ _ _ => rfl

@[simp] theorem accepted_formatCrews : (s.accepted m x r).formatCrews = s.formatCrews :=
  accepted_keeps s m x r State.formatCrews fun _ _ _ => rfl

@[simp] theorem accepted_modeFail (w : DictWrite) : (s.accepted m x r).modeFail w = s.modeFail w :=
  accepted_keeps s m x r (State.modeFail · w) fun _ _ _ => rfl

@[simp] theorem accepted_port (n : Nat) : (s.accepted m x r).port n = s.port n :=
  accepted_keeps s m x r (State.port · n) fun _ _ _ => rfl

@[simp] theorem accepted_unlicensed (n : Nat) : (s.accepted m x r).unlicensed n = s.unlicensed n :=
  accepted_keeps s m x r (State.unlicensed · n) fun _ _ _ => rfl

/-- A quiet state stays quiet as a WRITE is accepted. -/
theorem accepted_quiet (h : s.quiet) : (s.accepted m x r).quiet := (congrArg Faults.transit (accepted_faults s m x r)).trans h

end Accepted

/-- An audit entry and a response in a quiet state need no delivery. -/
theorem recorded_settle {s : State} (h : s.quiet) (m : DictMsg) (r : ObjRow) (e : Audit) :
    (s.recorded m r e).settle = s.recorded m r e :=
  settle_quiet ((congrArg Faults.transit (recorded_faults s m r e)).trans h)

/-! ### DeviceReset, MediaFormat and FaultAck -/

section Written
variable {s : State} {m : DictMsg} {x : Session} {r : ObjRow} (hw : s.writes m x r)
include hw

/-- R716: the reset follows the response. -/
theorem exec_deviceResetWrite (ha : s.auditRefuses = false) (hi : dmIdx m = 0x8005) :
    exec (.deviceResetWrite m) s = .next
      ((((s.accepted m x r).recorded m r ((s.accepted m x r).entryOf m x r 0)).deviceReset 3).tryStart).settle :=
  writeRow_passes (mine := fun i _ => i == 0x8005) (rule := resetRule) hw (by simp [hi]) rfl ha

/-- R527: a format that nothing stands in the way of begins. -/
theorem exec_mediaFormat_begins (ha : s.auditRefuses = false) (hi : dmIdx m = 0x5001) (hf : s.formatCrews = []) :
    exec (.mediaFormat m) s = .next
      ((beginFormat (s.accepted m x r) (askedBy m x)).recorded m r ((s.accepted m x r).entryOf m x r 0)).settle :=
  writeRow_passes (mine := fun i _ => i == 0x5001) (rule := formatRule) hw (by simp [hi]) (by simp [formatRule, hf, argmin]) ha

/-- R527: a crew or sink in the way of a format refuses it. -/
theorem exec_mediaFormat_refused {k : Nat} (hi : dmIdx m = 0x5001) (hk : k ∈ s.formatCrews) (hmin : ∀ j ∈ s.formatCrews, k ≤ j) :
    exec (.mediaFormat m) s = .next ((s.accepted m x r).respond m { status := 0x03, ty := r.ty.code, crew := some k }).settle := by
  have hleast : argmin (fun n => n) s.formatCrews = some k := argmin_id_eq hk hmin
  exact writeRow_refused (mine := fun i _ => i == 0x5001) (rule := formatRule) hw (st := 0x03) (k := some k) (by simp [hi])
    (by simp [formatRule, hleast])

/-- R637: FaultAck removes entries that are there. -/
theorem exec_faultAck_removes (ha : s.auditRefuses = false) (hi : dmIdx m = 0x6001) (hn : leNat (dmValue m) ≤ s.faults.queue.length) :
    exec (.faultAck m) s = .next
      ((ackFaults (s.accepted m x r) (askedBy m x)).recorded m r ((s.accepted m x r).entryOf m x r 0)).settle := by
  refine writeRow_passes (mine := fun i _ => i == 0x6001) (rule := ackRule) hw (by simp [hi]) ?_ ha
  simp only [ackRule, accepted_faults]
  exact if_neg (Nat.not_lt.2 hn)

/-- R637: FaultAck of more entries than there are is refused. -/
theorem exec_faultAck_refused (hi : dmIdx m = 0x6001) (hn : s.faults.queue.length < leNat (dmValue m)) :
    exec (.faultAck m) s = .next ((s.accepted m x r).respond m { status := 0x02, ty := r.ty.code }).settle := by
  refine writeRow_refused (mine := fun i _ => i == 0x6001) (rule := ackRule) hw (by simp [hi]) ?_
  simp only [ackRule, accepted_faults]
  exact if_pos hn

/-! ### PortMode -/

theorem exec_portModeWrite_passes (ha : s.auditRefuses = false) (hi : dmIdx m = 0x4000) (hf : s.modeFail (askedBy m x) = none) :
    exec (.portModeWrite m) s = .next
      ((setMode (s.accepted m x r) (askedBy m x)).recorded m r ((s.accepted m x r).entryOf m x r 0)).settle :=
  writeRow_passes (mine := fun i _ => i == 0x4000) (rule := modeRule) hw (by simp [hi]) (by simp [modeRule, hf]) ha

theorem exec_portModeWrite_refused {st : Nat} {k : Option Nat} (hi : dmIdx m = 0x4000) (hf : s.modeFail (askedBy m x) = some (st, k)) :
    exec (.portModeWrite m) s = .next ((s.accepted m x r).respond m { status := st, ty := r.ty.code, crew := k }).settle :=
  writeRow_refused (mine := fun i _ => i == 0x4000) (rule := modeRule) hw (by simp [hi]) (by simp [modeRule, hf])

/-! ### PortRetrain and ShaperBurst -/

theorem exec_portRetrain_passes (ha : s.auditRefuses = false) (hi : dmIdx m = 0x4004) :
    exec (.portRetrain m) s = .next
      ((retrainPort (s.accepted m x r) (askedBy m x)).recorded m r ((s.accepted m x r).entryOf m x r 0)).settle :=
  writeRow_passes (mine := fun i _ => i == 0x4004) (rule := { act := retrainPort }) hw (by simp [hi]) rfl ha

theorem exec_shaperBurstWrite_passes (ha : s.auditRefuses = false) (hl : 0x4180 ≤ dmIdx m) (hu : dmIdx m ≤ 0x41A3) :
    exec (.shaperBurstWrite m) s = .next
      ((setBurst (s.accepted m x r) (askedBy m x)).recorded m r ((s.accepted m x r).entryOf m x r 0)).settle :=
  writeRow_passes (mine := fun i _ => 0x4180 ≤ i && i ≤ 0x41A3) (rule := { act := setBurst }) hw (by simp [hl, hu]) rfl ha

end Written

/-- R343: a PortMode other than Ethernet is refused for a crew that uses the port, and for nothing else. -/
theorem modeFail_notEthernet {s : State} {w : DictWrite} (h : w.num ≠ 2) :
    s.modeFail w = (s.lowestCrew fun c => within 2 5 c.state && s.usesPort c (w.sub - 1)).map fun k => (0x03, some k) := by
  unfold State.modeFail
  dsimp only
  rw [if_neg (by simp [h])]
  unfold State.firstCrew
  cases s.lowestCrew fun c => within 2 5 c.state && s.usesPort c (w.sub - 1) with
  | none => rfl
  | some k => rfl

theorem lowestCrew_none {s : State} {p : Crew → Bool} (h : ∀ c ∈ s.crews, p c = false) : s.lowestCrew p = none := by
  have hnone : s.crews.filter p = [] := List.filter_eq_nil_iff.2 fun c hc => by simp [h c hc]
  unfold State.lowestCrew
  rw [hnone]
  rfl

/-- R343: a PortMode other than Ethernet of a port that no running crew uses is not refused. -/
theorem modeFail_unused {s : State} {w : DictWrite} (h : w.num ≠ 2)
    (hc : ∀ c ∈ s.crews, 2 ≤ c.state → c.state ≤ 5 → s.usesPort c (w.sub - 1) = false) : s.modeFail w = none := by
  rw [modeFail_notEthernet h, lowestCrew_none]
  · rfl
  · intro c hm
    rw [Bool.and_eq_false_iff, or_iff_not_imp_left, Bool.not_eq_false, within_iff]
    exact fun ⟨hlow, hhigh⟩ => hc c hm hlow hhigh

theorem State.sameButMem.startup {s t : State} (h : s.sameButMem t) : t.startup = s.startup := by
  obtain ⟨m, rfl⟩ := h
  rfl

theorem trainPort_startup (s : State) (n : Nat) : (s.trainPort n).startup = s.startup := by
  unfold State.trainPort
  dsimp only
  split
  · simp [State.downUnlicensedPort, State.downPort]
  · split <;> simp

/-- R343, R457: a port's new mode leaves start-up alone. -/
theorem remodePort_startup (s : State) (n : Nat) : (s.remodePort n).startup = s.startup := by
  have hrelease (t : State) : (t.releaseIngress n).startup = t.startup := by
    unfold State.releaseIngress
    split
    · rfl
    · exact (freeRef_sameButMem t _).startup
  have hcharge (t : State) : (t.chargeIngress n).startup = t.startup := by
    unfold State.chargeIngress
    split
    · exact (alloc_sameButMem t _ _ _ _).startup
    · rfl
  unfold State.remodePort
  rw [hcharge, hrelease, trainPort_startup]

/-- R343: the port takes its new mode, and once the device runs the admissions and routes are judged again. -/
theorem setMode_eq (s : State) (w : DictWrite) :
    setMode s w = if s.started then ((putNum s w).remodePort (w.sub - 1)).recheckTimed.reroute else (putNum s w).remodePort (w.sub - 1) := by
  have hstarted : ((putNum s w).remodePort (w.sub - 1)).started = s.started := by
    unfold State.started
    rw [remodePort_startup]
    rfl
  unfold setMode
  dsimp only
  rw [hstarted]

/-! ### A port retrained by request -/

/-- R353: the retrain counted, and the recent ones noted. -/
def Port.countRetrain (p : Port) (recent : List Nat) : Port := { p with retrains := (p.retrains + 1) % 4294967296, recent := recent }

/-- R352, R368: a port that retrains from a running state. -/
def Port.resume (p : Port) (proto : Bool) : Port :=
  { p with resuming := true, protoErr := proto, agreed := 0, shaken := false, link := p.link.retrained }

/-- R353: the recent retrains of a port forgotten. -/
def Port.forgetRetrains (p : Port) : Port := { p with recent := [] }

/-- R352: a port that its licence covers, with fewer than three recent retrains, trains again. -/
theorem retrain_trains {s : State} {n : Nat} {p : Port} (proto : Bool) (hp : s.port n = some p) (hl : s.unlicensed n = false)
    (hr : (s.retrainsIn p).length < 3) :
    s.retrain n proto =
      ((s.modPort n (Port.countRetrain · (s.retrainsIn p ++ [s.uptime]))).modPort n (Port.resume · proto)).setPortState n 1 := by
  have hl' : (s.modPort n (Port.countRetrain · (s.retrainsIn p ++ [s.uptime]))).unlicensed n = false := hl
  unfold State.retrain
  rw [hp]
  dsimp only
  exact (if_neg (ne_true_of_eq_false hl')).trans (if_neg (by simp; omega))

section RetrainRunning
variable {s : State} {w : DictWrite} {n : Nat} {p : Port} (hn : w.sub - 1 = n) (hp : s.port n = some p) (hl : s.unlicensed n = false)
  (hs : p.state = 2 ∨ p.state = 3)
include hn hp hl hs

/-- R353: a retrain by request of a running port that its licence covers: what came of it before is forgotten, and so is this one. -/
theorem retrainPort_running :
    retrainPort s w =
      ((((s.modPort n Port.forgetRetrains).modPort n (Port.countRetrain · [s.uptime])).modPort n (Port.resume · false)).setPortState n
        1).modPort n Port.forgetRetrains := by
  have hp' : (s.modPort n fun p => { p with recent := [] }).port n = some p.forgetRetrains := modPort_port_self hp fun _ => rfl
  unfold retrainPort
  dsimp only
  rw [hn, hp']
  dsimp only
  rw [if_pos (by simpa [Port.forgetRetrains] using hs),
    retrain_trains false hp' hl (by simp [State.retrainsIn, Port.forgetRetrains])]
  rfl

theorem retrainPort_faults : (retrainPort s w).faults = s.faults := by
  rw [retrainPort_running hn hp hl hs, modPort_faults, setPortState_faults]
  rfl

/-- R353: the port trains again with the retrain counted and none remembered, and no other port changes. -/
theorem retrainPort_port : (retrainPort s w).port n = some { (p.countRetrain []).resume false with state := 1 } ∧
    ∀ k, k ≠ n → (retrainPort s w).port k = s.port k := by
  have hforgot := modPort_port_self hp (f := Port.forgetRetrains) fun _ => rfl
  have hcounted := modPort_port_self hforgot (f := (Port.countRetrain · [s.uptime])) fun _ => rfl
  have hresumed := modPort_port_self hcounted (f := (Port.resume · false)) fun _ => rfl
  have htrains := setPortState_port_self hresumed 1
  rw [retrainPort_running hn hp hl hs]
  refine ⟨modPort_port_self htrains fun _ => rfl, fun k hk => ?_⟩
  rw [modPort_port_other hk, setPortState_port_other hresumed 1 hk, modPort_port_other hk, modPort_port_other hk,
    modPort_port_other hk]
  all_goals exact fun _ => rfl

end RetrainRunning

/-! ### A bucket held to its new size -/

/-- R397: the queues of a port with the bucket of one filled up to now and changed. -/
def State.settledQueues (s : State) (port q : Nat) (f : TxQueue → TxQueue) (l : List TxQueue) : List TxQueue :=
  l.zipIdx.map fun (t, i) => if i == q then f (s.fillBucket port q t) else t

section Bucket
variable (s : State) (port q : Nat) (f : TxQueue → TxQueue) (l : List TxQueue)

@[simp] theorem settledQueues_length : (s.settledQueues port q f l).length = l.length := by simp [State.settledQueues]

theorem settledQueues_self : (s.settledQueues port q f l)[q]? = l[q]?.map fun t => f (s.fillBucket port q t) := by
  simp [State.settledQueues, List.getElem?_zipIdx, Function.comp_def]

theorem settledQueues_other {i : Nat} (hi : i ≠ q) : (s.settledQueues port q f l)[i]? = l[i]? := by
  simp [State.settledQueues, List.getElem?_zipIdx, Function.comp_def, hi]

theorem settleBucket_num (i j : Nat) : (s.settleBucket port q f).num i j = s.num i j := rfl

variable {s port} in
theorem settleBucket_port {p : Port} (hp : s.port port = some p) :
    (s.settleBucket port q f).port port = some { p with queues := s.settledQueues port q f p.queues } :=
  modPort_port_self hp fun _ => rfl

end Bucket

/-- R661: a number put into the dictionary is the setting read. -/
theorem putNum_num (s : State) (w : DictWrite) : (putNum s w).num w.idx w.sub = w.num := by
  have hbelow : (s.dict.values.filter fun p => 256 * p.1.1 + p.1.2 < 256 * w.idx + w.sub).find? (fun p => p.1 == (w.idx, w.sub)) = none := by
    refine List.find?_eq_none.2 fun p hp heq => ?_
    have hkey : p.1 = (w.idx, w.sub) := by simpa using heq
    simp [hkey] at hp
  have hfind : (putNum s w).dict.find w.idx w.sub = some (.num w.num) := by
    simp only [putNum, Dict.put, Dict.find, List.find?_append, hbelow]
    simp
  simp only [State.num, hfind]

/-- R398: a queue with its bucket clipped to a burst of bytes. -/
def TxQueue.clip (burst : Nat) (t : TxQueue) : TxQueue := { t with bucket := min t.bucket (burst * 32768) }

theorem clip_bucket_le (burst : Nat) (t : TxQueue) : (TxQueue.clip burst t).bucket ≤ burst * 32768 := Nat.min_le_right ..

/-- R398: the bucket is filled up to now under the old burst, and again, clipped, under the new. -/
theorem setBurst_eq (s : State) (w : DictWrite) {n : Nat} (hn : w.idx - 0x4180 = n) :
    setBurst s w = (putNum (s.settleBucket n (w.sub - 1) id) w).settleBucket n (w.sub - 1) (TxQueue.clip w.num) := by
  subst hn
  rfl

section Burst
variable (s : State) (w : DictWrite)

theorem setBurst_faults : (setBurst s w).faults = s.faults := rfl

/-- R661, R398: the new burst size is the setting read. -/
theorem setBurst_num : (setBurst s w).num w.idx w.sub = w.num := by
  rw [setBurst_eq s w rfl, settleBucket_num, putNum_num]

variable {s w} in
/-- R398: the bucket of the queue named holds no more than the new burst, and the other queues stay. -/
theorem setBurst_port {n : Nat} {p : Port} (hn : w.idx - 0x4180 = n) (hp : s.port n = some p) :
    ∃ q, (setBurst s w).port n = some q ∧ q.queues.length = p.queues.length ∧
      (∀ a, q.queues[w.sub - 1]? = some a → a.bucket ≤ w.num * 32768) ∧ ∀ i, i ≠ w.sub - 1 → q.queues[i]? = p.queues[i]? := by
  have hfilled := settleBucket_port (w.sub - 1) id hp
  have hput : (putNum (s.settleBucket n (w.sub - 1) id) w).port n = _ := hfilled
  rw [setBurst_eq s w hn, settleBucket_port (w.sub - 1) (TxQueue.clip w.num) hput]
  refine ⟨_, rfl, by simp, fun a h => ?_, fun i hi => ?_⟩
  · rw [settledQueues_self, Option.map_eq_some_iff] at h
    obtain ⟨t, -, rfl⟩ := h
    exact clip_bucket_le _ _
  · rw [settledQueues_other _ _ _ _ _ hi, settledQueues_other _ _ _ _ _ hi]

end Burst

/-! ### SPDM -/

theorem exec_spdmRequest (s : State) (t : Transport) (q : SpdmReq) : exec (.spdmRequest t q) s = .next (s.spdm t q).settle := rfl

/-- R714: a request on a transport that carries SPDM is answered and has its effect. -/
theorem spdm_answered {s : State} {t : Transport} (ht : t ≠ .t1s) (hu : s.dictUp t = true) (q : SpdmReq) :
    s.spdm t q = (s.send (.spdm t (spdmCode q) (s.spdmAnswer q).1 (s.spdmAnswer q).2)).spdmEffect t q := by
  unfold State.spdm
  rw [if_neg (by simp [ht, hu])]

/-! ### Addresses -/

theorem exec_setEndpointId {s : State} {e : Nat} (h : s.dictUp .mctp = true) :
    exec (.setEndpointId e) s = .next ({ s with dict := { s.dict with mctpEid := e % 256 } } : State).settle := by
  have hexec : exec (.setEndpointId e) s =
    .next (if s.dictUp .mctp then ({ s with dict := { s.dict with mctpEid := e % 256 } } : State) else s).settle := rfl
  rw [hexec, if_pos h]

theorem exec_dynamicAddressAssignment {s : State} {a : Nat} (h : s.dictUp .mctp = true) :
    exec (.dynamicAddressAssignment a) s = .next ({ s with dict := { s.dict with i3cDynamic := some a } } : State).settle := by
  have hexec : exec (.dynamicAddressAssignment a) s =
    .next (if s.dictUp .mctp then ({ s with dict := { s.dict with i3cDynamic := some a } } : State) else s).settle := rfl
  rw [hexec, if_pos h]

/-! ### The statement -/

/-- Settles O54: each clause is the effect of the object's rule, or of the event, where its premises put it. -/
theorem deviceObjectsWritten : Obligations.DeviceObjectsWritten := by
  refine ⟨?reset, ?format, ?ack, ?mode, ?retrain, ?burst, ?spdm, ?addresses⟩
  case reset =>
    rintro s m x r ⟨hq, hw, ha⟩ hi u
    exact exec_deviceResetWrite hw ha hi
  case format =>
    rintro s m x r ⟨hq, hw, ha⟩ hi u
    refine ⟨fun hf hs hh => ?_, fun k hk hmin => ?_⟩
    · have hbegin : beginFormat u (askedBy m x) = { u with media := { u.media with formatting := true, state := 3 } } := by
        simp only [beginFormat, u, accepted_media, hh, if_pos hs]
        rfl
      rw [exec_mediaFormat_begins hw ha hi hf, hbegin, recorded_settle]
      exact accepted_quiet s m x r hq
    · rw [exec_mediaFormat_refused hw hi hk hmin, respond_settle (accepted_quiet s m x r hq)]
  case ack =>
    rintro s m x r ⟨hq, hw, ha⟩ hi u n left
    refine ⟨fun hn => ?_, fun hn => ?_⟩
    · have hact : ackFaults u (askedBy m x) =
          { u with dict := u.dict.put 0x6001 (dmSub m) (.num n), faults := { u.faults with queue := left } } := by
        simp only [ackFaults, putNum, askedBy, hi, u, accepted_faults]
        rfl
      rw [exec_faultAck_removes hw ha hi hn, hact, recorded_settle]
      exact accepted_quiet s m x r hq
    · rw [exec_faultAck_refused hw hi hn, respond_settle (accepted_quiet s m x r hq)]
  case mode =>
    rintro s m x r ⟨hq, hw, ha⟩ hi u n t
    have ht : (putNum u (askedBy m x)).remodePort n = t := by
      simp only [putNum, askedBy, hi, t]
      rfl
    have hset : setMode u (askedBy m x) = if s.started then t.recheckTimed.reroute else t := by
      rw [setMode_eq, ← ht, State.started, accepted_startup]
      rfl
    have hfail (hv : leNat (dmValue m) ≠ 2) :
        s.modeFail (askedBy m x) = (s.lowestCrew fun c => within 2 5 c.state && s.usesPort c n).map fun k => (0x03, some k) :=
      modeFail_notEthernet hv
    refine ⟨fun hv hc hs => ?_, fun hv hc hs => ?_, fun hv k hk => ?_⟩
    · rw [exec_portModeWrite_passes hw ha hi (modeFail_unused hv hc), hset, if_neg (by simp [hs])]
    · rw [exec_portModeWrite_passes hw ha hi (modeFail_unused hv hc), hset, if_pos hs]
    · rw [exec_portModeWrite_refused hw hi (by rw [hfail hv, hk]; rfl), respond_settle (accepted_quiet s m x r hq)]
  case retrain =>
    rintro s m x r p ⟨hq, hw, ha⟩ hi hp hl hs
    have hport : (s.accepted m x r).port (dmSub m - 1) = some p := (accepted_port s m x r _).trans hp
    have hlic := (accepted_unlicensed s m x r (dmSub m - 1)).trans hl
    obtain ⟨hself, hother⟩ := retrainPort_port (w := askedBy m x) rfl hport hlic hs
    refine ⟨retrainPort (s.accepted m x r) (askedBy m x), _, ?_, hself, rfl, fun n hn => (hother n hn).trans (accepted_port s m x r n)⟩
    rw [exec_portRetrain_passes hw ha hi, recorded_settle]
    rw [State.quiet, retrainPort_faults (w := askedBy m x) rfl hport hlic hs]
    exact accepted_quiet s m x r hq
  case burst =>
    rintro s m x r p ⟨hq, hw, ha⟩ hl hu hp
    obtain ⟨q, hport, hlen, hself, hother⟩ := setBurst_port (w := askedBy m x) rfl ((accepted_port s m x r _).trans hp)
    refine ⟨setBurst (s.accepted m x r) (askedBy m x), q, ?_, setBurst_num _ (askedBy m x), hport, hlen, hself, hother⟩
    rw [exec_shaperBurstWrite_passes hw ha hl hu, recorded_settle]
    rw [State.quiet, setBurst_faults]
    exact accepted_quiet s m x r hq
  case spdm =>
    intro s t hq ht hu
    simp only [exec_spdmRequest, spdm_answered ht hu]
    refine ⟨?_, ⟨_, rfl, _, ?_, ?_, congrArg _ (settle_quiet hq)⟩, ⟨_, _, ?_, congrArg _ (settle_quiet hq)⟩⟩
    · exact congrArg _ (settle_quiet hq)
    · split
      · next h => simpa using h
      · simp
    · split
      · exact fun y hy => hy
      · exact fun y hy => List.mem_append_left _ hy
    · simp
  case addresses =>
    intro s hq hu
    refine ⟨fun e => ?_, fun a => ?_⟩
    · rw [exec_setEndpointId hu, settle_quiet]
      exact hq
    · rw [exec_dynamicAddressAssignment hu, settle_quiet]
      exact hq

end Sys2Proof.Machine
end

section
/-!
PROOFS. A READ whose staging buffer no pool has (R444, R447): the request that moves on to the fallback tier counts in TierFallbacks
though it fails (R463), so the state in which the READ waits is not the state before, and the refutation of O19 from that.
-/
namespace Sys2Proof.Machine

theorem exec_read {s : State} {q i : Nat} {c : Cmd} (h : s.readyCmd q i 0x10 none = some c) :
    exec (.read q i) s = .next (s.readMedia c).settle := atCmd_ready (f := fun c s => s.readMedia c) h

/-- R444: a READ of units not lost, that nothing holds back, of blocks within the capacity and data within the quota, passes through its
staging buffer. -/
theorem readMedia_staged {s : State} {c : Cmd} (hup : ∀ f, s.mediaCmd c .readError f = f s)
    (hend : c.slba + c.nlb ≤ s.media.capacity) (hquota : c.dlen ≤ s.num 0x5820 0 * 1048576)
    (hlost : s.media.lostIn (4096 * c.slba) (4096 * c.nlb) = false) :
    s.readMedia c = s.staged c fun s => (s.toHost c (s.media.readBytes (4096 * c.slba) (4096 * c.nlb))).complete c .ok := by
  simp only [State.readMedia, hup, pastEnd_none hend, overQuota_within hquota, hlost, Bool.false_eq_true, if_false]

/-- R447: a command that gets no staging buffer waits; what its request counted stands. -/
theorem staged_waits {s w : State} {c : Cmd} (f : State → State)
    (h : s.alloc .writeWindow (.window c.qid c.cid 16384) (4096 * c.nlb) [ownerId 3 c.qid] = (false, w)) : s.staged c f = w := by
  unfold State.staged
  dsimp only
  rw [h]

/-- A ready READ of block 0 (NLB at byte 28). -/
def readOfBlock0 : Cmd :=
  { qid := 1, cid := 7, order := 0, capsule := [0x10] ++ zeros 27 ++ [1] ++ zeros 35, plist := [], wait := .ready }

/-- The pool of a tier that serves one block, its one buffer given away. -/
def emptyPool (tier : Nat) : Pool := { tier := tier, n := 1, total := 1, fresh := 1 }

/-- A device of one block of mounted media with that READ outstanding, and with no buffer left in either tier. -/
def readingWithoutBuffers : State :=
  { media := { state := 0, capacity := 1 }, host := { cmds := [readOfBlock0] }, mem := { pools := [emptyPool 0, emptyPool 1] } }

/-- R463: that device after the READ's request, which tier 1 could not serve, has moved on to tier 0 in vain. -/
def readingAfterFallback : State :=
  { readingWithoutBuffers with mem := { readingWithoutBuffers.mem with tierFallbacks := [0, 1] } }

theorem readingWithoutBuffers_alloc :
    readingWithoutBuffers.alloc .writeWindow (.window readOfBlock0.qid readOfBlock0.cid 16384) (4096 * readOfBlock0.nlb)
      [ownerId 3 readOfBlock0.qid] = (false, readingAfterFallback) := by rfl

/-- Refutes O19: a READ that waits for its staging buffer has raised TierFallbacks, where the statement has the state unchanged. -/
theorem not_mediaCommandsServe : ¬ Obligations.MediaCommandsServe := by
  rintro ⟨hread, -⟩
  have hready : readingWithoutBuffers.readyCmd 1 7 0x10 none = some readOfBlock0 := by rfl
  have hheld : readingWithoutBuffers.mediaHeld readOfBlock0 = false := by rfl
  have hup (f : State → State) : readingWithoutBuffers.mediaCmd readOfBlock0 .readError f = f readingWithoutBuffers :=
    mediaCmd_up (Nat.zero_le 2) rfl hheld rfl
  have hend : readOfBlock0.slba + readOfBlock0.nlb ≤ readingWithoutBuffers.media.capacity := by decide
  have hquota : readOfBlock0.dlen ≤ readingWithoutBuffers.num 0x5820 0 * 1048576 := by decide
  have hlost : readingWithoutBuffers.media.lostIn (4096 * readOfBlock0.slba) (4096 * readOfBlock0.nlb) = false := by rfl
  obtain ⟨-, -, hserved⟩ := hread readingWithoutBuffers 1 7 readOfBlock0 hready ⟨Nat.zero_le 2, rfl, hheld⟩ hend
  have hexec := hserved hquota hlost
  rw [exec_read hready, readMedia_staged hup hend hquota hlost, staged_waits _ readingWithoutBuffers_alloc] at hexec
  dsimp only at hexec
  rw [readingWithoutBuffers_alloc, if_neg Bool.false_ne_true, settle_quiet (s := readingAfterFallback) rfl,
    settle_quiet (s := readingWithoutBuffers) rfl] at hexec
  have hsame : readingAfterFallback = readingWithoutBuffers := Host.Outcome.next.inj hexec
  have hcount : ([0, 1] : List Nat) = [0, 0] := congrArg (fun s => s.mem.tierFallbacks) hsame
  exact absurd hcount (by decide)

end Sys2Proof.Machine
end

section
/-!
PROOFS. The buffer pool manager (R444 to R455, R462): what taking and giving back buffers leaves alone, what a request that is granted
adds, what an owner that leaves or joins changes, the ring and the caches of a pool counted buffer by buffer, and the statement O49 from
that.
-/
namespace Sys2Proof.Machine

/-! ### Taking and giving back touch the pools alone -/

/-- Two managers that differ in their pools alone. -/
def Pools.sameButPools (m n : Pools) : Prop := ∃ l, n = { m with pools := l }

theorem Pools.sameButPools.refl (m : Pools) : m.sameButPools m := ⟨m.pools, rfl⟩

theorem Pools.sameButPools.trans {m n k : Pools} (h : m.sameButPools n) (h' : n.sameButPools k) : m.sameButPools k := by
  obtain ⟨l, rfl⟩ := h
  obtain ⟨l', rfl⟩ := h'
  exact ⟨l', rfl⟩

theorem modPool_sameButPools (m : Pools) (tier n : Nat) (f : Pool → Pool) : m.sameButPools (m.modPool tier n f) := ⟨_, rfl⟩

theorem take_sameButPools {m k : Pools} {tier cls bytes n i : Nat} (h : m.take tier cls bytes = some (n, i, k)) : m.sameButPools k := by
  unfold Pools.take at h
  dsimp only at h
  split at h
  case h_1 => cases h
  case h_2 =>
    split at h
    case h_1 => cases h
    case h_2 =>
      cases h
      split
      · exact modPool_sameButPools ..
      · exact (modPool_sameButPools ..).trans (modPool_sameButPools ..)

theorem takeChain_sameButPools {tier cls tail : Nat} : ∀ {k : Nat} {m n : Pools} {l : List (Nat × Nat)},
    m.takeChain tier cls k tail = some (l, n) → m.sameButPools n
  | 0, m, n, l, h => by
    unfold Pools.takeChain at h
    split at h
    case isTrue => cases h; exact .refl m
    case isFalse =>
      split at h
      case h_1 => cases h
      case h_2 ht => cases h; exact take_sameButPools ht
  | k + 1, m, n, l, h => by
    unfold Pools.takeChain at h
    split at h
    case h_1 => cases h
    case h_2 ht =>
      split at h
      case h_1 => cases h
      case h_2 hc => cases h; exact (take_sameButPools ht).trans (takeChain_sameButPools hc)

theorem takeFor_sameButPools {m n : Pools} {tier cls bytes : Nat} {l : List (Nat × Nat)} (h : m.takeFor tier cls bytes = some (l, n)) :
    m.sameButPools n := by
  unfold Pools.takeFor at h
  split at h
  · exact takeChain_sameButPools h
  · exact takeChain_sameButPools h

theorem giveBack_sameButPools (m : Pools) (b : Buf) (cls : Nat) : m.sameButPools (m.giveBack b cls) :=
  List.foldlRecOn b.parts _ (Pools.sameButPools.refl m) fun _ hn _ _ => hn.trans (modPool_sameButPools ..)

/-! ### Requests -/

/-- R444 to R447: the state after a granted request differs from the one before by one buffer of the tier, with the next handle. -/
def State.adds (s t : State) (tier : Nat) (ref : BufRef) (use : BufUse) (owners : List Nat) : Prop :=
  t.mem.next = s.mem.next + 1 ∧ t.mem.waiting = s.mem.waiting ∧ ∃ b : Buf, t.mem.bufs = s.mem.bufs ++ [b] ∧ b.id = s.mem.next ∧
    b.ref = ref ∧ b.use = use ∧ b.owners = owners ∧ b.payers = owners.map (s.payer use) ∧ b.suspect = [] ∧
    b.bytes = chainBytes b.parts ∧ b.tier = tier

section Requests
variable {s t : State} {ref : BufRef} {use : BufUse} {bytes : Nat} {owners : List Nat}

theorem tryTier_adds {tier : Nat} (h : s.tryTier tier ref use bytes owners = .granted t) : s.adds t tier ref use owners := by
  unfold State.tryTier at h
  split at h
  case h_1 => cases h
  case h_2 htake =>
    obtain ⟨l, rfl⟩ := takeFor_sameButPools htake
    dsimp only at h
    split at h
    case isTrue => cases h; exact ⟨rfl, rfl, _, rfl, rfl, rfl, rfl, rfl, rfl, rfl, rfl, rfl⟩
    case isFalse => cases h

/-- A count in TierFallbacks is no part of what a granted request adds. -/
theorem allocFallback_adds {whole : Bool} (h : s.allocFallback use ref bytes owners whole = (true, t)) :
    ∃ tier, useFallback use = some tier ∧ s.adds t tier ref use owners := by
  unfold State.allocFallback at h
  split at h
  case h_1 => cases h
  case h_2 tier htier =>
    split at h
    case isTrue => cases h
    case isFalse =>
      dsimp only at h
      split at h
      case h_1 htry =>
        cases h
        have hadds := tryTier_adds htry
        exact ⟨tier, htier, hadds⟩
      case h_2 => cases h

/-- R444: a granted request was served by the preferred tier or the fallback one. -/
theorem alloc_adds (h : s.alloc use ref bytes owners = (true, t)) :
    ∃ tier, (tier = usePreferred use ∨ useFallback use = some tier) ∧ s.adds t tier ref use owners := by
  have fallback {whole : Bool} (h : s.allocFallback use ref bytes owners whole = (true, t)) :
      ∃ tier, (tier = usePreferred use ∨ useFallback use = some tier) ∧ s.adds t tier ref use owners := by
    obtain ⟨tier, htier, hadds⟩ := allocFallback_adds h
    exact ⟨tier, .inr htier, hadds⟩
  rw [alloc_eq] at h
  split at h
  case h_1 htry => cases h; exact ⟨_, .inl rfl, tryTier_adds htry⟩
  case h_2 => exact fallback h
  case h_3 => exact fallback h

end Requests

/-- R447, R449: a request joins the end of those that wait. -/
def State.enqueueWait (s : State) (w : BufWait) : State := { s with mem := { s.mem with waiting := s.mem.waiting ++ [w] } }

theorem exec_bufferAllocate (s : State) (use : BufUse) (holder bytes : Nat) :
    exec (.bufferAllocate use holder bytes) s = .next (s.request use holder bytes).settle := rfl

/-- R444, R447: what becomes of a request for bytes of pools that are carved. -/
theorem request_eq {s : State} {use : BufUse} {holder bytes : Nat} (hp : s.mem.pools ≠ []) (hb : bytes ≠ 0) :
    let r := s.alloc use (requestRef s.mem.next) bytes [ownerId (useClass use) holder]
    s.request use holder bytes = if r.1 then r.2
      else if 4 ≤ useClass use then r.2.enqueueWait { use := use, holder := holder, bytes := bytes } else r.2 := by
  intro r
  unfold State.request
  rw [if_neg (by simp [hp, hb])]
  change (match r with | (true, s) => s | (false, s) => _) = _
  obtain ⟨granted, t⟩ := r
  cases granted <;> rfl

/-! ### Owners that leave and join -/

theorem exec_bufferFree (s : State) (o id : Nat) : exec (.bufferFree o id) s = .next (s.freeBuffer o id).settle := rfl

theorem raise_mem (s : State) (r : Raise) : (s.raise r).mem = s.mem := by
  obtain ⟨f, hf⟩ := raise_faults_only s r
  rw [hf]

section Owners
variable {s : State} {o id : Nat} {b : Buf}

/-- R454: a free by a requester that is no owner is refused. -/
theorem freeBuffer_refused (hb : (s.mem.bufs.find? fun b => b.id == id) = some b) (ho : o ∉ b.owners) :
    s.freeBuffer o id = s.raise { unit := 0x2C2, kind := 0x31, addr := o } := by
  unfold State.freeBuffer
  rw [hb]
  exact if_pos (by simpa using ho)

/-- R289, R292: the resident copies that still have a buffer. -/
def State.keepResidents (s : State) : State :=
  { s with residents := s.residents.filter fun r => s.mem.bufs.any fun b => b.ref == .resident r.dset r.shard }

/-- R452: an owner that frees leaves the buffer's list; resident copies without a buffer go, and waiting requests are served. -/
theorem freeBuffer_leaves (hb : (s.mem.bufs.find? fun b => b.id == id) = some b) (ho : o ∈ b.owners) :
    s.freeBuffer o id = (s.leave o b).keepResidents.serveWaiting := by
  unfold State.freeBuffer
  rw [hb]
  exact if_neg (by simpa using ho)

/-- R452: the last owner's buffer goes back. -/
theorem leave_last_bufs (h : b.owners = [o]) : (s.leave o b).mem.bufs = s.mem.bufs.filter fun x => x.id != b.id := by
  unfold State.leave
  dsimp only
  rw [if_pos (by simp [h])]

/-- R452: the first owner leaves the buffer to the others. -/
theorem leave_first_owners {p : Nat} {l : List Nat} (h : b.owners = o :: p :: l) {y : Buf} (hy : y ∈ (s.leave o b).mem.bufs)
    (hid : y.id = b.id) : y.owners = p :: l := by
  unfold State.leave at hy
  dsimp only at hy
  rw [if_neg (by simp [h])] at hy
  obtain ⟨x, -, rfl⟩ := List.mem_map.1 hy
  by_cases hx : (x.id == b.id) = true
  · simp [hx, h]
  · rw [if_neg hx] at hid
    exact absurd hid (by simpa using hx)

/-- R452, R455: an owner may join a list that has owners and room, when its quota holds the buffer's full size. -/
def State.mayJoin (s : State) (o : Nat) (b : Buf) : Prop :=
  b.owners ≠ [] ∧ o ∉ b.owners ∧ b.owners.length < 64 ∧ s.affords (s.payer b.use o) b.tier b.bytes = true

/-- R452: a buffer with one owner more, and who pays for that owner's share. -/
def Buf.joined (b : Buf) (o : Nat) (p : Payer) : Buf := { b with owners := b.owners ++ [o], payers := b.payers ++ [p] }

/-- R452: the buffers after an owner has joined the list of one of them. -/
def State.withOwner (s : State) (o id : Nat) (p : Payer) : State :=
  { s with mem := { s.mem with bufs := updWhere (fun x => x.id == id) (fun x => x.joined o p) s.mem.bufs } }

theorem exec_ownerAdd (s : State) (o id : Nat) : exec (.ownerAdd o id) s = .next (s.addOwner o id).settle := rfl

theorem addOwner_joins (hb : (s.mem.bufs.find? fun b => b.id == id) = some b) (hj : s.mayJoin o b) :
    s.addOwner o id = s.withOwner o id (s.payer b.use o) := by
  obtain ⟨hne, hnot, hroom, hquota⟩ := hj
  unfold State.addOwner
  rw [hb]
  exact if_neg (by simp [hne, hnot, hroom, hquota])

theorem addOwner_refused (hb : (s.mem.bufs.find? fun b => b.id == id) = some b) (hj : ¬s.mayJoin o b) : s.addOwner o id = s := by
  unfold State.addOwner
  rw [hb]
  refine if_pos ?_
  by_contra h
  simp only [Bool.or_eq_true, List.isEmpty_iff, List.contains_iff_mem, decide_eq_true_eq, Bool.not_eq_true', not_or, Nat.not_le,
    Bool.not_eq_false] at h
  obtain ⟨⟨⟨hne, hnot⟩, hroom⟩, hquota⟩ := h
  exact hj ⟨hne, hnot, hroom, hquota⟩

theorem withOwner_find_self (p : Payer) (hb : (s.mem.bufs.find? fun b => b.id == id) = some b) :
    ((s.withOwner o id p).mem.bufs.find? fun b => b.id == id) = some (b.joined o p) :=
  find_updWhere _ _ _ _ (fun _ ha => ha) hb

theorem withOwner_find_other (p : Payer) {j : Nat} (hj : j ≠ id) :
    ((s.withOwner o id p).mem.bufs.find? fun b => b.id == j) = s.mem.bufs.find? fun b => b.id == j :=
  find_updWhere_other _ _ _ _ fun a ha => by
    have hother : (a.id == j) = false := by simpa [eq_of_beq ha] using hj.symm
    exact ⟨hother, hother⟩

end Owners

/-! ### Ring and caches -/

theorem exec_poolCacheRefill {s : State} (tier pool : Nat) {cls : Nat} (h : cls < 7) :
    exec (.poolCacheRefill tier pool cls) s = .next ({ s with mem := s.mem.modPool tier pool fun p => p.tend cls } : State).settle := by
  calc exec (.poolCacheRefill tier pool cls) s = .next (s.tendCache tier pool cls).settle := rfl
    _ = _ := by rw [State.tendCache, if_pos h]

section Caches
variable {p : Pool} {cls : Nat}

/-- Replacing a list among lists changes their total length by what the lists hold. -/
theorem sum_length_set {α : Type} (l : List (List α)) {i : Nat} (h : i < l.length) (c : List α) :
    ((l.set i c).map List.length).sum + (l.getD i []).length = (l.map List.length).sum + c.length := by
  induction l generalizing i with
  | nil => exact absurd h (Nat.not_lt_zero i)
  | cons a l ih =>
    cases i with
    | zero => simp; omega
    | succ i =>
      have := ih (Nat.lt_of_succ_lt_succ h)
      simp only [List.set_cons_succ, List.map_cons, List.sum_cons, List.getD_cons_succ]
      omega

/-- R448: what a class's cache gains, the pool's free buffers gain when the ring stays. -/
theorem setCache_free (h : cls < p.caches.length) (c : List Nat) :
    (p.setCache cls c).free + (p.caches.getD cls []).length = p.free + c.length := by
  have hsum := sum_length_set p.caches h c
  have hring : (p.setCache cls c).ring = p.ring := rfl
  have hcaches : (p.setCache cls c).caches = p.caches.set cls c := rfl
  rw [Pool.free, Pool.free, hring, hcaches]
  omega

theorem setCache_getD (h : cls < p.caches.length) (c : List Nat) : (p.setCache cls c).caches.getD cls [] = c := by
  simp [Pool.setCache, h]

/-- R448, R462: the buffers of a pool that were never taken and that no carving keeps out. -/
def Pool.untaken (p : Pool) : Finset Nat := Finset.Ico p.fresh p.total \ p.kept.toFinset

/-- R448, R462: the ring holds the never-taken buffers and those returned. -/
theorem ring_eq (hk : p.kept.Nodup) : p.ring = p.untaken.card + p.back.length := by
  have hinter : p.kept.toFinset ∩ Finset.Ico p.fresh p.total = (p.kept.filter fun i => p.fresh ≤ i && i < p.total).toFinset := by
    ext i
    simp
  rw [Pool.ring, Pool.untaken, Finset.card_sdiff, hinter, List.toFinset_card_of_nodup (hk.filter _), Nat.card_Ico]

/-- R448, R462: the first buffer from `fresh` on that no carving keeps out, the never-taken one that the ring gives. -/
def Pool.firstFresh (p : Pool) : Nat :=
  p.fresh + (((List.range (p.kept.length + 1)).find? fun d => !p.kept.contains (p.fresh + d)).getD 0)

/-- Among one more candidates than the carving keeps out, one is not kept out. -/
theorem exists_not_kept (p : Pool) : ∃ d < p.kept.length + 1, p.fresh + d ∉ p.kept := by
  by_contra! h
  have hsub : (List.range (p.kept.length + 1)).map (p.fresh + ·) ⊆ p.kept := by
    intro i hi
    obtain ⟨d, hd, rfl⟩ := List.mem_map.1 hi
    exact h d (List.mem_range.1 hd)
  have hnodup : ((List.range (p.kept.length + 1)).map (p.fresh + ·)).Nodup := List.nodup_range.map fun a b => by omega
  have hle := (List.subperm_of_subset hnodup hsub).length_le
  simp at hle

theorem firstFresh_spec (p : Pool) : p.fresh ≤ p.firstFresh ∧ p.firstFresh ∉ p.kept ∧ ∀ i, p.fresh ≤ i → i < p.firstFresh → i ∈ p.kept := by
  obtain ⟨d, hd, hnot⟩ := exists_not_kept p
  unfold Pool.firstFresh
  cases hfind : (List.range (p.kept.length + 1)).find? fun d => !p.kept.contains (p.fresh + d) with
  | none =>
    have := List.find?_eq_none.1 hfind d (List.mem_range.2 hd)
    simp [hnot] at this
  | some e =>
    obtain ⟨he, -, hbefore⟩ := List.find?_range_eq_some.1 hfind
    refine ⟨Nat.le_add_right .., by simpa using he, fun i hi hlt => ?_⟩
    have := hbefore (i - p.fresh) (by simp at hlt; omega)
    rw [Nat.add_sub_cancel' hi] at this
    simpa using this

/-- R448: the ring after its first fresh buffer was taken. -/
def Pool.takeFresh (p : Pool) : Pool := { p with fresh := p.firstFresh + 1 }

@[simp] theorem takeFresh_kept (p : Pool) : p.takeFresh.kept = p.kept := rfl

@[simp] theorem takeFresh_back (p : Pool) : p.takeFresh.back = p.back := rfl

theorem mem_untaken {i : Nat} : i ∈ p.untaken ↔ (p.fresh ≤ i ∧ i < p.total) ∧ i ∉ p.kept := by simp [Pool.untaken]

theorem mem_takeFresh_untaken {i : Nat} : i ∈ p.takeFresh.untaken ↔ (p.firstFresh + 1 ≤ i ∧ i < p.total) ∧ i ∉ p.kept := mem_untaken

/-- The untaken buffers are the first fresh one, when it lies in the pool, and those behind it. -/
theorem untaken_eq (p : Pool) : p.untaken = if p.firstFresh < p.total then insert p.firstFresh p.takeFresh.untaken else ∅ := by
  obtain ⟨hle, hnot, hbefore⟩ := firstFresh_spec p
  ext i
  rw [mem_untaken]
  split
  case isTrue hlt =>
    rw [Finset.mem_insert, mem_takeFresh_untaken]
    constructor
    · rintro ⟨⟨hfrom, hto⟩, hout⟩
      rcases Nat.lt_trichotomy i p.firstFresh with h | h | h
      · exact absurd (hbefore i hfrom h) hout
      · exact .inl h
      · exact .inr ⟨⟨h, hto⟩, hout⟩
    · rintro (rfl | ⟨⟨hfrom, hto⟩, hout⟩)
      · exact ⟨⟨hle, hlt⟩, hnot⟩
      · exact ⟨⟨by omega, hto⟩, hout⟩
  case isFalse hge =>
    simp only [Finset.notMem_empty, iff_false]
    rintro ⟨⟨hfrom, hto⟩, hout⟩
    exact hout (hbefore i hfrom (by omega))

/-- R448: a ring that holds a buffer gives one, and holds one less. -/
theorem takeRing_some (hk : p.kept.Nodup) (h : 0 < p.ring) :
    ∃ b q, p.takeRing = some (b, q) ∧ q.ring + 1 = p.ring ∧ q.caches = p.caches ∧ q.kept = p.kept := by
  have htake : p.takeRing = if p.firstFresh < p.total then some (p.firstFresh, p.takeFresh)
      else match p.back with
        | [] => none
        | b :: bs => some (b, { p with back := bs }) := rfl
  have huntaken := untaken_eq p
  rw [htake]
  split
  case isTrue hlt =>
    refine ⟨_, _, rfl, ?_, rfl, rfl⟩
    have hbehind : p.firstFresh ∉ p.takeFresh.untaken := by simp [mem_takeFresh_untaken]
    rw [if_pos hlt] at huntaken
    rw [ring_eq hk, ring_eq (p := p.takeFresh) hk, huntaken, Finset.card_insert_of_notMem hbehind, takeFresh_back]
    omega
  case isFalse hge =>
    rw [if_neg hge] at huntaken
    rw [ring_eq hk, huntaken, Finset.card_empty] at h
    cases hback : p.back with
    | nil => simp [hback] at h
    | cons b bs =>
      refine ⟨_, _, rfl, ?_, rfl, rfl⟩
      have hsame : ({ p with back := bs } : Pool).untaken = p.untaken := rfl
      rw [ring_eq hk, ring_eq (p := { p with back := bs }) hk, hsame, huntaken, hback]
      simp

/-- R448: a refill of n buffers from a ring that holds them moves them to the cache. -/
theorem refill_moves {n : Nat} (hc : cls < p.caches.length) (hk : p.kept.Nodup) (hn : n ≤ p.ring) :
    ((p.refill n cls).caches.getD cls []).length = (p.caches.getD cls []).length + n ∧ (p.refill n cls).ring + n = p.ring ∧
      (p.refill n cls).free = p.free := by
  induction n generalizing p with
  | zero => exact ⟨rfl, rfl, rfl⟩
  | succ n ih =>
    obtain ⟨b, q, htake, hring, hcaches, hkept⟩ := takeRing_some hk (Nat.zero_lt_of_lt hn)
    let w := q.setCache cls (p.caches.getD cls [] ++ [b])
    have hstep : p.refill (n + 1) cls = w.refill n cls := by
      rw [Pool.refill, htake]
      dsimp only
      rw [hcaches]
    have hq : cls < q.caches.length := by rwa [hcaches]
    have hcache : w.caches.getD cls [] = p.caches.getD cls [] ++ [b] := setCache_getD hq _
    have hwring : w.ring = q.ring := rfl
    have hwfree : w.free = p.free := by
      have hset : w.free + _ = _ := setCache_free hq (p.caches.getD cls [] ++ [b])
      have hqfree : q.free + 1 = p.free := by
        rw [Pool.free, Pool.free, hcaches]
        omega
      rw [hcaches, List.length_append, List.length_singleton] at hset
      omega
    obtain ⟨hlen, hleft, hfree⟩ := ih (p := w) (by simpa [w, Pool.setCache] using hq) (hkept ▸ hk : q.kept.Nodup) (by omega)
    rw [hstep, hlen, hcache, hfree, hwfree, List.length_append, List.length_singleton]
    exact ⟨by omega, by omega, rfl⟩

/-- R448: a cache within its bounds stays. -/
theorem tend_within (hlow : 16 ≤ (p.caches.getD cls []).length) (hhigh : (p.caches.getD cls []).length ≤ 56) : p.tend cls = p := by
  simp only [Pool.tend, if_neg (Nat.not_lt.2 hlow), if_neg (Nat.not_lt.2 hhigh)]

/-- R448: a cache above its bounds returns 32 buffers to the ring's end. -/
theorem tend_above (h : 56 < (p.caches.getD cls []).length) : p.tend cls =
    { p.setCache cls ((p.caches.getD cls []).drop 32) with back := p.back ++ (p.caches.getD cls []).take 32 } := by
  simp only [Pool.tend, if_neg (show ¬(p.caches.getD cls []).length < 16 by omega), if_pos h]

/-- R448: a cache below its bounds is refilled. -/
theorem tend_below (h : (p.caches.getD cls []).length < 16) : p.tend cls = p.refill 32 cls := by
  simp only [Pool.tend, if_pos h]

/-- R463: buffers that a cache returns stay free. -/
theorem tend_above_free (hc : cls < p.caches.length) (h : 56 < (p.caches.getD cls []).length) : (p.tend cls).free = p.free := by
  have hset := setCache_free hc ((p.caches.getD cls []).drop 32)
  have hback : (p.tend cls).free = (p.setCache cls ((p.caches.getD cls []).drop 32)).free + ((p.caches.getD cls []).take 32).length := by
    rw [tend_above h]
    simp only [Pool.free, Pool.ring, Pool.setCache, Pool.kept, List.length_append]
    omega
  rw [List.length_drop] at hset
  rw [List.length_take] at hback
  omega

end Caches

/-! ### Exhausted pools and buffers under test -/

theorem exec_poolExhausted (s : State) (cls tier pool : Nat) :
    exec (.poolExhausted cls tier pool) s = .next (s.exhaustedPool cls tier pool).settle := rfl

section Exhausted
variable {s : State} {cls tier pool : Nat}

/-- R447: a request of a class for a buffer of a pool waits. -/
def State.waitsFor (s : State) (cls tier pool : Nat) : Prop := ∃ w ∈ s.poolWaits, w.1 = cls ∧ w.2.1 = tier ∧ fitPool w.2.2 = pool

theorem waitsFor_iff : s.waitsFor cls tier pool ↔
    (s.poolWaits.any fun w => w.1 == cls && w.2.1 == tier && fitPool w.2.2 == pool) = true := by
  simp [State.waitsFor, and_assoc]

theorem exhaustedPool_waited (h : s.waitsFor cls tier pool) :
    s.exhaustedPool cls tier pool = s.raise { unit := 0x2C2, kind := 0x30, addr := pool + 256 * tier } := if_pos (waitsFor_iff.1 h)

theorem exhaustedPool_unwaited (h : ¬s.waitsFor cls tier pool) : s.exhaustedPool cls tier pool = s := if_neg (mt waitsFor_iff.2 h)

end Exhausted

/-- R462: a buffer under test leaves quarantine for where `f` puts it. -/
def Pool.tested (i : Nat) (f : Pool → Pool) (p : Pool) : Pool :=
  if i ∈ p.quarantine then f { p with quarantine := p.quarantine.erase i } else p

/-- R462: the test of buffer i of a pool ends: it goes to the ring, or is retired. -/
theorem quarantineDone_eq (s : State) {tier pool i : Nat} (hp : pool < 8) (hi : i < 2 ^ 32) (passed : Bool) :
    s.quarantineDone (2 ^ 35 * tier + 2 ^ 32 * pool + i) passed = ({ s with mem := s.mem.modPool tier pool (Pool.tested i fun p =>
      if passed then { p with back := p.back ++ [i] } else { p with gone := p.gone ++ [i] }) } : State).serveWaiting := by
  have hindex : (2 ^ 35 * tier + 2 ^ 32 * pool + i) % 2 ^ 32 = i := by omega
  have hpool : (2 ^ 35 * tier + 2 ^ 32 * pool + i) / 2 ^ 32 % 8 = pool := by omega
  have htier : (2 ^ 35 * tier + 2 ^ 32 * pool + i) / 2 ^ 35 = tier := by omega
  unfold State.quarantineDone
  dsimp only
  rw [hindex, hpool, htier]
  congr 3
  funext p
  by_cases h : i ∈ p.quarantine
  · simp [Pool.tested, h]
  · simp [Pool.tested, h]

theorem exec_quarantineTestDone (s : State) (b : Nat) (passed : Bool) :
    exec (.quarantineTestDone b passed) s = .next (s.quarantineDone b passed).settle := rfl

/-! ### The statement -/

/-- Settles O49: each clause is the effect of the command on the pools where its premises put it. -/
theorem poolsGiveAndTakeBuffers : Obligations.PoolsGiveAndTakeBuffers := by
  refine ⟨?request, ?granted, ?refused, ?leaves, ?joins, ?tends, ?tended, ?exhausted, ?tested⟩
  case request =>
    intro s use holder bytes hp hb r wait
    rw [exec_bufferAllocate, request_eq hp hb, apply_ite State.settle, apply_ite State.settle]
    rfl
  case granted =>
    intro s t use ref bytes owners h
    obtain ⟨tier, htier, hnext, hwaiting, b, hbufs, hid, href, huse, howners, hpayers, hsuspect, hbytes, rfl⟩ := alloc_adds h
    exact ⟨hnext, hwaiting, b, hbufs, hid, href, huse, howners, hpayers, hsuspect, hbytes, htier⟩
  case refused =>
    intro s o id b hb ho
    exact ⟨by rw [exec_bufferFree, freeBuffer_refused hb ho], raise_mem s _⟩
  case leaves =>
    intro s o id b hb ho t
    have hid : b.id = id := by simpa using List.find?_some hb
    refine ⟨by rw [exec_bufferFree, freeBuffer_leaves hb ho]; rfl, fun h => ?_, fun p l h y hy hyid => ?_⟩
    · rw [← hid]
      exact leave_last_bufs h
    · exact leave_first_owners h hy (hyid.trans hid.symm)
  case joins =>
    intro s o id b hq hb joins
    refine ⟨fun hj => ⟨s.withOwner o id (s.payer b.use o), ?_, withOwner_find_self _ hb, fun j hj => withOwner_find_other _ hj, rfl⟩,
      fun hj => ?_⟩
    · rw [exec_ownerAdd, addOwner_joins hb hj, settle_quiet]
      exact hq
    · rw [exec_ownerAdd, addOwner_refused hb hj, settle_quiet hq]
  case tends =>
    intro s tier pool cls hq hcls
    rw [exec_poolCacheRefill tier pool hcls, settle_quiet]
    exact hq
  case tended =>
    intro p cls hlen hcls hk n
    have hc : cls < p.caches.length := by omega
    refine ⟨tend_within, fun h => ⟨?_, ?_, tend_above_free hc h⟩, fun h hring => ?_⟩
    · rw [tend_above h]
      exact setCache_getD hc _
    · rw [tend_above h]
    · obtain ⟨hcache, hleft, hfree⟩ := refill_moves hc hk hring
      rw [tend_below h]
      exact ⟨hcache, by omega, hfree⟩
  case exhausted =>
    intro s cls tier pool waits
    refine ⟨fun h => ?_, fun h hq => ?_⟩
    · rw [exec_poolExhausted, exhaustedPool_waited h]
    · rw [exec_poolExhausted, exhaustedPool_unwaited h, settle_quiet hq]
  case tested =>
    intro s tier pool i hp hi tested back gone
    refine ⟨?_, ?_⟩
    · rw [exec_quarantineTestDone, quarantineDone_eq s hp hi]
      rfl
    · rw [exec_quarantineTestDone, quarantineDone_eq s hp hi]
      rfl

end Sys2Proof.Machine
end

section
/-!
PROOFS. The recovery download and the mount (R498, R499, R506, R699): what a payload and the end of a download do to slot A, what the ready
signal of each mount step does where the mount awaits it, and the statement O7 from that.
-/
namespace Sys2Proof.Machine

/-! ### Quiet states -/

/-- A quiet state with another start-up record is quiet. -/
theorem settle_withStartup {s : State} (hq : s.quiet) (u : Startup) :
    ({ s with startup := u } : State).settle = { s with startup := u } := settle_quiet hq

/-- A quiet state with other media is quiet. -/
theorem settle_withMedia {s : State} (hq : s.quiet) (m : Media) : ({ s with media := m } : State).settle = { s with media := m } :=
  settle_quiet hq

/-! ### The recovery download -/

theorem exec_recoveryDownload (s : State) (b : Bytes) : exec (.recoveryDownload b) s = .next (s.recoverWrite b).settle := rfl

theorem exec_recoveryDownloadEnd (s : State) (b : Bytes) : exec (.recoveryDownloadEnd b) s = .next (s.recoverEnd b).settle := rfl

section Recovery
variable {s : State} {b : Bytes}

/-- R699: a payload that lies within slot A from a multiple of 4,096 is written there. -/
theorem recoverWrite_fits (hp : s.startup.phase = .recovery) (hl : 4 < b.length) (ha : field b 0 4 % 4096 = 0)
    (hf : field b 0 4 + (b.length - 4) ≤ 25165824) :
    s.recoverWrite b = { s with startup := { s.startup with
      slotA := { image := overlay s.startup.slotA.image (field b 0 4) (b.drop 4), state := 1 } } } :=
  if_pos (by simp [hp, hl, ha, hf, slotBytes])

/-- R699: no other payload is. -/
theorem recoverWrite_unfit (h : field b 0 4 % 4096 ≠ 0 ∨ 25165824 < field b 0 4 + (b.length - 4)) : s.recoverWrite b = s :=
  if_neg (by
    simp only [Bool.and_eq_true, beq_iff_eq, decide_eq_true_eq, slotBytes, List.length_drop]
    omega)

/-- R699: the end of a download starts the image of slot A that verifies. -/
theorem recoverEnd_verified (hp : s.startup.phase = .recovery) (hl : b.length = 4) (hj : s.judgeSlot 0 = 3) :
    s.recoverEnd b = { s with startup := { s.startup with
      slotA := { s.startup.slotA with state := 3 }, running := some 0, fromCommit := false, phase := .step 5 } } := by
  unfold State.recoverEnd
  dsimp only
  rw [if_pos (by simp [hp, hl]), if_pos (by simp [hj])]
  rfl

end Recovery

/-! ### The steps of the mount -/

theorem exec_mountStepReady (s : State) (n : Nat) (g : NandGeometry) :
    exec (.mountStepReady n g) s = .next (s.mountReady n g).settle := rfl

section Mount
variable {s : State} {n : Nat} {g : NandGeometry}

/-- R498, R732: with the pads held, or for a step that is not awaited, the ready signal does nothing. -/
theorem mountReady_stops (h : s.pins.padHold ≠ none ∨ s.media.mountStep ≠ n) : s.mountReady n g = s :=
  if_pos (by simpa [Option.isSome_iff_ne_none, or_comm] using h)

/-- With the pads released, the step that is awaited is not stopped. -/
theorem mountStep_awaited (hp : s.pins.padHold = none) (hn : s.media.mountStep = n) :
    ¬(s.media.mountStep != n || s.pins.padHold.isSome) = true := by simp [hp, hn]

theorem mountReady_identify (hp : s.pins.padHold = none) (hn : s.media.mountStep = 1) : s.mountReady 1 g = s.mountIdentified g :=
  if_neg (mountStep_awaited hp hn)

theorem mountReady_summaries (hp : s.pins.padHold = none) (hn : s.media.mountStep = 2) :
    s.mountReady 2 g = { s with media := { s.media.buildMap s.media.summarized false with mountStep := 3 } } :=
  if_neg (mountStep_awaited hp hn)

theorem mountReady_tags (hp : s.pins.padHold = none) (hn : s.media.mountStep = 3) :
    s.mountReady 3 g = { s with media := { s.media.buildMap (fun _ => true) false with mountStep := 4 } } :=
  if_neg (mountStep_awaited hp hn)

theorem mountReady_trims (hp : s.pins.padHold = none) (hn : s.media.mountStep = 4) :
    s.mountReady 4 g = { s with media := { (s.media.buildMap (fun _ => true) true).dropUnsealed with mountStep := 5 } } :=
  if_neg (mountStep_awaited hp hn)

theorem mountReady_end (hp : s.pins.padHold = none) (hn : s.media.mountStep = 5) : s.mountReady 5 g = s.mountEnd :=
  if_neg (mountStep_awaited hp hn)

/-- R466: a NAND that is not supported stops the mount. -/
theorem mountIdentified_unsupported (hg : geomSupported g = false) :
    s.mountIdentified g = { s with media := { s.media with state := 4, mountStep := 0 } } := if_pos (by simp [hg])

/-- R498: a formatted flash whose geometry is another one is not taken. -/
theorem mountIdentified_other (hg : geomSupported g = true) (hf : s.media.formatted = true) (hne : g ≠ s.media.geom) :
    s.mountIdentified g = s := by
  unfold State.mountIdentified
  dsimp only
  rw [if_neg (by simp [hg]), if_pos (by simp [hf, hne])]

/-- R464, R498: the flash that the media know is configured, and step 2 follows. -/
theorem mountIdentified_known (hg : geomSupported g = true) (hf : s.media.formatted = true) (he : g = s.media.geom) :
    s.mountIdentified g = { s with media := { s.media with
      iface := .nvLpddr4, bus := identifyOps g ++ s.media.bus, mountStep := 2 } } := by
  subst he
  unfold State.mountIdentified
  dsimp only
  rw [if_neg (by simp [hg]), if_neg (by simp), if_pos hf]

/-- R464, R466: a flash that is not formatted is identified, and the mount ends. -/
theorem mountIdentified_unformatted (hg : geomSupported g = true) (hf : s.media.formatted = false) :
    s.mountIdentified g = { s with media := { s.media with geom := g, iface := .nvLpddr4, bus := identifyOps g ++ s.media.bus, state := 3,
                                                           mountStep := 0, lastMount := s.since s.media.mountBegan } } := by
  unfold State.mountIdentified
  dsimp only
  rw [if_neg (by simp [hg]), if_neg (by simp [hf]), if_neg (by simp [hf])]

end Mount

/-! ### The statement -/

/-- Settles O7: each clause is the effect of the event where its premises put it. -/
theorem recoveryAndMountSteps : Obligations.RecoveryAndMountSteps := by
  refine ⟨?download, ?downloaded, ?identify, ?maps, ?ends, ?stops⟩
  case download =>
    intro s b hq hp hl
    refine ⟨fun ha hf => ?_, fun h => ?_⟩
    · rw [exec_recoveryDownload, recoverWrite_fits hp hl ha hf, settle_withStartup hq]
    · rw [exec_recoveryDownload, recoverWrite_unfit h, settle_quiet hq]
  case downloaded =>
    intro s b hq hp hl hj
    rw [exec_recoveryDownloadEnd, recoverEnd_verified hp hl hj, settle_withStartup hq]
  case identify =>
    intro s g hq hp hn
    rw [exec_mountStepReady, mountReady_identify hp hn]
    refine ⟨fun hg => ?_, fun hg hf hne => ?_, fun hg hf he => ?_, fun hg hf => ?_⟩
    · rw [mountIdentified_unsupported hg, settle_withMedia hq]
    · rw [mountIdentified_other hg hf hne, settle_quiet hq]
    · rw [mountIdentified_known hg hf he, settle_withMedia hq]
    · rw [mountIdentified_unformatted hg hf, settle_withMedia hq]
  case maps =>
    intro s g hq hp
    refine ⟨fun hn => ?_, fun hn => ?_, fun hn => ?_⟩
    · rw [exec_mountStepReady, mountReady_summaries hp hn, settle_withMedia hq]
    · rw [exec_mountStepReady, mountReady_tags hp hn, settle_withMedia hq]
    · rw [exec_mountStepReady, mountReady_trims hp hn, settle_withMedia hq]
  case ends =>
    intro s g hp hn
    rw [exec_mountStepReady, mountReady_end hp hn]
  case stops =>
    intro s g n hq h
    rw [exec_mountStepReady, mountReady_stops h, settle_quiet hq]

end Sys2Proof.Machine
end

section
/-!
PROOFS. Page reads, programs and the patrol (R480, R484 to R492, R511, R512, R519): what a read does at each stage it may end at, what
happens to a page whose program fails, and the statement O20 from that.
-/
namespace Sys2Proof.Machine

/-! ### The events of the running media as effects -/

section Events
variable {s : State}

theorem exec_nandReadComplete {sp l : Nat} {p : Loc} (hr : s.mediaRuns = true) (he : s.media.entry sp l = some p) (st : Nat) :
    exec (.nandReadComplete sp l st) s = .next (s.readStage sp l st p).settle := by
  calc exec (.nandReadComplete sp l st) s
      = s.onMedia fun s => match s.media.entry sp l with | some p => s.readStage sp l st p | none => s := rfl
    _ = .next (s.readStage sp l st p).settle := by rw [onMedia_up hr, he]

/-- The media that run are mounted, and not frozen. -/
theorem mediaRuns_iff : s.mediaRuns = true ↔ s.media.mounted = true ∧ s.media.frozen = false := by simp [State.mediaRuns]

theorem exec_pageProgramComplete {n : Nat} {p : Page} (hr : s.mediaRuns = true) (hp : s.media.programOf n = some p) :
    exec (.pageProgramComplete n) s = .next (s.setMedia (s.media.report p.loc)).settle := by
  obtain ⟨hm, hf⟩ := mediaRuns_iff.1 hr
  calc exec (.pageProgramComplete n) s = execPageProgramComplete n s := rfl
    _ = .next (s.setMedia (s.media.report p.loc)).settle := by
      rw [execPageProgramComplete, if_pos hm, hp]
      dsimp only
      rw [if_neg (by simp [hf])]

theorem exec_programFailure {n : Nat} {p : Page} (hr : s.mediaRuns = true) (hp : s.media.programOf n = some p) :
    exec (.programFailure n) s = .next (s.programFailed p).settle := by
  obtain ⟨hm, hf⟩ := mediaRuns_iff.1 hr
  calc exec (.programFailure n) s = execProgramFailure n s := rfl
    _ = .next (s.programFailed p).settle := by
      rw [execProgramFailure, if_pos hm, hp]
      dsimp only
      rw [if_neg (by simp [hf])]

theorem exec_wordLineTimeout (hr : s.mediaRuns = true) (g st : Nat) :
    exec (.wordLineTimeout g st) s = .next (s.setMedia (s.media.fillWl g st)).settle :=
  onMedia_up (f := fun s => s.setMedia (s.media.fillWl g st)) hr

theorem exec_relocationStart (hr : s.mediaRuns = true) (g : Nat) :
    exec (.relocationStart g) s = .next (s.setMedia (s.media.relocate g)).settle :=
  onMedia_up (f := fun s => s.setMedia (s.media.relocate g)) hr

theorem exec_relocationCopyDone {n : Nat} {p : Page} (hr : s.mediaRuns = true)
    (hp : (s.media.pages.find? fun x => x.kind == 2 && x.seq == n) = some p) :
    exec (.relocationCopyDone n) s = .next (s.setMedia (s.media.copyDone p)).settle := by
  calc exec (.relocationCopyDone n) s
      = s.onMedia fun s => match s.media.pages.find? fun p => p.kind == 2 && p.seq == n with
          | some p => s.setMedia (s.media.copyDone p)
          | none => s := rfl
    _ = .next (s.setMedia (s.media.copyDone p)).settle := by rw [onMedia_up hr, hp]

theorem exec_patrolRead (hr : s.mediaRuns = true) (g k n st b : Nat) :
    exec (.patrolRead g k n st b) s = .next (s.patrol g k n st b).settle :=
  onMedia_up (f := fun s => s.patrol g k n st b) hr

theorem exec_patrolPositionRecord (hr : s.mediaRuns = true) :
    exec .patrolPositionRecord s = .next (s.setMedia s.media.recordPatrol).settle :=
  onMedia_up (f := fun s => s.setMedia s.media.recordPatrol) hr

end Events

/-! ### The stage at which a read ends -/

/-- R519: the stage that a read reaches at least: 4 where the page lies on a failed member. -/
def Media.stageReached (m : Media) (l : Loc) (st : Nat) : Nat := if st < 4 ∧ m.onFailed l = true then 4 else st

/-- R483, R519: the stripe cannot rebuild the page: it has no parity yet, or another member of it failed too. -/
def Media.stripeBlind (m : Media) (l : Loc) : Prop := m.hasParity l = false ∨ ∃ j < 16, j ≠ l.m ∧ m.onFailed { l with m := j } = true

theorem stageAt_eq (m : Media) (l : Loc) (st : Nat) :
    m.stageAt l st = if (m.stageReached l st == 4 &&
      (!m.hasParity l || (List.range 16).any fun i => i != l.m && m.onFailed { l with m := i })) = true then 5 else m.stageReached l st := by
  have h : (if (decide (st < 4) && m.onFailed l) = true then 4 else st) = m.stageReached l st := by simp [Media.stageReached]
  unfold Media.stageAt
  dsimp only
  rw [h]

theorem stripeBlind_iff {m : Media} {l : Loc} :
    (!m.hasParity l || (List.range 16).any fun i => i != l.m && m.onFailed { l with m := i }) = true ↔ m.stripeBlind l := by
  simp [Media.stripeBlind]

/-- R483: stage 4 finds nothing in a stripe that cannot rebuild the page. -/
theorem stageAt_blind {m : Media} {l : Loc} {st : Nat} (hn : m.stageReached l st = 4) (hb : m.stripeBlind l) : m.stageAt l st = 5 := by
  rw [stageAt_eq, if_pos]
  exact Bool.and_eq_true_iff.2 ⟨beq_iff_eq.2 hn, stripeBlind_iff.2 hb⟩

/-- Every other read ends at the stage that it reaches. -/
theorem stageAt_reached {m : Media} {l : Loc} {st : Nat} (h : m.stageReached l st ≠ 4 ∨ ¬m.stripeBlind l) :
    m.stageAt l st = m.stageReached l st := by
  rw [stageAt_eq, if_neg]
  rw [Bool.and_eq_true_iff, beq_iff_eq, stripeBlind_iff]
  exact not_and_or.2 h

/-! ### What a read does at its stage -/

/-- R485: the media with the read of a page on the bus. -/
def Media.readOp (m : Media) (l : Loc) : Media :=
  { m with bus := ((m.lunOf l).1, (m.lunOf l).2, NandOp.readPage (m.pageIndex l)) :: m.bus }

section Stages
variable {s : State} {l : Loc} {sp lmu st : Nat}

/-- R485: a read that a first try or a soft decoding answers leaves its trace on the bus alone. -/
theorem readStage_answers (h2 : (s.media.readOp l).stageAt l st ≠ 2) (h4 : (s.media.readOp l).stageAt l st ≠ 4)
    (h5 : (s.media.readOp l).stageAt l st ≠ 5) : s.readStage sp lmu st l = { s with media := s.media.readOp l } := by
  unfold Media.readOp at h2 h4 h5
  unfold State.readStage
  dsimp only
  split
  case h_1 h => exact absurd h h2
  case h_2 h => exact absurd h h4
  case h_3 h => exact absurd h h5
  case h_4 => rfl

/-- R485: a read that ends at stage 2 sets the read level on the bus, and counts and reports a retry. -/
theorem readStage_retry (h : (s.media.readOp l).stageAt l st = 2) :
    s.readStage sp lmu st l = ({ s with media := { s.media.readOp l with
      readRetries := s.media.readRetries + 1
      bus := ((s.media.lunOf l).1, (s.media.lunOf l).2, .setFeatures) :: (s.media.readOp l).bus } } : State).raiseLun l 0x50
        ((s.media.readOp l).pageIndex l) := by
  unfold Media.readOp at h
  unfold State.readStage
  simp only [h]
  rfl

/-- R486: a read that ends at stage 4 has the page copied, and counts and reports a reconstruction. -/
theorem readStage_rebuilt (h : (s.media.readOp l).stageAt l st = 4) :
    s.readStage sp lmu st l = (s.setMedia { (match (s.media.readOp l).pageAt l with
        | some p => (s.media.readOp l).copyPage p
        | none => s.media.readOp l) with reconstructions := s.media.reconstructions + 1 }).raiseLun l 0x51
          ((s.media.readOp l).pageIndex l) := by
  unfold Media.readOp at h
  unfold State.readStage
  simp only [h]
  rfl

/-- R487, R525: a read that ends at stage 5 loses the unit and reports it; the entry names the page's LUN and another one. -/
theorem readStage_lost (h : (s.media.readOp l).stageAt l st = 5) :
    ∃ other, s.readStage sp lmu st l = (s.useFree.setMedia ((s.media.readOp l).lose 2 l.g
      ((s.media.readOp l).failedUnit (((s.media.readOp l).group l.g).getD { g := l.g, members := [] }) l.m) other sp lmu)).raise
        { unit := 0x2C7, kind := 0x54, addr := 1 } := by
  unfold Media.readOp at h
  unfold State.readStage
  simp only [h]
  exact ⟨_, rfl⟩

end Stages

/-! ### A program that fails -/

section Failure
variable (s : State) (p : Page)

/-- R484, R644: the failure of a program reported. -/
def State.reportFailure : State := s.raise { unit := s.media.unitAt p.loc, kind := 0x52, addr := s.media.blockOf p.loc }

/-- R484: the page programmed again once, in another group that takes it, in the stream of its kind. -/
def State.programAgain : Option (Loc × Media) :=
  if p.failures = 0 then
    (s.reportFailure p).media.placeIn (if p.kind = 2 then 1 else if p.kind = 5 then 2 else 0) { p with failures := 1 }
      (((s.reportFailure p).media.accepting (p.loc.g + 1)).filter fun g => g != p.loc.g)
  else none

/-- R484, R492: the failed page is dead and its block is retired. -/
def State.retireFailed : State :=
  s.setMedia (({ s.media with pages := updWhere (fun q => q.loc == p.loc) Page.dead s.media.pages } : Media).retireBlock
    p.loc.g p.loc.k p.loc.m)

/-- R484: the map, and what awaited the failed program, moved to the page programmed again. -/
def State.movedTo (l' : Loc) (m : Media) : State :=
  let m := if m.entry p.space p.lmu = some p.loc ∧ p.isData = true then m.setEntry p.space p.lmu (some l') else m
  ({ s with media := m } : State).renameSeq p.seq (match m.pageAt l' with | some q => q.seq | none => 0)

variable {s p}

/-- R484, R492: a failed program is reported and its block retired; before that its page moves to where it is programmed again, or is
given up. -/
theorem programFailed_eq : s.programFailed p = match s.programAgain p with
    | some (l', m) => ((s.reportFailure p).movedTo p l' m).retireFailed p
    | none => (if p.isData = true then (s.reportFailure p).writeFault p else s.reportFailure p).retireFailed p := by
  unfold State.programFailed State.programAgain
  simp only [beq_iff_eq, Bool.and_eq_true]
  rfl

end Failure

/-! ### A copy done and the patrol -/

/-- R489: a copy takes over the map entry that names its source. -/
theorem copyDone_takesOver {m : Media} {p : Page} {l : Loc} (hs : p.source = some l) (he : (m.report p.loc).entry p.space p.lmu = some l) :
    m.copyDone p = (m.report p.loc).setEntry p.space p.lmu (some p.loc) := by
  unfold Media.copyDone
  dsimp only
  rw [hs]
  exact if_pos (by simp [he])

/-- R489: it takes over no other. -/
theorem copyDone_leaves {m : Media} {p : Page} (h : ∀ l, p.source = some l → (m.report p.loc).entry p.space p.lmu ≠ some l) :
    m.copyDone p = m.report p.loc := by
  unfold Media.copyDone
  dsimp only
  cases hs : p.source with
  | none => rfl
  | some l => exact if_neg (by simpa using h l hs)

/-- R511, R512: the patrol at a page that a map entry names, in a group that no rebuild keeps busy. -/
theorem patrol_reads {s : State} {g k n st b : Nat} {gr : Group} {e : Nat × Nat × Loc} (hpw : s.power.state ≤ 1)
    (he : (s.media.map.find? fun e => e.2.2 == (⟨g, k, n % 16, n / 16⟩ : Loc)) = some e) (hg : s.media.group g = some gr)
    (hb : gr.rebuilding = none) :
    let l : Loc := ⟨g, k, n % 16, n / 16⟩
    let at_ := s.media.stageAt l st
    let w := ({ s with media := { s.media with patrolAt := (g, k), patrolPos := s.media.patrolled g k } } : State).readStage e.1 e.2.1 at_ l
    s.patrol g k n st b = if 2 ≤ at_ ∨ (at_ = 1 ∧ w.num 0x5008 0 < b) then
      w.setMedia (w.media.refresh l ((st == 3 || st == 4) && !s.media.onFailed l)) else w := by
  unfold State.patrol
  dsimp only
  rw [he, hg]
  dsimp only
  rw [if_neg (by simpa [hb] using hpw)]
  simp only [Bool.or_eq_true, Bool.and_eq_true, decide_eq_true_eq, beq_iff_eq]

/-! ### The statement -/

/-- Settles O20: each clause is the effect of the event where its premises put it, a read's by the stage at which it ends. -/
theorem pageReadsAndPrograms : Obligations.PageReadsAndPrograms := by
  refine ⟨?read, ?stage, ?programmed, ?failed, ?timeout, ?relocation, ?copied, ?patrol, ?recorded⟩
  case read =>
    intro s sp l st p hr he lun m at_ report
    rw [exec_nandReadComplete hr he]
    refine ⟨fun h2 h4 h5 => ?_, fun h => ?_, fun h => ?_, fun h => ?_⟩
    · rw [readStage_answers h2 h4 h5]
      rfl
    · rw [readStage_retry h]
      rfl
    · rw [readStage_rebuilt h]
      rfl
    · obtain ⟨other, hlost⟩ := readStage_lost (sp := sp) (lmu := l) h
      exact ⟨other, by rw [hlost]; rfl⟩
  case stage => exact fun m p st => ⟨fun hn hb => stageAt_blind hn hb, fun h => stageAt_reached h⟩
  case programmed => exact fun s n p hr hp => exec_pageProgramComplete hr hp
  case failed =>
    intro s n p hr hp
    rw [exec_programFailure hr hp, programFailed_eq]
    rfl
  case timeout => exact fun s g st hr => exec_wordLineTimeout hr g st
  case relocation => exact fun s g hr => exec_relocationStart hr g
  case copied =>
    intro s n p hr hp m
    rw [exec_relocationCopyDone hr hp]
    refine ⟨fun l hs he => ?_, fun h => ?_⟩
    · rw [copyDone_takesOver hs he]
    · rw [copyDone_leaves h]
  case patrol =>
    intro s g k n st b gr e hr hpw l he hg hb at_ w
    rw [exec_patrolRead hr, patrol_reads hpw he hg hb]
    refine ⟨fun h => ?_, fun h => ?_⟩
    · have hno : ¬(2 ≤ at_ ∨ (at_ = 1 ∧ w.num 0x5008 0 < b)) := by omega
      rw [if_neg hno]
    · rw [if_pos h]
  case recorded => exact fun s hr => exec_patrolPositionRecord hr

end Sys2Proof.Machine
end

section
/-!
PROOFS. Erases, failed LUNs, rebuild and the end of a format (R490, R492, R505, R509, R519 to R521, R527): what each of these operations
leaves alone in the media, what it does to the superblock, LUN or group it names, and the statement O21 from that.
-/
namespace Sys2Proof.Machine

/-! ### The events as effects -/

section Events
variable {s : State}

theorem exec_eraseComplete {g k : Nat} (hr : s.mediaRuns = true) (he : s.media.erasing g k = true) :
    exec (.eraseComplete g k) s = .next (s.setMedia (s.media.erased g k)).settle := by
  calc exec (.eraseComplete g k) s
      = s.onMedia fun s => if s.media.erasing g k then s.setMedia (s.media.erased g k) else s := rfl
    _ = .next (s.setMedia (s.media.erased g k)).settle := by rw [onMedia_up hr, if_pos he]

theorem exec_eraseFailure {g k m : Nat} (hr : s.mediaRuns = true) (he : s.media.erasing g k = true) (hm : m < 16) :
    exec (.eraseFailure g k m) s =
      .next ((s.raiseLun ⟨g, k, m, 0⟩ 0x53 (s.media.blockOf ⟨g, k, m, 0⟩)).setMedia (s.media.retireBlock g k m)).settle := by
  calc exec (.eraseFailure g k m) s
      = s.onMedia fun s => if s.media.erasing g k && m < 16 then
          (s.raiseLun ⟨g, k, m, 0⟩ 0x53 (s.media.blockOf ⟨g, k, m, 0⟩)).setMedia (s.media.retireBlock g k m) else s := rfl
    _ = _ := by rw [onMedia_up hr, if_pos (by simp [he, hm])]

theorem exec_lunFails {c p : Nat} {i : Instr} (hr : s.mediaRuns = true) (hl : s.media.hasLun c p = true)
    (hi : i = .lunStatusTimeout c p ∨ i = .lunFailure c p) : exec i s = .next (s.failLun c p).settle := by
  have hexec : exec i s = s.onMedia fun s => if s.media.hasLun c p then s.failLun c p else s := by
    obtain rfl | rfl := hi
    · rfl
    · rfl
  rw [hexec, onMedia_up hr, if_pos hl]

theorem exec_rebuildStripe (hr : s.mediaRuns = true) (g : Nat) :
    exec (.rebuildStripe g) s = .next (s.setMedia (s.media.rebuildOne g)).settle :=
  onMedia_up (f := fun s => s.setMedia (s.media.rebuildOne g)) hr

theorem exec_rebuildProgressRecord (hr : s.mediaRuns = true) :
    exec .rebuildProgressRecord s = .next (s.setMedia s.media.recordRebuilds).settle :=
  onMedia_up (f := fun s => s.setMedia s.media.recordRebuilds) hr

theorem exec_mediaFormatDone (s : State) : exec .mediaFormatDone s = .next s.formatEnd.settle := rfl

end Events

/-! ### Groups, superblocks and LUNs changed -/

section Changed
variable (m : Media) (g k : Nat)

theorem pruneTrims_sblk : m.pruneTrims.sblk g k = m.sblk g k := rfl

variable {m g k}

/-- A superblock changed, its place kept, is found changed. -/
theorem modSblk_sblk {x : Sblk} {f : Sblk → Sblk} (hf : ∀ y, (f y).g = y.g ∧ (f y).k = y.k) (h : m.sblk g k = some x) :
    (m.modSblk g k f).sblk g k = some (f x) :=
  find_updWhere m.sblks _ f x (fun y hy => by simpa [hf y] using hy) h

/-- A group changed, its number kept, is found changed. -/
theorem modGroup_group_self {gr : Group} {f : Group → Group} (hf : ∀ y, (f y).g = y.g) (h : m.group g = some gr) :
    (m.modGroup g f).group g = some (f gr) :=
  find_updWhere m.groups _ f gr (fun y hy => by simpa [hf y] using hy) h

/-- The other groups are as they were. -/
theorem modGroup_group_other {j : Nat} {f : Group → Group} (hf : ∀ y, (f y).g = y.g) (hj : j ≠ g) :
    (m.modGroup g f).group j = m.group j :=
  find_updWhere_other m.groups _ _ f fun y hy => by
    have hy : y.g = g := by simpa using hy
    simp [hf y, hy, hj.symm]

end Changed

/-! ### An erase whose record stands -/

/-- R492: the good blocks of a superblock to be retired go back to the reserves of their LUNs. -/
def Media.reservesBack (m : Media) (g k : Nat) (x : Sblk) : Media :=
  if x.dying.isEmpty then m else
    ((List.range 16).filter fun i => !x.dying.contains i).foldl (fun (m : Media) i =>
      m.modLun (m.lunOf ⟨g, k, i, 0⟩).1 (m.lunOf ⟨g, k, i, 0⟩).2 fun l => { l with
        reserve := (l.reserve.filter (· < m.blockOf ⟨g, k, i, 0⟩)) ++ m.blockOf ⟨g, k, i, 0⟩ ::
          l.reserve.filter (m.blockOf ⟨g, k, i, 0⟩ < ·) }) m

section EraseDone
variable {m : Media} {g k : Nat} {x : Sblk}

theorem reservesBack_sblk (h : m.sblk g k = some x) : (m.reservesBack g k x).sblk g k = some x := by
  unfold Media.reservesBack
  split
  case isTrue => exact h
  case isFalse => exact List.foldlRecOn (motive := fun n : Media => n.sblk g k = some x) _ _ h fun _ hn _ _ => hn

theorem eraseDone_eq (h : m.sblk g k = some x) :
    m.eraseDone g k = ((m.reservesBack g k x).modSblk g k fun x => { x with
      use := if x.dying.isEmpty then .free else .retired, intent := false, erasedOnce := false, firstSeq := none
      moving := false }).pruneTrims := by
  unfold Media.eraseDone
  rw [h]
  rfl

/-- R490, R492: the superblock is free, or retired where a block of it failed with no reserve left. -/
theorem eraseDone_sblk (h : m.sblk g k = some x) :
    (m.eraseDone g k).sblk g k = some { x with
      use := if x.dying = [] then .free else .retired, intent := false, erasedOnce := false, firstSeq := none, moving := false } := by
  rw [eraseDone_eq h, pruneTrims_sblk]
  refine (modSblk_sblk ?_ (reservesBack_sblk h)).trans ?_
  · exact fun _ => ⟨rfl, rfl⟩
  · simp only [List.isEmpty_iff]

end EraseDone

/-! ### A LUN that fails -/

/-- R519: the LUN at a channel and position has failed. -/
def Media.lunFailed (m : Media) (ch pos : Nat) : Prop := ∃ x ∈ m.luns, x.ch = ch ∧ x.pos = pos ∧ x.failed = true

theorem lunFailed_modGroup {m : Media} {ch pos g : Nat} {f : Group → Group} :
    (m.modGroup g f).lunFailed ch pos ↔ m.lunFailed ch pos := Iff.rfl

theorem lose_luns (m : Media) (cause g a b sp lmu : Nat) : (m.lose cause g a b sp lmu).luns = m.luns := by
  unfold Media.lose
  split
  · rfl
  · dsimp only
    split
    · rfl
    · rfl

theorem loseTwo_luns (m : Media) (gr : Group) (first mem u : Nat) : (m.loseTwo gr first mem u).luns = m.luns :=
  List.foldlRecOn (motive := fun n : Media => n.luns = m.luns) _ _ rfl fun n hn _ _ => (lose_luns n ..).trans hn

/-- A failed LUN stays so through steps that leave the LUNs alone. -/
theorem Media.lunFailed.foldl {α : Type} {m : Media} {ch pos : Nat} {f : Media → α → Media} (h : m.lunFailed ch pos)
    (hf : ∀ n a, (f n a).luns = n.luns) (l : List α) : (l.foldl f m).lunFailed ch pos := by
  have hl : (l.foldl f m).luns = m.luns := List.foldlRecOn (motive := fun n : Media => n.luns = m.luns) l f rfl fun n hn a _ => (hf n a).trans hn
  unfold Media.lunFailed
  rw [hl]
  exact h

/-- A failed LUN stays so as a spare comes into use. -/
theorem lunFailed_modLun {m : Media} {ch pos c p : Nat} {f : Lun → Lun} (hf : ∀ x, (f x).ch = x.ch ∧ (f x).pos = x.pos ∧ (f x).failed = x.failed)
    (h : m.lunFailed ch pos) : (m.modLun c p f).lunFailed ch pos := by
  obtain ⟨x, hx, hch, hpos, hfailed⟩ := h
  refine ⟨_, List.mem_map_of_mem hx, ?_⟩
  split
  case isTrue => simp [hf x, hch, hpos, hfailed]
  case isFalse => exact ⟨hch, hpos, hfailed⟩

/-- R519: a LUN of the media that fails, or has failed, is failed. -/
theorem failLun_lunFailed {m : Media} {ch pos : Nat} (h : m.hasLun ch pos = true) : (m.failLun ch pos).lunFailed ch pos := by
  have hmarked : (m.modLun ch pos fun l => { l with failed := true }).lunFailed ch pos := by
    obtain ⟨x, hx, hat⟩ := List.any_eq_true.1 h
    refine ⟨_, List.mem_map_of_mem hx, ?_⟩
    rw [if_pos hat]
    simpa using hat
  unfold Media.failLun
  split
  case isTrue hfailed => simpa [Media.lunFailed, and_assoc] using hfailed
  case isFalse =>
    dsimp only
    generalize m.modLun ch pos (fun l => { l with failed := true }) = n at hmarked ⊢
    split
    case h_1 => exact hmarked
    case h_2 =>
      split
      case h_1 =>
        rw [lunFailed_modGroup, lunFailed_modGroup]
        exact hmarked.foldl (fun _ _ => loseTwo_luns ..) _
      case h_2 =>
        rw [lunFailed_modGroup]
        refine lunFailed_modLun ?_ ?_
        · exact fun _ => ⟨rfl, rfl, rfl⟩
        · rw [lunFailed_modGroup]
          exact hmarked.foldl (fun _ _ => loseTwo_luns ..) _

/-- R523: the units lost as a LUN fails are reported, where there are any. -/
theorem failLun_eq (s : State) (c p : Nat) :
    s.failLun c p = if (s.media.failLun c p).lostUnits - s.media.lostUnits = 0 then { s with media := s.media.failLun c p }
      else ({ s with media := s.media.failLun c p } : State).raise
        { unit := 0x2C7, kind := 0x54, addr := (s.media.failLun c p).lostUnits - s.media.lostUnits } := by
  unfold State.failLun
  simp only [beq_iff_eq]

/-! ### A rebuild -/

/-- R521: the media with the next stripe of a rebuild programmed. -/
def Media.rebuildNext (m : Media) (gr : Group) (n : Nat) : Media :=
  match ((m.stripes gr.g).drop gr.rebuilt).head? with
  | some x => m.rebuildPage ⟨gr.g, x.1, n, x.2⟩
  | none => m

section Rebuild
variable {m : Media} {g n : Nat} {gr : Group}

/-- R475, R521: a page rebuilt counts in SEQ and shows on the bus; the groups, the pages and the map stay. -/
theorem rebuildPage_keeps (m : Media) (l : Loc) :
    (m.rebuildPage l).groups = m.groups ∧ (m.rebuildPage l).pages = m.pages ∧ (m.rebuildPage l).map = m.map := by
  unfold Media.rebuildPage
  dsimp only
  split
  · exact ⟨rfl, rfl, rfl⟩
  · exact ⟨rfl, rfl, rfl⟩

theorem rebuildNext_keeps (m : Media) (gr : Group) (n : Nat) :
    (m.rebuildNext gr n).groups = m.groups ∧ (m.rebuildNext gr n).pages = m.pages ∧ (m.rebuildNext gr n).map = m.map := by
  unfold Media.rebuildNext
  split
  · exact rebuildPage_keeps m _
  · exact ⟨rfl, rfl, rfl⟩

theorem rebuildNext_group (m : Media) (gr : Group) (n j : Nat) : (m.rebuildNext gr n).group j = m.group j :=
  congrArg (List.find? fun x : Group => x.g == j) (rebuildNext_keeps m gr n).1

theorem group_g (h : m.group g = some gr) : gr.g = g := by simpa using List.find?_some h

/-- R521: with stripes left after the next one, the rebuild goes on by one. -/
theorem rebuildOne_goesOn (hg : m.group g = some gr) (hn : gr.rebuilding = some n) (hl : gr.rebuilt + 1 < (m.stripes g).length) :
    m.rebuildOne g = (m.rebuildNext gr n).modGroup g fun x => { x with rebuilt := x.rebuilt + 1 } := by
  have hleft : 2 ≤ ((m.stripes g).drop gr.rebuilt).length := by
    rw [List.length_drop]
    omega
  unfold Media.rebuildOne Media.rebuildNext
  rw [hg, group_g hg]
  dsimp only
  rw [hn]
  exact if_pos hleft

/-- R521: after the last stripe the member is whole, and another that failed may follow. -/
theorem rebuildOne_last (hg : m.group g = some gr) (hn : gr.rebuilding = some n) (hl : (m.stripes g).length ≤ gr.rebuilt + 1) :
    ∃ next, m.rebuildOne g = ((m.rebuildNext gr n).modGroup g fun x => { x with
      failed := x.failed.erase n, was := x.was.filter (fun y => y.1 != n), rebuilding := none, rebuilt := 0, recorded := 0 }).modGroup g
        fun x => { x with rebuilding := next } := by
  have hleft : ¬2 ≤ ((m.stripes g).drop gr.rebuilt).length := by
    rw [List.length_drop]
    omega
  unfold Media.rebuildOne Media.rebuildNext
  rw [hg, group_g hg]
  dsimp only
  rw [hn]
  exact ⟨_, if_neg hleft⟩

end Rebuild

/-! ### The end of a format -/

/-- R527: the buffers of vocabularies, or grammars, given back: the pools alone change. -/
theorem freeRefs_sameButMem (s : State) (ref : Nat → BufRef) (l : List Nat) :
    s.sameButMem (l.foldl (fun s n => s.freeRef fun b => b == ref n) s) :=
  foldl_sameButMem (fun s n => freeRef_sameButMem s fun b => b == ref n) l s

/-- R527: the end of a format of identified flash: but for what the pools got back, the media are formatted and what lay on them is
gone. -/
theorem formatEnd_formats {s : State} (hf : s.media.formatting = true) (h0 : s.media.mountStep = 0) (hp : s.pins.padHold = none)
    (hg : geomSupported s.media.geom = true) :
    ∃ pools, s.formatEnd = { s with mem := pools, media := s.media.format (s.num 0x5002 0) (s.num 0x5003 0), catalogue := []
                                    vocabs := [], grammars := [] } := by
  have hmem := (freeRefs_sameButMem s vocabRef (s.vocabs.map (·.num))).trans (freeRefs_sameButMem _ grammarRef
    (((s.vocabs.map (·.num)).foldl (fun s n => s.freeRef fun b => b == vocabRef n) s).grammars.map (·.num)))
  obtain ⟨pools, hpools⟩ := hmem
  unfold State.formatEnd
  rw [if_neg (by simp [hf, h0, hp, hg])]
  dsimp only
  rw [hpools]
  exact ⟨pools, rfl⟩

/-! ### The statement -/

/-- Settles O21: each clause is the effect of the event where its premises put it, or what that effect does to the superblock, LUN or group
that it names. -/
theorem erasesLunsAndFormat : Obligations.ErasesLunsAndFormat := by
  refine ⟨?erased, ?free, ?failed, ?lun, ?rebuild, ?stripe, ?progress, ?format⟩
  case erased => exact fun s g k hr he => exec_eraseComplete hr he
  case free => exact fun m g k x hx => eraseDone_sblk hx
  case failed => exact fun s g k m hr he hm => exec_eraseFailure hr he hm
  case lun =>
    intro s c p hr hl
    exact ⟨fun i hi => by rw [exec_lunFails hr hl hi, failLun_eq], failLun_lunFailed hl⟩
  case rebuild => exact fun s g hr => exec_rebuildStripe hr g
  case stripe =>
    intro m g n gr hg hn
    have hkept : (m.rebuildNext gr n).group g = some gr := (rebuildNext_group m gr n g).trans hg
    refine ⟨fun hl => ?_, fun hl => ?_⟩
    · obtain ⟨-, hpages, hmap⟩ := rebuildNext_keeps m gr n
      rw [rebuildOne_goesOn hg hn hl]
      refine ⟨modGroup_group_self ?_ hkept, fun j hj => (modGroup_group_other ?_ hj).trans (rebuildNext_group m gr n j), hpages, hmap⟩
      · exact fun _ => rfl
      · exact fun _ => rfl
    · obtain ⟨next, hlast⟩ := rebuildOne_last hg hn hl
      rw [hlast]
      refine ⟨_, modGroup_group_self ?_ (modGroup_group_self ?_ hkept), rfl, rfl, rfl⟩
      · exact fun _ => rfl
      · exact fun _ => rfl
  case progress => exact fun s hr => exec_rebuildProgressRecord hr
  case format =>
    intro s hq hf h0 hp hg
    obtain ⟨pools, hend⟩ := formatEnd_formats hf h0 hp hg
    refine ⟨_, (exec_mediaFormatDone s).trans (congrArg Host.Outcome.next (settle_quiet ?_)), ?_⟩
    · rw [hend]
      exact hq
    · rw [hend]
      exact ⟨rfl, rfl, rfl, rfl, rfl, rfl, rfl, rfl, rfl, rfl, rfl, rfl, rfl⟩

end Sys2Proof.Machine
end

section
/-!
PROOFS. What every step keeps: a command's effect, family by family, keeps the power state and throttle steps legal and the sparse stores
canonical (R557, R580, R717, R740, R741); and how a step takes a command (statements O57, O58 and O59).
-/
namespace Sys2Proof.Machine

/-! ### A step and its command -/

/-- R431: an idle step counts one period of the slow clock where the always-on domain and its clock run. -/
theorem idle_eq (s : State) :
    s.idle = if s.pins.aon = true ∧ s.pins.slowclk = true then { s with uptime := (s.uptime + 1) % 18446744073709551616 } else s := by
  simp [State.idle]

theorem step_cons (s : State) (c : Instr) (rest : List Instr) :
    step { s with pending := c :: rest } = exec c { s with pending := rest } := rfl

theorem step_nil {s : State} (h : s.pending = []) : step s = .next s.idle := by
  unfold step
  rw [h]

/-- Settles O57. -/
theorem frontCommandRuns : Obligations.FrontCommandRuns := by
  refine ⟨step_cons, fun s h => ?_⟩
  rw [step_nil h, idle_eq]

/-- Settles O58. -/
theorem resetIsSound : Obligations.ResetIsSound := by
  refine ⟨⟨?legal, cellsWf_nil, cellsWf_nil⟩, rfl, rfl⟩
  case legal => exact ⟨by decide, by decide, by decide⟩

/-! ### What the shared forms of a meaning keep -/

section Forms
variable {k : Kernel} {s : State}

/-- A choice keeps what both branches keep. -/
theorem ite_keeps {c : Prop} [Decidable c] {a b : State} (ha : k.keeps a.kernel) (hb : k.keeps b.kernel) :
    k.keeps (if c then a else b).kernel := by
  split
  · exact ha
  · exact hb

/-- A fault raised leaves the kernel alone. -/
theorem raise_keeps (r : Raise) (h : k.keeps s.kernel) : k.keeps (s.raise r).kernel := by rwa [raise_kernel]

/-- A command at its queue pair whose effect leaves the kernel alone. -/
theorem atCmd_leavesKernel {q i opc : Nat} {fid : Option Nat} {f : Cmd → State → State} (hf : ∀ c, (f c s).kernel = s.kernel) :
    outKeeps s.kernel (s.atCmd q i opc fid f) :=
  atCmd_keeps _ _ _ _ _ (.refl _) fun c => .of_eq (hf c)

/-- An event whose effect leaves the kernel alone. -/
theorem next_leavesKernel {t : State} (h : t.kernel = s.kernel) : outKeeps s.kernel (.next t.settle) := outKeeps_settle (.of_eq h)

/-- A rule of a WRITE whose effects leave the kernel alone. -/
theorem ruleKeeps_of_kernel {r : WriteRule} (ha : ∀ t w, (r.act t w).kernel = t.kernel) (hb : ∀ t w, (r.after t w).kernel = t.kernel) :
    RuleKeeps r :=
  ⟨fun _ t w h => ha t w ▸ h, fun _ t w h => hb t w ▸ h⟩

end Forms

/-! ### The rules of the rows of WRITE -/

theorem plainRule_keeps : RuleKeeps plainRule := ruleKeeps_of_kernel plainAct_kernel fun _ _ => rfl

theorem keyRule_keeps : RuleKeeps keyRule := ruleKeeps_of_kernel putOcts_kernel closeSlot_kernel

theorem defaultsRule_keeps : RuleKeeps defaultsRule :=
  ruleKeeps_of_kernel (fun t w => by rw [defaultsRule, restoreDefaults_kernel]) fun _ _ => rfl

theorem unclaimRule_keeps : RuleKeeps unclaimRule := ruleKeeps_of_kernel emptyKeys_kernel closeSlots_kernel

theorem calRule_keeps : RuleKeeps calRule := ruleKeeps_of_kernel calibrate_kernel fun _ _ => rfl

theorem licenceRule_keeps : RuleKeeps licenceRule := ruleKeeps_of_kernel installLicence_kernel enableLicence_kernel

theorem licenceRemoveRule_keeps : RuleKeeps licenceRemoveRule := ruleKeeps_of_kernel removeLicence_kernel fun _ _ => rfl

theorem formatRule_keeps : RuleKeeps formatRule := ruleKeeps_of_kernel beginFormat_kernel fun _ _ => rfl

theorem ackRule_keeps : RuleKeeps ackRule := ruleKeeps_of_kernel ackFaults_kernel fun _ _ => rfl

theorem modeRule_keeps : RuleKeeps modeRule := ruleKeeps_of_kernel setMode_kernel fun _ _ => rfl

/-- R353: a port retrained by request. -/
theorem retrainRule_keeps : RuleKeeps { act := retrainPort } := ruleKeeps_of_kernel retrainPort_kernel fun _ _ => rfl

/-- R377: a burst size of the shaper. -/
theorem burstRule_keeps : RuleKeeps { act := setBurst } := ruleKeeps_of_kernel setBurst_kernel fun _ _ => rfl

/-- R673: the key of a claim. -/
theorem claimRule_keeps : RuleKeeps { act := putOcts } := ruleKeeps_of_kernel putOcts_kernel fun _ _ => rfl

/-- R722: a request for PS2 or PS3 begins entry once it is answered. -/
theorem sleepRule_keeps (target : Nat) : RuleKeeps (sleepRule target) :=
  ⟨fun _ t w h => putNum_kernel t w ▸ h, fun _ _ _ h => beginEntry_keeps target h⟩

/-- R722: a request for PS0 is a wake event once it is answered. -/
theorem wakeRule_keeps : RuleKeeps { act := putNum, after := fun s _ => s.wakeBy 5 } :=
  ⟨fun _ t w h => putNum_kernel t w ▸ h, fun _ _ _ h => wakeBy_keeps 5 h⟩

/-- R734: PadRelease. -/
theorem releaseRule_keeps : RuleKeeps { act := releaseWrite } := ⟨fun _ _ w h => releaseWrite_keeps w h, fun _ _ _ h => h⟩

/-- R716: DeviceReset resets the device once it is answered. -/
theorem resetRule_keeps : RuleKeeps resetRule := ⟨fun _ _ _ h => h, fun _ _ _ h => tryStart_keeps (deviceReset_keeps 3 h)⟩

/-! ### Every command -/

/-- Every command answers a next state that keeps the kernel: most effects leave it alone, and those of power, supplies and the host's
stores keep it by their own lemma. -/
theorem exec_keeps (c : Instr) (s : State) : outKeeps s.kernel (exec c s) := by
  have hk := Kernel.keeps.refl s.kernel
  cases c with
  | identify | getLog | getFeatures | firmwareDownload | firmwareCommit | queuePairCreate | abort | ingestOpen | ingestClose
  | ingestWrite | crewForm | crewDissolve | crewJoin | domainRegister | domainDissolve | catalogueRegister | catalogueRemove
  | vocabularyLoad | vocabularyRemove | grammarLoad | grammarRemove | rolloutSinkOpen | rolloutSinkFlush | rolloutSinkClose
  | queuePairSet | queuePairRemove | read | write | deallocate | secureDeallocate | flush | loadRecipe | openEpoch
  | requestBatches | suspend | resume | close | resetCrew =>
    apply atCmd_leavesKernel; intro c; simp
  | queuePairDelete =>
    apply atCmd_keeps _ _ _ _ _ hk; exact fun c => qpDelete_keeps c hk
  | adminQueueCreate | adminQueueDelete | deverrClear | sliceDoneDoorbell | registerWrite | dmaReadError =>
    apply onHost_keeps _ hk; simp [hk]
  | sqtailDoorbell | cqheadDoorbell =>
    exact onHost_keeps _ hk (ite_keeps (regWord_keeps _ _ hk) hk)
  | writeWindowWrite =>
    exact onHost_keeps _ hk (ite_keeps (windowWrite_keeps _ _ hk) hk)
  | tailLineSnoop =>
    exact onHost_keeps _ hk (ite_keeps (.of_eq (lineRead_kernel ..)) hk)
  | ideIntegrityFailure =>
    apply onHost_keeps _ hk; exact ite_keeps hk (.of_eq (ideFailed_kernel ..))
  | wordLineTimeout | eraseComplete | eraseFailure | relocationStart | patrolRead | patrolPositionRecord | lunStatusTimeout
  | lunFailure | rebuildStripe | rebuildProgressRecord =>
    apply onMedia_keeps _ hk; simp [hk]
  | nandReadComplete | relocationCopyDone =>
    apply onMedia_keeps _ hk; split <;> simp [hk]
  | memoryTrainingDone | selfTestDone | recoveryDownload | recoveryDownloadEnd | mountStepReady | transferReadyGrant
  | grantTimeout | domainForm | setTablesBuilt | suspendDrained | closeDrained | dealPosition | flashBlockArrive
  | unitResultArrive | workCapAbort | crabBudgetExpiry | sampleRelease | collectorAccept | heatPackDone | batchTransmitStart
  | rdmaAckReceive | rnrNakReceive | transportTimeout | deadlineDecision | parityError | residentCopyGranule
  | bufferAllocate | bufferFree | ownerAdd | poolCacheRefill | poolExhausted | quarantineTestDone | mediaFormatDone
  | scoreHalving | fenceWindowExpiry | commonCauseWindowExpiry | portTrainingComplete | laneLoss | handshakeFlitReceive
  | dataFlitReceive | idleFlitReceive | nakFlitReceive | replayTimeout | creditReturn | ryheroPacketReceive | transmitFrame
  | frameOverheadExpiry | cePacketReceive | cnpReceive | rateRecoveryTick | pfcPauseReceive | neighbourRequestReceive
  | rolloutMessage | rolloutFilter | rolloutRecordWritten | statusReportSend | statusReportReceive | workerReportTimeout
  | workerProbationEnd | domainControlReceive | routeProbeReceive | prepareRequestReceive | preparedSampleReceive
  | exchangeDataReceive | shardCopyDone | managerOpenTimeout | proveTimeout | sessionTimeout | octsSegmentTimeout
  | spdmRequest | missingResponse | nakRepeat | pfcPauseExpiry | cxlLinkTrained | authLockoutExpiry | blockCompress
  | electricalIdleExit | setEndpointId | dynamicAddressAssignment =>
    apply next_leavesKernel; simp
  | pageProgramComplete | programFailure =>
    apply next_leavesKernel; (repeat' split) <;> simp
  | vin48Rise | pwrokFall | resetNFall | inputFault | slowclkLoss | overTemperature | hwThermalTrip | startupStepReady
  | startupComplete | startupWatchdog | capsuleFetch | cxlBatchWrite | faultInterrupt | roceSendReceive | sinkInterrupt
  | linkReset | powerEntryQuiesced | powerEntryTimeout | ps1Entry | ps1Exit | wakeStepReady =>
    apply outKeeps_settle; simp [hk]
  | pwrokRise => exact outKeeps_settle (ite_keeps (tryStart_keeps (keeps_core hk)) hk)
  | resetNRise => exact outKeeps_settle (tryStart_keeps (keeps_core hk))
  | inputRecovery => exact outKeeps_settle (ite_keeps (restart_keeps (keeps_core hk)) hk)
  | slowclkReturn => exact outKeeps_settle (keeps_core hk)
  | brownOut => exact outKeeps_settle (ite_keeps (brownOut_keeps hk) hk)
  | powerLoss => exact outKeeps_settle (ite_keeps (powerLost_keeps hk) hk)
  | regulatorFault => exact outKeeps_settle (ite_keeps (raise_keeps _ (keeps_core hk)) hk)
  | completionPost => exact outKeeps_settle (ite_keeps (post_keeps _ hk) hk)
  | interruptDelayExpiry => exact outKeeps_settle (ite_keeps (delayOver_keeps _ hk) hk)
  | wakeEvent | wakeTimerExpiry => exact outKeeps_settle (ite_keeps (wakeBy_keeps _ hk) hk)
  | thermalThrottleTick => exact outKeeps_settle (ite_keeps (thermalTick_keeps _ hk) (sense_keeps _ hk))
  | powerMeasurement => exact outKeeps_settle (ite_keeps (measured_keeps _ _ hk) hk)
  | dictionaryWrite => unfold exec; exact writeRow_keeps plainRule_keeps _ _ hk
  | keySlotWrite => unfold exec; exact writeRow_keeps keyRule_keeps _ _ hk
  | dictionaryDefaults => unfold exec; exact writeRow_keeps defaultsRule_keeps _ _ hk
  | dictionaryUnclaim => unfold exec; exact writeRow_keeps unclaimRule_keeps _ _ hk
  | calibrationWrite => unfold exec; exact writeRow_keeps calRule_keeps _ _ hk
  | licenceInstall => unfold exec; exact writeRow_keeps licenceRule_keeps _ _ hk
  | licenceRemove => unfold exec; exact writeRow_keeps licenceRemoveRule_keeps _ _ hk
  | mediaFormat => unfold exec; exact writeRow_keeps formatRule_keeps _ _ hk
  | faultAck => unfold exec; exact writeRow_keeps ackRule_keeps _ _ hk
  | portModeWrite => unfold exec; exact writeRow_keeps modeRule_keeps _ _ hk
  | portRetrain => unfold exec; exact writeRow_keeps retrainRule_keeps _ _ hk
  | shaperBurstWrite => unfold exec; exact writeRow_keeps burstRule_keeps _ _ hk
  | deviceResetWrite => unfold exec; exact writeRow_keeps resetRule_keeps _ _ hk
  | powerRequestPs2 | powerRequestPs3 => unfold exec; exact writeRow_keeps (sleepRule_keeps _) _ _ hk
  | powerRequestPs0 => unfold exec; exact writeRow_keeps wakeRule_keeps _ _ hk
  | padRelease => unfold exec; exact writeRow_keeps releaseRule_keeps _ _ hk
  | faultMessage | faultCoalesceFlush =>
    exact ⟨_, rfl, .of_eq (reactedTo_kernel _ _ fun t => by simp)⟩
  | dictionaryRead | dictionaryOpen | dictionaryProve | dictionaryClose =>
    unfold exec; apply onRequest_keeps _ _ _ hk; simp [leavePs1_keeps hk]
  | deviceClaim => unfold exec; apply onRequest_keeps _ _ _ hk; exact claimWrite_keeps claimRule_keeps _ (leavePs1_keeps hk)

/-- An idle step, or a command at the front of the queue, keeps a sound state sound. -/
theorem step_sound {s t : State} (h : s.sound) (ht : step s = .next t) : t.sound := by
  cases hp : s.pending with
  | nil =>
    rw [step_nil hp] at ht
    cases ht
    obtain ⟨-, -, hsound⟩ := idle_keeps (.refl s.kernel)
    exact hsound h
  | cons c rest =>
    obtain ⟨u, hu, hkeep⟩ := exec_keeps c { s with pending := rest }
    have hstep : step s = .next u := by
      unfold step
      rw [hp]
      exact hu
    cases hstep.symm.trans ht
    obtain ⟨-, -, hsound⟩ := hkeep
    exact hsound h

/-- Settles O59. -/
theorem stepKeepsSound : Obligations.StepKeepsSound := fun _ _ => step_sound

end Sys2Proof.Machine
end

section
/-!
PROOFS. The host's registers, doorbells and tail lines (R530 to R537, R557, R580 to R590): what each access does on a link that is up, branch
by branch, and the statements O8, O10 and O12 from that.
-/
namespace Sys2Proof.Machine

/-- A host access on a link that is up, whose effect leaves a quiet state quiet: delivery adds nothing to it. -/
theorem onHost_settled {s : State} {f : State → State} (hu : s.hostUp = true) (hq : (f s).quiet) : s.onHost f = .next (f s) := by
  rw [onHost_up hu, settle_quiet hq]

/-- The queue pair found by a number has that number. -/
theorem qp_qid {s : State} {q : Nat} {p : QueuePair} (h : s.qp q = some p) : p.qid = q := by
  simpa using List.find?_some h

/-! ### The admin queue pair -/

section Admin
variable {s : State}

@[simp] theorem enableAdmin_faults (s : State) : s.enableAdmin.faults = s.faults := by
  unfold State.enableAdmin
  dsimp only
  split
  · rfl
  · split <;> rfl

@[simp] theorem writeAen_faults (s : State) : s.writeAen.faults = s.faults := by
  unfold State.writeAen
  split
  · exact enableAdmin_faults s
  · rfl

theorem exec_adminQueueCreate (hq : s.quiet) (hu : s.hostUp = true) : exec .adminQueueCreate s = .next s.writeAen :=
  onHost_settled hu ((congrArg Faults.transit (writeAen_faults s)).trans hq)

theorem writeAen_started (h : s.started = true) : s.writeAen = s.enableAdmin := if_pos h

/-- R583: an AEN write of 1 before start-up completes is held. -/
theorem writeAen_held (h : s.started = false) : s.writeAen = { s with startup := { s.startup with aenHeld := true } } :=
  if_neg (by simp [h])

/-- With no queue pair 0, no queue pair has that number. -/
theorem qp_none {q : Nat} (h : s.qp q = none) : ∀ p ∈ s.host.qps, p.qid ≠ q := by
  simpa [State.qp] using h

/-- R582: with no queue pair 0 and a context that does not hold, AEN and ACERR are set and nothing is created. -/
theorem enableAdmin_bad {o : Nat} (h : s.qp 0 = none) (hc : ctxBad s.host.adminCtx (field s.host.adminCtx 1 1 == 0) = some o) :
    s.enableAdmin = { s with host := { s.host with aen := true, acerr := true } } := by
  have h' : ({ s with host := { s.host with aen := true } } : State).qp 0 = none := h
  unfold State.enableAdmin
  dsimp only
  rw [h', hc]
  rfl

/-- R582: AEN set, with no error of the context. -/
def State.aenOn (s : State) : State := { s with host := { s.host with aen := true, acerr := false } }

/-- R582: with no queue pair 0 and a context that holds, queue pair 0 is created from it. -/
theorem enableAdmin_good (h : s.qp 0 = none) (hc : ctxBad s.host.adminCtx (field s.host.adminCtx 1 1 == 0) = none) :
    s.enableAdmin = s.aenOn.createQp 0 s.host.adminCtx := by
  have h' : ({ s with host := { s.host with aen := true } } : State).qp 0 = none := h
  unfold State.enableAdmin
  dsimp only
  rw [h', hc]
  rfl

/-- R530: a queue pair of number 0 created where there is none stands before all others. -/
theorem createQp_zero (ctx : Bytes) (h : s.qp 0 = none) :
    s.createQp 0 ctx = { s with host := { s.host with
      qps := { qid := 0, ctx := ctx } :: s.host.qps
      watched := if bits ctx 16 16 = 0 then s.host.watched ++ [0] else s.host.watched } } := by
  have habove : s.host.qps.filter (fun p => decide (0 < p.qid)) = s.host.qps :=
    List.filter_eq_self.2 fun p hp => by simpa [Nat.pos_iff_ne_zero] using qp_none h p hp
  have hbelow : s.host.qps.filter (fun p => decide (p.qid < 0)) = [] := by simp
  unfold State.createQp
  dsimp only
  rw [habove, hbelow]
  simp [QueuePair.tailmode]

/-- R582: an AEN write of 0. -/
def State.aenOff (s : State) : State :=
  { s with host := { s.host with aen := false, acerr := false }, startup := { s.startup with aenHeld := false } }

theorem clearAen_none (h : s.qp 0 = none) : s.clearAen = s.aenOff := by
  have h' : s.aenOff.qp 0 = none := h
  show (if (s.aenOff.qp 0).isSome then s.aenOff.deleteQp 0 else s.aenOff) = s.aenOff
  rw [h']
  rfl

theorem clearAen_some {p : QueuePair} (h : s.qp 0 = some p) : s.clearAen = s.aenOff.deleteQp 0 := by
  have h' : s.aenOff.qp 0 = some p := h
  show (if (s.aenOff.qp 0).isSome then s.aenOff.deleteQp 0 else s.aenOff) = s.aenOff.deleteQp 0
  rw [h']
  rfl

/-- R538: a queue pair without commands and without entries held back goes, and its tail line is not watched any more. -/
theorem deleteQp_idle {q : Nat} {p : QueuePair} (h : s.qp q = some p) (hh : p.held = []) (hc : ∀ c ∈ s.host.cmds, c.qid ≠ q) :
    s.deleteQp q = { s with host := { s.host with
      qps := s.host.qps.filter fun x => x.qid != q, watched := s.host.watched.filter fun w => w != q } } := by
  have hnone : s.host.cmds.filter (fun c => c.qid == q) = [] := List.filter_eq_nil_iff.2 fun c hm => by simpa using hc c hm
  have hall : s.host.cmds.filter (fun c => c.qid != q) = s.host.cmds := List.filter_eq_self.2 fun c hm => by simpa using hc c hm
  unfold State.deleteQp
  dsimp only
  rw [hnone]
  simp only [List.foldl_nil, h, hh, List.length_nil, State.postAll]
  unfold State.dropQp
  dsimp only
  rw [hnone, List.foldl_nil, hall]

end Admin

/-- Settles O8: an AEN write of 1 by the phase and the context, one of 0 by whether queue pair 0 exists. -/
theorem adminQueueEnable : Obligations.AdminQueueEnable := by
  refine ⟨?created, ?refused, ?held, ?cleared, ?deleted⟩
  case created =>
    intro s hq hu hs h0 hc
    refine ⟨_, ?_, rfl⟩
    rw [exec_adminQueueCreate hq hu, writeAen_started hs, enableAdmin_good h0 hc, createQp_zero (s := s.aenOn) _ h0]
    rfl
  case refused =>
    intro s o hq hu hs h0 hc
    rw [exec_adminQueueCreate hq hu, writeAen_started hs, enableAdmin_bad h0 hc]
  case held =>
    intro s hq hu hs
    rw [exec_adminQueueCreate hq hu, writeAen_held hs]
  case cleared =>
    intro s hq hu h0
    have hclear := clearAen_none h0
    calc exec .adminQueueDelete s = s.onHost State.clearAen := rfl
      _ = .next s.clearAen := onHost_settled hu (by rw [hclear]; exact hq)
      _ = _ := by rw [hclear]; rfl
  case deleted =>
    intro s p hq hu hp hh hc
    have hclear := (clearAen_some hp).trans (deleteQp_idle (s := s.aenOff) hp hh hc)
    calc exec .adminQueueDelete s = s.onHost State.clearAen := rfl
      _ = .next s.clearAen := onHost_settled hu (by rw [hclear]; exact hq)
      _ = _ := by rw [hclear]; rfl

/-! ### Doorbells and tail lines -/

section Indexes
variable {s : State} {q v : Nat} {p : QueuePair}

/-- R534, R582: a doorbell word of a queue pair of TAILMODE 1 that is in no error state. -/
theorem regWord_doorbell {k : Nat} (hb : q < 256) (hk : k = 0 ∨ k = 4) (hp : s.qp q = some p) (ht : p.tailmode = 1) (he : p.err = false) :
    s.regWord (0x30000 + 8 * q + k) v = if k = 0 then s.setTail q v else s.setHead q v := by
  have hq : (0x30000 + 8 * q + k - 0x30000) / 8 = q := by omega
  have hm : (0x30000 + 8 * q + k) % 8 = k := by omega
  have h1 : ¬(0x30000 + 8 * q + k < 0x20040) := by omega
  have h2 : 0x30000 + 8 * q + k < 0x30800 := by omega
  have h3 : 0x30000 ≤ 0x30000 + 8 * q + k := by omega
  have h4 : ∀ a, a < 0x30000 → (0x30000 + 8 * q + k == a) = false := fun a ha => beq_false_of_ne (by omega)
  unfold State.regWord
  simp only [hq, hm, hp, ht, he, h1, h2, h3, h4 0x20040 (by omega), h4 0x20044 (by omega), h4 0x20048 (by omega)]
  rcases hk with rfl | rfl <;> simp

theorem setTail_within (hp : s.qp q = some p) (hv : v < p.depth) : s.setTail q v = s.modQp q fun x => { x with sqTail := v } := by
  unfold State.setTail
  rw [hp]
  exact if_neg (by omega)

theorem setTail_beyond (hp : s.qp q = some p) (hv : p.depth ≤ v) : s.setTail q v = s.errQp q := by
  unfold State.setTail
  rw [hp]
  exact if_pos hv

/-- R537: a queue pair without an error enters its error state, which is raised. -/
theorem errQp_first (hp : s.qp q = some p) (he : p.err = false) :
    s.errQp q = (s.modQp q fun x => { x with err := true }).raise { unit := 0x2C0, kind := 0x29, addr := q } := by
  unfold State.errQp
  rw [hp]
  exact if_neg (by simp [he])

theorem setHead_taken {p' : QueuePair} (hp : s.qp q = some p) (hv : p.takeHead v = some p') : s.setHead q v = s.modQp q fun _ => p' := by
  unfold State.setHead
  rw [hp]
  dsimp only
  rw [hv]

/-- R536: a head index that is taken is the pair's only change. -/
theorem takeHead_eq {p' : QueuePair} (h : p.takeHead v = some p') : p' = { p with cqHead := v } := by
  unfold QueuePair.takeHead at h
  dsimp only at h
  split at h
  · cases h
  · exact (Option.some.inj h).symm

/-- A changed queue pair is found changed. -/
theorem modQp_qp_self {f : QueuePair → QueuePair} (hp : s.qp q = some p) (hf : ∀ x : QueuePair, x.qid = q → (f x).qid = q) :
    (s.modQp q f).qp q = some (f p) :=
  find_updWhere _ _ _ _ (fun a ha => by simpa using hf a (by simpa using ha)) hp

/-- A change of one queue pair leaves the others. -/
theorem modQp_qp_other {n : Nat} {f : QueuePair → QueuePair} (hn : n ≠ q) (hf : ∀ x : QueuePair, x.qid = q → (f x).qid = q) :
    (s.modQp q f).qp n = s.qp n :=
  find_updWhere_other _ _ _ _ fun a ha => by
    have hq : a.qid = q := by simpa using ha
    simp [hq, hf a hq, Ne.symm hn]

theorem cacheLine_held (h : s.host.watched.contains v = true) : s.cacheLine v = s := if_pos h

/-- R533, R590: the tail line of a queue pair of TAILMODE 0 without an error, held by the cache. -/
theorem lineRead_queue {tail head : Nat} (hp : s.qp q = some p) (ht : p.tailmode = 0) (he : p.err = false)
    (hw : s.host.watched.contains q = true) : s.lineRead (.queue q tail head) = (s.setHead q head).setTail q tail := by
  simp only [State.lineRead, hp, ht, he, cacheLine_held hw]
  simp

/-- R587: the consumer line of a sink, held by the cache. -/
theorem lineRead_sink {n c : Nat} {k : Sink} (hk : s.sink n = some k) (hw : s.host.watched.contains (256 + n) = true) :
    s.lineRead (.sink n c) = s.modSink n fun x => { x with consumer := c } := by
  simp only [State.lineRead, hk, cacheLine_held hw]
  simp

theorem exec_sqtailDoorbell (hu : s.hostUp = true) (hb : q < 256) (hp : s.qp q = some p) (ht : p.tailmode = 1) (he : p.err = false)
    (hv : v < 4294967296) : exec (.sqtailDoorbell q v) s = .next (s.setTail q v).settle := by
  show s.onHost (fun s => if q < 256 then s.regWord (0x30000 + 8 * q) (v % 4294967296) else s) = _
  rw [onHost_up hu, if_pos hb, Nat.mod_eq_of_lt hv]
  exact congrArg (fun t : State => Host.Outcome.next t.settle) (regWord_doorbell (k := 0) hb (.inl rfl) hp ht he)

theorem exec_cqheadDoorbell (hu : s.hostUp = true) (hb : q < 256) (hp : s.qp q = some p) (ht : p.tailmode = 1) (he : p.err = false)
    (hv : v < 4294967296) : exec (.cqheadDoorbell q v) s = .next (s.setHead q v).settle := by
  show s.onHost (fun s => if q < 256 then s.regWord (0x30000 + 8 * q + 4) (v % 4294967296) else s) = _
  rw [onHost_up hu, if_pos hb, Nat.mod_eq_of_lt hv]
  exact congrArg (fun t : State => Host.Outcome.next t.settle) (regWord_doorbell (k := 4) hb (.inr rfl) hp ht he)

theorem exec_tailLineSnoop {l : WatchedLine} (hu : s.hostUp = true) (h1 : s.power.state ≤ 1) :
    exec (.tailLineSnoop l) s = .next (s.lineRead l).settle := by
  show s.onHost (fun s => if s.power.state ≤ 1 then s.lineRead l else s) = _
  rw [onHost_up hu, if_pos h1]

end Indexes

/-- Settles O10: each index arrives by its doorbell or line, or errs where it is out of range. -/
theorem queueIndexesArrive : Obligations.QueueIndexesArrive := by
  refine ⟨?tail, ?beyond, ?head, ?line, ?consumer⟩
  case tail =>
    intro s p q v hq hu hb hp ht he hv hd
    rw [exec_sqtailDoorbell hu hb hp ht he hv, setTail_within hp hd]
    exact congrArg _ (settle_quiet hq)
  case beyond =>
    intro s p q v hu hb hp ht he hv hd
    rw [exec_sqtailDoorbell hu hb hp ht he hv, setTail_beyond hp hd, errQp_first hp he]
  case head =>
    intro s p p' q v hq hu hb hp ht he hv hh
    rw [exec_cqheadDoorbell hu hb hp ht he hv, setHead_taken hp hh, takeHead_eq hh]
    exact congrArg _ (settle_quiet hq)
  case line =>
    intro s p p' q tail head hq hu h1 hp ht he hh hd hw
    cases takeHead_eq hh
    have hid := qp_qid hp
    have hmid : (s.modQp q fun _ => { p with cqHead := head }).qp q = some { p with cqHead := head } := modQp_qp_self hp fun _ _ => hid
    refine ⟨(s.modQp q fun _ => { p with cqHead := head }).modQp q fun x => { x with sqTail := tail }, ?run,
      modQp_qp_self hmid fun _ h => h, fun n hn => ?others, rfl⟩
    case run =>
      rw [exec_tailLineSnoop hu h1, lineRead_queue hp ht he hw, setHead_taken hp hh, setTail_within hmid hd]
      exact congrArg _ (settle_quiet hq)
    case others =>
      exact (modQp_qp_other (f := fun x => { x with sqTail := tail }) hn fun _ h => h).trans
        (modQp_qp_other (f := fun _ => { p with cqHead := head }) hn fun _ _ => hid)
  case consumer =>
    intro s k n c hq hu h1 hk hw
    rw [exec_tailLineSnoop hu h1, lineRead_sink hk hw]
    exact congrArg _ (settle_quiet hq)

/-! ### Words of BAR0 -/

section Words
variable {s : State} {o v : Nat}

theorem exec_registerWrite_word (hu : s.hostUp = true) (ho : o % 4 = 0) (hl : o + 4 ≤ 0x100000) :
    exec (.registerWrite 0 o 4 v) s = .next (s.regWord o (v % 4294967296)).settle := by
  show s.onHost (fun s => s.regWrite 0 o 4 v) = _
  rw [onHost_up hu]
  simp [State.regWrite, ho, hl]

/-- R581: an access that is not aligned changes nothing. -/
theorem exec_registerWrite_unaligned (hq : s.quiet) (ho : o % 4 ≠ 0) : exec (.registerWrite 0 o 4 v) s = .next s := by
  have hn : s.regWrite 0 o 4 v = s := by simp [State.regWrite, ho]
  show Host.Outcome.next (if s.hostUp then s.regWrite 0 o 4 v else s).settle = _
  rw [hn, ite_self, settle_quiet hq]

theorem regWord_adminCtx (h1 : 0x20000 ≤ o) (h2 : o < 0x20040) :
    s.regWord o v = { s with host := { s.host with
      adminCtx := s.host.adminCtx.take (o - 0x20000) ++ leBytes 4 v ++ s.host.adminCtx.drop (o - 0x20000 + 4) } } := by
  unfold State.regWord
  rw [if_pos (by simp [h1, h2])]

/-- R580: a word below 0x2_0000 is kept as it is written. -/
theorem regWord_kept (h : o < 0x20000) : s.regWord o v = s.barWrite 0 o (leBytes 4 v) := by
  have h1 : ¬(0x20000 ≤ o) ∧ ¬(0x30000 ≤ o) ∧ o ≠ 0x20040 ∧ o ≠ 0x20044 ∧ o ≠ 0x20048 ∧ o ≠ 0x31000 := by omega
  unfold State.regWord
  simp [h, h1]

/-- R557: a slice-done value past the last slice is a stray write. -/
theorem regWord_strayDone (h : 16384 ≤ v) :
    s.regWord 0x31000 v = { s with host := { s.host with strayWrites := (s.host.strayWrites + 1) % 4294967296 } } := by
  unfold State.regWord
  simp [Nat.not_lt.2 h]

/-- A run of bytes written is read at its addresses. -/
theorem getCell_putCells_within (d : Nat → Byte) : ∀ (bs : Bytes) (l : List (Nat × Byte)) (a i : Nat) (x : Byte),
    bs[i]? = some x → getCell d (putCells d l a bs) (a + i) = x
  | [], _, _, _, _, h => by simp at h
  | b :: bs, l, a, 0, x, h => by
    cases Option.some.inj h
    rw [putCells, getCell_putCells_other d bs _ (a + 1) (a + 0) (by omega)]
    exact getCell_putCell_same d l a b
  | b :: bs, l, a, i + 1, x, h => by
    rw [putCells, show a + (i + 1) = a + 1 + i by omega]
    exact getCell_putCells_within d bs _ (a + 1) i x (by simpa using h)

end Words

/-- Settles O12: a word of the admin context, a word kept, an access not aligned and a slice-done value out of range. -/
theorem registerWindowWrites : Obligations.RegisterWindowWrites := by
  refine ⟨?context, ?kept, ?unaligned, ?stray⟩
  case context =>
    intro s o v hq hu h1 h2 ho
    rw [exec_registerWrite_word hu ho (by omega), regWord_adminCtx h1 h2]
    exact congrArg _ (settle_quiet hq)
  case kept =>
    intro s o v hq hu hl ho
    refine ⟨putCells barDefault s.host.barBytes o (leBytes 4 (v % 4294967296)), ?run, ?inside, ?outside⟩
    case run =>
      rw [exec_registerWrite_word hu ho (by omega), regWord_kept hl, State.barWrite, Nat.mul_zero, Nat.zero_add]
      exact congrArg _ (settle_quiet hq)
    case inside => exact fun i x h => getCell_putCells_within _ _ _ _ _ _ h
    case outside => exact fun a h => getCell_putCells_other _ _ _ _ _ (by simpa [leBytes] using h)
  case unaligned => exact fun s o v hq ho => exec_registerWrite_unaligned hq ho
  case stray =>
    intro s v hq hu h1 h2
    show s.onHost (fun s => s.regWord 0x31000 (v % 4294967296)) = _
    rw [onHost_up hu, Nat.mod_eq_of_lt h2, regWord_strayDone h1]
    exact congrArg _ (settle_quiet hq)

end Sys2Proof.Machine
end

section
/-!
PROOFS. Commands on their way in and out (R535 to R541, R555 to R560, R575) and what ends them with the link (R578, R579, R596, R597): the
statements O13, O14, O15 and O16.
-/
namespace Sys2Proof.Machine

/-! ### Fetching -/

section Fetch
variable {s : State} {p : QueuePair} {f : Bool} {b l : Bytes}

/-- R535, R718: the state with a command fetched from a queue pair: its ring moves on, PS1 ends, and the command is the newest. -/
def State.withFetched (s : State) (p : QueuePair) (f : Bool) (c : Cmd) : State :=
  let t := ({ s with power := { s.power with state := 0 } } : State).leaveRing p f
  { t with host := { t.host with cmds := s.host.cmds ++ [c] } }

theorem fetchCapsule_new (hf : s.fetches = true) (hn : s.nextQp = some (p, f)) (hc : s.cmd p.qid (field b 2 2) = none) :
    s.fetchCapsule b l =
      match (s.withFetched p f (s.fetchedCmd p.qid b l)).refuse (s.fetchedCmd p.qid b l) with
      | some r => (s.withFetched p f (s.fetchedCmd p.qid b l)).complete (s.fetchedCmd p.qid b l) r
      | none => s.withFetched p f (s.fetchedCmd p.qid b l) := by
  have hnew : ((({ s with power := { s.power with state := 0 } } : State).leaveRing p f).cmd p.qid (field b 2 2)).isSome = false :=
    Option.isSome_eq_false_iff.2 (Option.isNone_iff_eq_none.2 hc)
  unfold State.fetchCapsule
  rw [if_neg (by simp [hf]), hn]
  exact if_neg (Bool.eq_false_iff.1 hnew)

/-- R535: the head of the ring moves on by one entry modulo DEPTH. -/
theorem leaveRing_qp (hp : s.qp p.qid = some p) :
    ∃ x, (s.leaveRing p f).qp p.qid = some x ∧ x.sqHead = (p.sqHead + 1) % max 1 p.depth ∧ x.held = p.held ∧ x.sqTail = p.sqTail := by
  have hkept : ∀ x : QueuePair, (x.qid == p.qid) = true → ∀ n, (({ x with sqHead := (x.sqHead + 1) % max 1 x.depth, fetched := n }
      : QueuePair).qid == p.qid) = true := fun _ h _ => h
  cases f with
  | false => exact ⟨_, find_updWhere _ _ _ _ (fun x h => hkept x h _) hp, rfl, rfl, rfl⟩
  | true =>
    have hreset : (s.host.qps.map fun x => { x with fetched := 0 }).find? (fun x => x.qid == p.qid) = some { p with fetched := 0 } := by
      rw [List.find?_map]
      exact congrArg _ hp
    exact ⟨_, find_updWhere _ _ _ _ (fun x h => hkept x h _) hreset, rfl, rfl, rfl⟩

end Fetch

/-- Settles O13: the command fetched is `State.fetchedCmd`, and only the ring, the turn and the power state move with it. -/
theorem fetchedCapsuleWaits : Obligations.FetchedCapsuleWaits := by
  intro s b l p f hq hf hn hp hc
  obtain ⟨x, hx, hhead, hheld, htail⟩ := leaveRing_qp (s := { s with power := { s.power with state := 0 } }) (f := f) hp
  refine ⟨s.withFetched p f (s.fetchedCmd p.qid b l), s.fetchedCmd p.qid b l, ?run, rfl, rfl, rfl, rfl, rfl, rfl, rfl, rfl, rfl, ?seqs,
    rfl, rfl, rfl, ⟨x, hx, hhead, hheld, htail⟩, rfl, rfl, rfl, rfl, rfl, rfl, rfl, rfl⟩
  case run =>
    show Host.Outcome.next (s.fetchCapsule b l).settle = _
    rw [fetchCapsule_new hf hn hc]
    cases (s.withFetched p f (s.fetchedCmd p.qid b l)).refuse (s.fetchedCmd p.qid b l) with
    | none => exact congrArg _ (settle_quiet hq)
    | some r => exact congrArg _ (settle_quiet hq)
  case seqs => simp only [State.fetchedCmd, beq_iff_eq]; rfl

/-! ### Completing and posting -/

section Posting
variable {s : State} {q : Nat} {p : QueuePair} {c : Cmd} {r : Result}

/-- Changes of a queue pair that agree on the pairs of its number are one change. -/
theorem modQp_congr {f g : QueuePair → QueuePair} (h : ∀ x ∈ s.host.qps, x.qid = q → f x = g x) : s.modQp q f = s.modQp q g := by
  have hl : updWhere (fun x => x.qid == q) f s.host.qps = updWhere (fun x => x.qid == q) g s.host.qps := by
    refine List.map_congr_left fun x hx => ?_
    split
    next hq => exact h x hx (by simpa using hq)
    next => rfl
  unfold State.modQp
  rw [hl]

/-- R541: is a completion due a signal at once, by CTIME and CCOUNT? -/
theorem due_iff : (decide (max 1 p.ccount ≤ p.unsignalled + 1) || p.ctime == 0) = true ↔ p.ctime = 0 ∨ p.ccount ≤ p.unsignalled + 1 := by
  have hmax : max 1 p.ccount ≤ p.unsignalled + 1 ↔ p.ccount ≤ p.unsignalled + 1 := by omega
  rw [Bool.or_eq_true, decide_eq_true_iff, beq_iff_eq, hmax, or_comm]

/-- R536: the oldest held entry written at the completion tail, which moves on. -/
def State.postEntry (s : State) (q : Nat) (p : QueuePair) (e : Posting) (es : List Posting) : State :=
  (s.send (.dmaWrite (p.cqbase + 16 * p.cqTail) (e.encode p) false)).modQp q fun x => { x with
    held := es
    cqTail := if p.cqTail + 1 = p.depth then 0 else p.cqTail + 1
    phase := if p.cqTail + 1 = p.depth then !x.phase else x.phase
    unsignalled := if p.ctime = 0 ∨ p.ccount ≤ p.unsignalled + 1 then 0 else x.unsignalled + 1 }

theorem post_held {e : Posting} {es : List Posting} (hp : s.qp q = some p) (hh : p.held = e :: es) (hf : p.full = false)
    (hone : ∀ x ∈ s.host.qps, x.qid = q → x = p) :
    s.post q = if p.ctime = 0 ∨ p.ccount ≤ p.unsignalled + 1 then (s.postEntry q p e es).signal p.vector else s.postEntry q p e es := by
  unfold State.post
  simp only [hp, hh, hf, Bool.false_eq_true, if_false, due_iff, beq_iff_eq]
  have hentry : ((s.send (.dmaWrite (p.cqbase + 16 * p.cqTail) (e.encode p) false)).modQp q fun x => { x with
      held := es
      cqTail := if p.cqTail + 1 = p.depth then 0 else x.cqTail + 1
      phase := if p.cqTail + 1 = p.depth then !x.phase else x.phase
      unsignalled := if p.ctime = 0 ∨ p.ccount ≤ p.unsignalled + 1 then 0 else x.unsignalled + 1 }) = s.postEntry q p e es :=
    modQp_congr fun x hx hq => by cases hone x hx hq; rfl
  rw [hentry]

/-- R536: a full ring posts nothing. -/
theorem post_full (hp : s.qp q = some p) (hf : p.full = true) : s.post q = s := by
  unfold State.post
  rw [hp]
  dsimp only
  split
  · rfl
  · exact if_pos hf

theorem delayOver_waits (hp : s.qp q = some p) (hu : p.unsignalled ≠ 0) (ht : p.ctime ≠ 0) :
    s.delayOver q = (s.modQp q fun x => { x with unsignalled := 0 }).signal p.vector := by
  unfold State.delayOver
  rw [hp]
  exact if_neg (by simp [hu, ht])

theorem complete_cmd_self (s : State) (c : Cmd) (r : Result) : (s.complete c r).cmd c.qid c.cid = none := by
  show (s.host.cmds.filter fun x => !(x.is c.qid c.cid)).find? (fun x => x.is c.qid c.cid) = none
  simp

theorem complete_cmd_other {n i : Nat} (h : ¬(n = c.qid ∧ i = c.cid)) : (s.complete c r).cmd n i = s.cmd n i :=
  find_filter_kept s.host.cmds fun x hx => by
    simp only [Cmd.is, Bool.and_eq_true, beq_iff_eq] at hx
    obtain ⟨rfl, rfl⟩ := hx
    simpa [Cmd.is] using not_and_or.1 h

theorem complete_qp_self (hp : s.qp c.qid = some p) : (s.complete c r).qp c.qid = some { p with held := p.held ++ [s.posting c r] } :=
  modQp_qp_self (f := fun x => { x with held := x.held ++ [s.posting c r] }) hp fun _ h => h

theorem complete_qp_other (hq : q ≠ c.qid) : (s.complete c r).qp q = s.qp q :=
  modQp_qp_other (f := fun x => { x with held := x.held ++ [s.posting c r] }) hq fun _ h => h

/-- R541: JSTATE and RES1 of the entry of a command whose result names a crew. -/
theorem posting_crew {n : Nat} (h : r.crew = some n) : (s.posting c r).jstate = s.jstate n ∧ (s.posting c r).res1 = n := by
  simp [State.posting, h]

end Posting

/-- Settles O14. -/
theorem completionPosted : Obligations.CompletionPosted := by
  refine ⟨?posted, ?full, ?delayed, ?message, ?completed⟩
  case posted =>
    intro s q p e es hq hm hp hh hf due last w hone
    have hpost : s.post q = if due then w.signal p.vector else w := post_held hp hh hf hone
    show Host.Outcome.next (if s.mayPost then s.post q else s).settle = _
    rw [if_pos hm, hpost]
    split
    · exact congrArg _ (settle_quiet ((congrArg Faults.transit (signal_faults w p.vector)).trans hq))
    · exact congrArg _ (settle_quiet hq)
  case full =>
    intro s q p hq hp hf
    show Host.Outcome.next (if s.mayPost then s.post q else s).settle = _
    rw [post_full hp hf, ite_self, settle_quiet hq]
  case delayed =>
    intro s q p hq hm hp hu ht
    show Host.Outcome.next (if s.mayPost then s.delayOver q else s).settle = _
    rw [if_pos hm, delayOver_waits hp hu ht]
    exact congrArg _ (settle_quiet ((congrArg Faults.transit (signal_faults ..)).trans hq))
  case message =>
    intro s v hv
    exact if_neg (by simp [hv])
  case completed =>
    intro s c r
    refine ⟨complete_cmd_self s c r, fun q i h => complete_cmd_other h, fun p hp => ⟨s.posting c r, complete_qp_self hp, rfl, rfl, rfl, rfl,
      fun n hn => posting_crew hn⟩, fun q hq => complete_qp_other hq, _, _, rfl⟩

/-! ### Grants -/

section Grants
variable {s : State} {q i : Nat} {c : Cmd}

/-- R556, R558: a grant of slices that are free, to a command that waits for its data. -/
theorem grant_given {s' : State} {f n : Nat} (hc : s.cmd q i = some c) (hw : c.wait = .data)
    (hl : min (n * 65536) (c.dlen - c.granted) ≠ 0) (h1 : 1 ≤ n) (h16 : n ≤ 16)
    (hn : n = ceilDiv (min (n * 65536) (c.dlen - c.granted)) 65536) (hs : f + n ≤ 16384)
    (hm : (s.host.grants.filter fun g => g.qid == q && g.cid == i).length < 4)
    (hf : ∀ k, k < n → s.sliceGranted (f + k) = false ∧ s.sliceHeld (f + k) = false)
    (ha : s.alloc .writeWindow (.window q i f) (min (n * 65536) (c.dlen - c.granted)) [ownerId 3 q] = (true, s')) :
    let len := min (n * 65536) (c.dlen - c.granted)
    s.grant q i f n = ((({ s' with host := { s'.host with grants := s'.host.grants ++
        [{ qid := q, cid := i, first := f, count := n, offset := c.granted, len := len }] } } : State).modCmd q i fun x =>
      { x with granted := x.granted + len }).hold q
        { kind := 1, cid := i, res0 := f + n * 16384, status := 0, jstate := 7, res1 := c.granted / 65536 }) := by
  have hfree : ((List.range n).all fun k => !s.sliceGranted (f + k) && !s.sliceHeld (f + k)) = true := by
    simpa using hf
  intro len
  unfold State.grant
  rw [hc]
  dsimp only [sliceBytes]
  rw [ha]
  exact if_pos (by simpa [hw, hl, h1, h16, hs, hm, hfree, within] using hn)

/-- R557: a slice-done doorbell takes the data of its grant and frees its slices. -/
theorem sliceDone_granted {g : Grant} (hg : s.host.grants.find? (fun x => x.first == g.first) = some g) :
    s.sliceDone g.first = (({ s with host := { s.host with grants := s.host.grants.erase g } } : State).freeRef
        fun r => r == .window g.qid g.cid g.first).modCmd g.qid g.cid fun c => { c with
      parts := c.parts ++ [(g.offset, getCells (fun _ => 0) s.host.window (65536 * g.first) g.len)]
      wait := if c.dlen ≤ ((c.parts ++ [(g.offset, getCells (fun _ => 0) s.host.window (65536 * g.first) g.len)]).map fun p =>
        p.2.length).sum then .ready else c.wait } := by
  unfold State.sliceDone
  rw [hg]
  rfl

theorem regWord_sliceDone {v : Nat} (h : v < 16384) : s.regWord 0x31000 v = s.sliceDone v := by
  unfold State.regWord
  simp [h]

/-- A command changed with its queue pair and id kept is found changed. -/
theorem modCmd_cmd_self {f : Cmd → Cmd} (hc : s.cmd q i = some c) (hf : ∀ x : Cmd, x.is q i = true → (f x).is q i = true) :
    (s.modCmd q i f).cmd q i = some (f c) := find_updWhere _ _ _ _ hf hc

/-- R559: a grant that is not taken up ends its command. -/
theorem grantExpired_open {g : Grant} (hc : s.cmd q i = some c) (hg : g ∈ s.host.grants) (hq : g.qid = q) (hi : g.cid = i) :
    s.grantExpired q i = (s.endGrants q i).complete c { status := 0x02, res0 := 0xFFFFFFFF } := by
  unfold State.grantExpired
  rw [hc]
  exact if_pos (List.any_eq_true.2 ⟨g, hg, by simp [hq, hi]⟩)

end Grants

/-- Settles O15. -/
theorem grantsGiveAndEnd : Obligations.GrantsGiveAndEnd := by
  refine ⟨?given, ?done, ?expired, ?data, ?ring⟩
  case given =>
    intro s s' c q i f n hq hc hw len hl h1 h16 hn hs hm hf ha g w
    exact congrArg (fun t : State => Host.Outcome.next t.settle) (grant_given hc hw hl h1 h16 hn hs hm hf ha)
  case done =>
    intro s g hu hg hb
    obtain ⟨m, hm⟩ := freeRef_sameButMem ({ s with host := { s.host with grants := s.host.grants.erase g } } : State)
      fun r => r == .window g.qid g.cid g.first
    have hdone := sliceDone_granted hg
    rw [hm] at hdone
    refine ⟨s.sliceDone g.first, ?run, ?effect⟩
    case run =>
      show s.onHost (fun s => s.regWord 0x31000 (g.first % 4294967296)) = _
      rw [onHost_up hu, Nat.mod_eq_of_lt (by omega), regWord_sliceDone hb]
    case effect =>
      rw [hdone]
      exact ⟨rfl, rfl, rfl, rfl, rfl, rfl, fun c hc => find_updWhere s.host.cmds (fun x => x.is g.qid g.cid) _ c (fun _ h => h) hc⟩
  case expired =>
    intro s c g q i hc hg hgq hgi
    exact congrArg (fun t : State => Host.Outcome.next t.settle) (grantExpired_open hc hg hgq hgi)
  case data =>
    intro s c q i hu hc w
    show s.onHost (fun s => s.dmaFailed (.data q i)) = _
    rw [onHost_up hu]
    simp only [State.dmaFailed, hc]
    rfl
  case ring =>
    intro s p q hu hp he w
    show s.onHost (fun s => s.dmaFailed (.ring q)) = _
    rw [onHost_up hu]
    simp only [State.dmaFailed, hp]
    exact congrArg (fun t : State => Host.Outcome.next t.settle) (errQp_first (s := w) hp he)

/-! ### Link events -/

section Link
variable {s : State}

/-- Without crews, what an early end undoes is in the pools alone. -/
theorem undo_sameButMem (h : s.crews = []) (c : Cmd) : s.sameButMem (s.undo c) := by
  have hmod : ∀ (n : Nat) (f : Crew → Crew), s.modCrew n f = s := fun n f => by
    unfold State.modCrew
    rw [h]
    cases s
    cases h
    rfl
  unfold State.undo
  split
  · rw [hmod]
    exact freeRef_sameButMem ..
  · split
    · rw [hmod]
      exact .refl s
    · split
      · exact freeRef_sameButMem ..
      · exact .refl s

/-- R560: without crews, a command's grants withdrawn change only grants, held slices and the pools. -/
theorem endGrants_noCrews (h : s.crews = []) (q i : Nat) :
    ∃ g k m, s.endGrants q i = { s with host := { s.host with grants := g, sliceHold := k }, mem := m } := by
  have hwithdraw : ∀ t, s.sameButMem t → ∃ g k m, ((t.withdraw q i).freeRef fun r => match r with
      | .window a b _ => a == q && b == i
      | _ => false) = { s with host := { s.host with grants := g, sliceHold := k }, mem := m } := fun t ht => by
    obtain ⟨m, rfl⟩ := ht
    obtain ⟨m', hm'⟩ := freeRef_sameButMem (({ s with mem := m } : State).withdraw q i)
      fun r => match r with | .window a b _ => a == q && b == i | _ => false
    exact ⟨_, _, m', hm'⟩
  unfold State.endGrants
  dsimp only
  split
  · exact hwithdraw _ (undo_sameButMem h _)
  · exact hwithdraw _ (.refl s)

/-- R597: without crews, a queue pair goes with its commands, and besides only grants, watched lines and the pools change. -/
theorem dropQp_noCrews (h : s.crews = []) (q : Nat) :
    ∃ g k w m, s.dropQp q = { s with
      host := { s.host with grants := g, sliceHold := k, watched := w, qps := s.host.qps.filter fun p => p.qid != q
                            cmds := s.host.cmds.filter fun c => c.qid != q }
      mem := m } := by
  have hfold : ∀ l : List Cmd, ∃ g k m, l.foldl (fun s c => s.endGrants c.qid c.cid) s =
      { s with host := { s.host with grants := g, sliceHold := k }, mem := m } := fun l => by
    refine List.foldlRecOn (motive := fun t : State => ∃ g k m, t = { s with host := { s.host with grants := g, sliceHold := k }, mem := m })
      l _ ⟨s.host.grants, s.host.sliceHold, s.mem, rfl⟩ fun t ht c _ => ?_
    obtain ⟨g, k, m, rfl⟩ := ht
    obtain ⟨g', k', m', he⟩ := endGrants_noCrews (s := { s with host := { s.host with grants := g, sliceHold := k }, mem := m })
      h c.qid c.cid
    exact ⟨g', k', m', he⟩
  obtain ⟨g, k, m, he⟩ := hfold (s.host.cmds.filter fun c => c.qid == q)
  unfold State.dropQp
  dsimp only
  rw [he]
  exact ⟨g, k, _, m, rfl⟩

/-- R597: without crews, the queue pairs of a list of numbers go with their commands. -/
theorem dropQps_noCrews (h : s.crews = []) (l : List Nat) :
    ∃ g k w m, l.foldl (fun s q => s.dropQp q) s = { s with
      host := { s.host with grants := g, sliceHold := k, watched := w, qps := s.host.qps.filter fun p => !l.contains p.qid
                            cmds := s.host.cmds.filter fun c => !l.contains c.qid }
      mem := m } := by
  induction l generalizing s with
  | nil =>
    refine ⟨s.host.grants, s.host.sliceHold, s.host.watched, s.mem, ?_⟩
    simp
  | cons q l ih =>
    obtain ⟨g, k, w, m, hd⟩ := dropQp_noCrews h q
    rw [List.foldl_cons, hd]
    obtain ⟨g', k', w', m', hl⟩ := ih (s := { s with
      host := { s.host with grants := g, sliceHold := k, watched := w, qps := s.host.qps.filter fun p => p.qid != q
                            cmds := s.host.cmds.filter fun c => c.qid != q }
      mem := m }) h
    refine ⟨g', k', w', m', hl.trans ?_⟩
    simp only [List.filter_filter, List.contains_cons, Bool.not_or, bne, Bool.and_comm]

/-- R597: the host interface after a link reset of a device without sinks. -/
def HostIf.linkDown (h : HostIf) (hold : List (Nat × Nat × Nat)) : HostIf :=
  { h with adminCtx := List.replicate 64 0, aen := false, acerr := false, barBytes := [], grants := [], sliceHold := hold, ingests := []
           turn := 0, linkResets := (h.linkResets + 1) % 4294967296, watched := [], cacheLines := [], qps := [], cmds := [] }

/-- R597: a link reset with no crew and no sink. -/
theorem linkReset_calm (hc : s.crews = []) (hk : s.sinks = []) (hq : ∀ c ∈ s.host.cmds, (s.qp c.qid).isSome) :
    ∃ hold d m, s.linkReset = { s with host := s.host.linkDown hold, dict := d, mem := m } := by
  obtain ⟨g, k, w, m, hd⟩ := dropQps_noCrews hc (s.host.qps.map (·.qid))
  have hqps : s.host.qps.filter (fun p => !(s.host.qps.map (·.qid)).contains p.qid) = [] :=
    List.filter_eq_nil_iff.2 fun p hp => by
      have hmem : p.qid ∈ s.host.qps.map (·.qid) := List.mem_map_of_mem hp
      simpa using hmem
  have hcmds : s.host.cmds.filter (fun c => !(s.host.qps.map (·.qid)).contains c.qid) = [] :=
    List.filter_eq_nil_iff.2 fun c hm => by
      obtain ⟨p, hp⟩ := Option.isSome_iff_exists.1 (hq c hm)
      have hmem : c.qid ∈ s.host.qps.map (·.qid) := List.mem_map.2 ⟨p, List.mem_of_find?_eq_some hp, qp_qid hp⟩
      simpa using hmem
  rw [hqps, hcmds] at hd
  unfold State.linkReset
  dsimp only
  rw [hd]
  simp only [hc, hk, List.map_nil, State.resetCrews, List.foldl_nil]
  obtain ⟨m', hm'⟩ := freeRef_sameButMem _ _
  rw [hm']
  exact ⟨_, _, m', rfl⟩

/-- Without crews there is no admission to check again. -/
theorem recheckTimed_noCrews (h : s.crews = []) : s.recheckTimed = s := by
  unfold State.recheckTimed
  rw [h]
  rfl

end Link

/-- Settles O16. -/
theorem linkEvents : Obligations.LinkEvents := by
  refine ⟨?reset, ?idle, ?ide⟩
  case reset =>
    intro s k hq hu hc hk hcmd
    obtain ⟨hold, d, m, hl⟩ := linkReset_calm hc hk hcmd
    have hrun : ∀ t : State, s.resetLink k = t → t.faults = s.faults → exec (.linkReset k) s = .next t := fun t ht hf => by
      show Host.Outcome.next (s.resetLink k).settle = _
      rw [ht, settle_quiet ((congrArg Faults.transit hf).trans hq)]
    unfold State.resetLink at hrun
    simp only [hu, Bool.not_true, Bool.false_eq_true, if_false, hl] at hrun
    cases k with
    | flr | linkDown | hot | conventional =>
      refine ⟨_, hrun _ (recheckTimed_noCrews hc) rfl, rfl, rfl, rfl, rfl, rfl, rfl, rfl, rfl, rfl, rfl, rfl, ?_, rfl, rfl, rfl, rfl, rfl, rfl⟩
      simp
  case idle =>
    intro s hq hd h1 h0 hl
    have hcond : (s.startup.cxlDone && decide (s.power.state ≤ 1) && s.host.speed == 0 && !s.host.leftDown) = true := by
      simp [hd, h1, h0, hl]
    exact congrArg Host.Outcome.next ((congrArg State.settle (if_pos hcond)).trans (settle_quiet hq))
  case ide =>
    intro s n hu hi hn w
    show s.onHost (fun s => if s.host.ide == 0 then s else s.ideFailed n) = _
    have hfail : s.ideFailed n = w.raise { unit := 0x2C0, kind := 0x27, addr := n } := by
      unfold State.ideFailed
      dsimp only
      rw [if_neg (by simpa using hn)]
    rw [onHost_up hu, if_neg (by simpa using hi), hfail]

end Sys2Proof.Machine
end

section
/-!
PROOFS. Admin commands and queue pairs (R530 to R553), crews (R599 to R602, R611) and job commands (R565 to R574): the effect of each ready
command by the checks it passes, and the statements O17, O18, O23, O24, O26 and O27 from that; O28 fails.
-/
namespace Sys2Proof.Machine

/-- A ready command at its queue pair, by what its effect comes to. -/
theorem atCmd_effect {s t : State} {q i opc : Nat} {fid : Option Nat} {c : Cmd} (f : Cmd → State → State)
    (h : s.readyCmd q i opc fid = some c) (he : f c s = t) : s.atCmd q i opc fid f = .next t.settle := by
  rw [atCmd_ready h, he]

/-- A ready command whose effect leaves a quiet state: delivery adds nothing to it. -/
theorem atCmd_settled {s t : State} {q i opc : Nat} {fid : Option Nat} {c : Cmd} (f : Cmd → State → State)
    (h : s.readyCmd q i opc fid = some c) (he : f c s = t) (hq : t.quiet) : s.atCmd q i opc fid f = .next t := by
  rw [atCmd_effect f h he, settle_quiet hq]

/-! ### IDENTIFY, GET LOG and GET FEATURES -/

section Admin
variable {s : State} {c : Cmd}

/-- R544 to R546: IDENTIFY with room for the identity structure. -/
theorem identify_fits (h : 4096 ≤ c.dlen) :
    let w : State := { s with host := { s.host with negotiated := min c.fid 1 } }
    s.identify c = (w.toHost c w.identity).complete c (.ok (min c.fid 1)) := if_neg (by omega)

theorem getFeature_other (h : c.fid ≠ 0x01) : s.getFeature c = s.complete c { status := 0x02, res0 := 20 } := if_pos (by simpa using h)

/-- R549: GET FEATURES of a queue pair writes its context. -/
theorem getFeature_queuePair {p : QueuePair} (h : c.fid = 0x01) (hp : s.qp c.fval = some p) (hl : 64 ≤ c.dlen) :
    s.getFeature c = (s.toHost c (fitTo 64 p.ctx)).complete c (.ok 64) := by
  unfold State.getFeature
  rw [if_neg (by simp [h]), hp]
  exact if_neg (by omega)

/-! ### Firmware -/

@[simp] theorem setSlot_faults (s : State) (n : Nat) (f : FwSlot → FwSlot) : (s.setSlot n f).faults = s.faults := by
  unfold State.setSlot
  split <;> rfl

/-- R552, R687: a FIRMWARE DOWNLOAD that passes its checks writes its bytes into the slot. -/
theorem fwDownload_passes {x : Session} (hr : s.startup.running ≠ some c.fwSlot) (hl : c.fval + c.dlen ≤ 25165824)
    (hx : s.mailboxSession = some x) (h0 : c.dlen ≠ 0) :
    s.fwDownload c =
      (s.setSlot c.fwSlot fun y => { image := overlay y.image c.fval (c.data.take c.dlen), state := 1 }).complete c .ok := by
  have hfits : ¬fwSlotBytes < c.fval + c.dlen := by
    unfold fwSlotBytes
    omega
  unfold State.fwDownload
  rw [if_neg (by simpa using hr), if_neg hfits, if_neg (by simp [hx])]
  simp only [beq_eq_false_iff_ne.2 h0, Bool.false_eq_true, if_false]

/-- R553, R682: a FIRMWARE COMMIT of an image that verifies, by an installer's or maker's session. -/
theorem fwCommit_passes {x : Session} (hx : s.mailboxSession = some x) (ha : s.auditRefuses = false)
    (hj : (s.audit (s.auditOf x 4 3)).judgeSlot c.fwSlot = 3) :
    let w := (s.audit (s.auditOf x 4 3)).setSlot c.fwSlot fun y => { y with state := if y.state = 3 then 3 else 2 }
    let u : State := if c.action = 0 then { w with startup := { w.startup with pending := some c.fwSlot } } else w
    s.fwCommit c = u.complete c (.ok (imgSv (u.slot c.fwSlot).image)) := by
  unfold State.fwCommit
  rw [hx]
  dsimp only
  rw [if_neg (by simp [ha]), hj]
  simp only [bne_self_eq_false, Bool.false_eq_true, if_false, beq_iff_eq]

end Admin

/-- Settles O17. -/
theorem adminCommandsAnswer : Obligations.AdminCommandsAnswer := by
  refine ⟨?identify, ?log, ?context, ?other, ?download, ?commit⟩
  case identify => exact fun s q i c hq hc hl => atCmd_settled (fun c s => s.identify c) hc (identify_fits hl) hq
  case log => exact fun s q i c hq hc => atCmd_settled (fun c s => s.getLog c) hc rfl hq
  case context => exact fun s q i c p hq hc hf hp hl => atCmd_settled (fun c s => s.getFeature c) hc (getFeature_queuePair hf hp hl) hq
  case other => exact fun s q i c hq hc hf => atCmd_settled (fun c s => s.getFeature c) hc (getFeature_other hf) hq
  case download =>
    intro s q i c x hq hc hr hl hx h0
    exact atCmd_settled (fun c s => s.fwDownload c) hc (fwDownload_passes hr hl hx h0) ((congrArg Faults.transit (setSlot_faults ..)).trans hq)
  case commit => exact fun s q i c x hq hc hx ha hj => atCmd_effect (fun c s => s.fwCommit c) hc (fwCommit_passes hx ha hj)

/-! ### Queue pairs and aborts -/

section QueuePairs
variable {s : State} {c : Cmd} {n : Nat}

/-- R532: the queue pair created is found by its number. -/
theorem createQp_qp_self (s : State) (n : Nat) (ctx : Bytes) : (s.createQp n ctx).qp n = some { qid := n, ctx := ctx } := by
  unfold State.createQp State.qp
  rw [List.find?_append, find_filter_gone _ (by grind), Option.none_or]
  exact List.find?_cons_of_pos (beq_self_eq_true n)

/-- R532: the other queue pairs stay. -/
theorem createQp_qp_other {m : Nat} (hm : m ≠ n) (ctx : Bytes) : (s.createQp n ctx).qp m = s.qp m := by
  unfold State.createQp State.qp
  rw [List.find?_append, List.find?_cons_of_neg (by simpa using Ne.symm hm)]
  rcases Nat.lt_or_gt_of_ne hm with hlow | hhigh
  · rw [find_filter_kept _ (by grind), find_filter_gone _ (by grind), Option.or_none]
  · rw [find_filter_gone _ (by grind), find_filter_kept _ (by grind), Option.none_or]

theorem qpCreate_holds (hd : c.short 64 = false)
    (hc : ctxBad (c.data.take 64) (1 ≤ field (c.data.take 64) 1 1 && (s.qp (field (c.data.take 64) 1 1)).isNone) = none) :
    s.qpCreate c = (s.createQp (field (c.data.take 64) 1 1) (c.data.take 64)).complete c .ok := by
  unfold State.qpCreate
  dsimp only
  rw [if_neg (by simp [hd]), hc]

theorem qpDelete_untargeted {p : QueuePair} (h0 : c.fval ≠ 0) (hp : s.qp c.fval = some p) (ht : s.qpTargeted c.fval = false) :
    s.qpDelete c = (s.deleteQp c.fval).complete c .ok := by
  unfold State.qpDelete
  exact if_neg (by simp [h0, hp, ht])

/-- R538: a queue pair dropped is gone with its commands and its tail line, whatever the state before. -/
theorem dropQp_gone (s : State) (n : Nat) :
    (s.dropQp n).qp n = none ∧ (∀ x ∈ (s.dropQp n).host.cmds, x.qid ≠ n) ∧ n ∉ (s.dropQp n).host.watched := by
  refine ⟨find_filter_gone _ fun x hx => ?_, fun x hx => ?_, fun hx => ?_⟩
  · rw [bne, hx, Bool.not_true]
  · simpa using (List.mem_filter.1 hx).2
  · simpa using (List.mem_filter.1 hx).2

/-- R551, R560: an abort of an outstanding command that is not a job command. -/
theorem abortCmd_ends {x : Cmd} (hx : s.cmd (c.fval / 65536 % 256) (c.fval % 65536) = some x) (hj : isJobOpc x.opc = false)
    (hs : x.is c.qid c.cid = false) :
    s.abortCmd c false = ((s.endGrants x.qid x.cid).complete x { status := 0x05 }).complete c (.ok 1) := by
  have h22 : x.opc ≠ 0x22 := fun h => by
    rw [h] at hj
    exact absurd hj (by decide)
  have hend : s.endByRequest x = (s.endGrants x.qid x.cid).complete x { status := 0x05 } := by
    unfold State.endByRequest
    rw [if_neg (by simpa using h22)]
    rfl
  unfold State.abortCmd
  rw [hx]
  dsimp only
  rw [if_neg (by simp [hj, hs]), hend]

theorem abortCmd_none (b : Bool) (h : s.cmd (c.fval / 65536 % 256) (c.fval % 65536) = none) :
    s.abortCmd c b = s.complete c (.ok 0) := by
  unfold State.abortCmd
  rw [h]

end QueuePairs

/-- Settles O18. -/
theorem queuePairCommands : Obligations.QueuePairCommands := by
  refine ⟨?create, ?delete, ?abort, ?absent⟩
  case create =>
    intro s q i c hq hc hd n hctx
    exact ⟨atCmd_settled (fun c s => s.qpCreate c) hc (qpCreate_holds hd hctx) hq, createQp_qp_self .., fun m hm => createQp_qp_other hm _⟩
  case delete =>
    intro s q i c p hc h0 hp ht
    exact ⟨atCmd_effect (fun c s => s.qpDelete c) hc (qpDelete_untargeted h0 hp ht), dropQp_gone _ _⟩
  case abort => exact fun s q i c x hc hx hj hs => atCmd_effect (fun c s => s.abortCmd c false) hc (abortCmd_ends hx hj hs)
  case absent => exact fun s q i b c hq hc hx => atCmd_settled (fun c s => s.abortCmd c b) hc (abortCmd_none b hx) hq

/-! ### Crews -/

section Crews
variable {s : State} {c : Cmd} {k : Crew}

/-- R599: the crew added is found by its number. -/
theorem addCrew_crew_self (s : State) (k : Crew) : (s.addCrew k).crew k.num = some k := by
  unfold State.addCrew State.crew
  rw [List.find?_append, find_filter_gone _ (by grind), Option.none_or]
  exact List.find?_cons_of_pos (beq_self_eq_true k.num)

/-- R599: the other crews stay. -/
theorem addCrew_crew_other {n : Nat} (hn : n ≠ k.num) : (s.addCrew k).crew n = s.crew n := by
  unfold State.addCrew State.crew
  rw [List.find?_append, List.find?_cons_of_neg (by simpa using Ne.symm hn)]
  rcases Nat.lt_or_gt_of_ne hn with hlow | hhigh
  · rw [find_filter_kept _ (by grind), find_filter_gone _ (by grind), Option.or_none]
  · rw [find_filter_gone _ (by grind), find_filter_kept _ (by grind), Option.none_or]

/-- R599 to R601: the checks of a crew form that say nothing of the eights it takes. -/
def State.formable (s : State) (b : Bytes) : Prop :=
  field b 0 1 ≤ 63 ∧ s.crew (field b 0 1) = none ∧ 1 ≤ field b 1 1 ∧ field b 1 1 ≤ 64 ∧ field b 1 1 ≤ s.freeEights.length

/-- R599: a crew form with the explicit flag takes the eights of its mask. -/
theorem formCrew_explicit (hd : c.short 16 = false) (h : s.formable c.data) (he : field c.data 2 1 % 2 = 1)
    (hl : (maskEights (field c.data 8 8)).length = field c.data 1 1) (hf : ∀ e ∈ maskEights (field c.data 8 8), e ∈ s.freeEights) :
    s.formCrew c = (s.addCrew { num := field c.data 0 1, state := 0, eights := maskEights (field c.data 8 8) }).complete c .ok := by
  obtain ⟨hn, hnone, hlow, hhigh, hroom⟩ := h
  have hall : (maskEights (field c.data 8 8)).all s.freeEights.contains = true := by simpa using hf
  unfold State.formCrew
  dsimp only
  rw [if_neg (by simp [hd]), if_neg (by simp [hnone, hn]), if_neg (by simp [within, hlow, hhigh]), if_neg (by simp [hl, hall]),
    if_neg (by simp [he]), if_neg (Nat.not_lt.2 hroom), if_pos (by simp [he])]

/-- R600: a crew form by count takes the eights that the placement rule picks. -/
theorem formCrew_byCount (hd : c.short 16 = false) (h : s.formable c.data) (he : field c.data 2 1 % 2 = 0) (h0 : field c.data 8 8 = 0) :
    s.formCrew c = (s.addCrew { num := field c.data 0 1, state := 0, eights := ascending 64 (s.pickEights (field c.data 1 1) []) }).complete
      c .ok := by
  obtain ⟨hn, hnone, hlow, hhigh, hroom⟩ := h
  unfold State.formCrew
  dsimp only
  rw [if_neg (by simp [hd]), if_neg (by simp [hnone, hn]), if_neg (by simp [within, hlow, hhigh]), if_neg (by simp [he]),
    if_neg (by simp [h0]), if_neg (Nat.not_lt.2 hroom), if_neg (by simp [he])]

/-- R602: an EMPTY crew without a sink is dissolved. -/
theorem dissolveCrew_empty (hk : s.crew c.fval = some k) (h0 : k.state = 0) (hs : ∀ x ∈ s.sinks, x.crew ≠ c.fval) :
    s.dissolveCrew c = ({ s with crews := s.crews.filter fun x => x.num != c.fval } : State).complete c .ok := by
  have hnone : (s.sinks.any fun x => x.crew == c.fval) = false := by simpa using hs
  unfold State.dissolveCrew
  dsimp only
  rw [hk]
  exact if_neg (by simp [h0, hnone])

/-- R611: an EMPTY crew of a device in a domain joins a domain job. -/
theorem joinCrew_empty (hk : s.crew (c.fval % 256) = some k) (h0 : k.state = 0) (hj : c.fval / 256 % 256 ≤ 63) (hr : s.domain.role ≠ 0) :
    s.joinCrew c = (s.modCrew (c.fval % 256) fun x => { x with domainJob := some (c.fval / 256 % 256) }).complete c .ok := by
  unfold State.joinCrew
  dsimp only
  rw [hk]
  dsimp only
  rw [if_neg (by simp [h0]), if_neg (Nat.not_lt.2 hj), if_neg (by simpa using hr)]

end Crews

/-- Settles O23. -/
theorem crewCommands : Obligations.CrewCommands := by
  refine ⟨?form, fun s k => ⟨addCrew_crew_self s k, fun n hn => addCrew_crew_other hn⟩, ?dissolve, ?join⟩
  case form =>
    intro s q i c hq hc hd n m hn hnone hlow hhigh hroom
    have hform : s.formable c.data := ⟨hn, hnone, hlow, hhigh, hroom⟩
    exact ⟨fun he hl hf => atCmd_settled (fun c s => s.formCrew c) hc (formCrew_explicit hd hform he hl hf) hq,
      fun he h0 => atCmd_settled (fun c s => s.formCrew c) hc (formCrew_byCount hd hform he h0) hq⟩
  case dissolve =>
    intro s q i c k hq hc hk h0 hs
    exact atCmd_settled (fun c s => s.dissolveCrew c) hc (dissolveCrew_empty hk h0 hs) hq
  case join =>
    intro s q i c k hq hc hk h0 hj hr
    exact atCmd_settled (fun c s => s.joinCrew c) hc (joinCrew_empty hk h0 hj hr) hq

/-! ### Job commands out of sequence -/

/-- Settles O24: each is turned away by the states that its own form names. -/
theorem jobCommandsOutOfSequence : Obligations.JobCommandsOutOfSequence := by
  intro s q i c k hq ht hk t
  have hbad : ∀ {l : List Nat} {f : Crew → State}, k.state ∉ l → s.jobCmd c l f = s.complete c (.sequence (some c.crew)) :=
    fun hl => jobCmd_bad ht hk hl
  refine ⟨fun hc h => ?load, fun hc h => ?opens, fun hc h2 h3 h4 => ?request, fun hc h2 h3 => ?suspend, fun hc h => ?resume, fun hc h => ?close⟩
  case load => exact atCmd_settled (fun c s => s.loadCmd c) hc (hbad (by simpa using h)) hq
  case opens => exact atCmd_settled (fun c s => s.openCmd c) hc (hbad (by simpa using h)) hq
  case request => exact atCmd_settled (fun c s => s.requestCmd c) hc (hbad (by simp [h2, h3, h4])) hq
  case suspend => exact atCmd_settled (fun c s => s.suspendCmd c) hc (hbad (by simp [h2, h3])) hq
  case resume => exact atCmd_settled (fun c s => s.resumeCmd c) hc (hbad (by simpa using h)) hq
  case close => exact atCmd_settled (fun c s => s.closeCmd c) hc (hbad (by simp [h])) hq

/-! ### REQUEST BATCHES -/

section Requests
variable {s : State} {c : Cmd} {k : Crew} {j : Job}

/-- The rank found by a number has that number. -/
theorem rank_rank {x : RankJob} {n : Nat} (h : j.rank n = some x) : x.rank = n := by
  simpa using List.find?_some h

/-- R569: what granting the batches asked for changes before any is answered. -/
def State.grantBatches (s : State) (c : Cmd) (k : Crew) (j : Job) (x : RankJob) : State :=
  let stamps := if j.mode = 2 then (List.range c.reqCount).map fun i => (x.granted + i, s.uptime) else []
  let w := s.modJob c.crew fun j => j.modRank c.reqRank fun r => { r with granted := x.granted + c.reqCount, grantedAt := r.grantedAt ++ stamps }
  let u := w.modCmd c.qid c.cid fun y => { y with wait := .batches, first := x.granted }
  if k.state = 2 then u.modCrew c.crew fun y => { y with state := 3 } else u

variable (ht : s.jobTurn c = true) (hk : s.crew c.crew = some k) (hs : k.state = 2 ∨ k.state = 3 ∨ k.state = 4) (hj : k.job = some j)
include ht hk hs hj

theorem requestCmd_granted {x : RankJob} (hx : j.rank c.reqRank = some x)
    (hl : (s.host.cmds.filter fun y => y.grantsRank c.crew c.reqRank).length < 16) :
    s.requestCmd c = ((s.grantBatches c k j x).answerGrants c.crew c.reqRank).checkDrained c.crew := by
  unfold State.requestCmd
  rw [jobCmd_turn ht hk (by simpa using hs), hj]
  dsimp only
  rw [hx]
  dsimp only
  rw [crew_num hk, rank_rank hx, if_neg (by omega)]
  simp only [beq_iff_eq]
  rfl

theorem requestCmd_full {x : RankJob} (hx : j.rank c.reqRank = some x)
    (hl : 16 ≤ (s.host.cmds.filter fun y => y.grantsRank c.crew c.reqRank).length) : s.requestCmd c = s.complete c .quota := by
  unfold State.requestCmd
  rw [jobCmd_turn ht hk (by simpa using hs), hj]
  dsimp only
  rw [hx]
  dsimp only
  rw [crew_num hk, if_pos hl]

theorem requestCmd_noRank (hx : j.rank c.reqRank = none) : s.requestCmd c = s.complete c { status := 0x02, res0 := 20 } := by
  unfold State.requestCmd
  rw [jobCmd_turn ht hk (by simpa using hs), hj]
  dsimp only
  rw [hx]
  rfl

end Requests

/-- Settles O26. -/
theorem batchesRequested : Obligations.BatchesRequested := by
  refine ⟨?rank, ?absent⟩
  case rank =>
    intro s q i c k j x hc ht hk hs hj hx held stamps w u v
    obtain ⟨rfl, rfl, -⟩ := readyCmd_cmd hc
    exact ⟨fun hl => atCmd_effect (fun c s => s.requestCmd c) hc (requestCmd_granted ht hk hs hj hx hl),
      fun hl => atCmd_effect (fun c s => s.requestCmd c) hc (requestCmd_full ht hk hs hj hx hl)⟩
  case absent =>
    intro s q i c k j hq hc ht hk hs hj hx
    exact atCmd_settled (fun c s => s.requestCmd c) hc (requestCmd_noRank ht hk hs hj hx) hq

/-! ### SUSPEND and RESUME -/

section Suspend
variable {s : State} {c : Cmd} {k : Crew} {j : Job} {n : Nat} {r : Run}

/-- R571: SUSPEND with room for its tokens stops the crew and waits. -/
theorem suspendCmd_stops (ht : s.jobTurn c = true) (hk : s.crew c.crew = some k) (hs : k.state = 2 ∨ k.state = 3) (hj : k.job = some j)
    (hl : 64 * j.ranks.length ≤ c.dlen) :
    s.suspendCmd c = (s.modCrew c.crew fun y => { y with
      state := 4, job := y.job.map fun j => { j with stopped := true } }).modCmd c.qid c.cid fun x => { x with wait := .drain } := by
  have hfits : c.tokensShort j = false := decide_eq_false (Nat.not_lt.2 hl)
  unfold State.suspendCmd
  rw [jobCmd_turn ht hk (by simpa using hs), hj]
  dsimp only
  rw [hfits, if_neg Bool.false_ne_true, crew_num hk]

/-- R571: RESUME of a suspended crew deals and sends again. -/
theorem resumeCmd_resumes (ht : s.jobTurn c = true) (hk : s.crew c.crew = some k) (hs : k.state = 4) :
    s.resumeCmd c = (((s.modCrew c.crew fun y => { y with
      state := 3, job := y.job.map fun j => { j with stopped := false } }).complete c .ok).checkDrained c.crew) := by
  unfold State.resumeCmd
  rw [jobCmd_turn ht hk (by simpa using hs), crew_num hk]

theorem drainedCmd_done {o : Nat} (hc : (s.host.cmds.find? fun c => c.opc == o && c.crew == n && c.wait == .drain) = some c)
    (hr : s.run n = some r) (hd : r.job.sending = false) : s.drainedCmd n o = some (c, r) := by
  unfold State.drainedCmd
  rw [hc, hr]
  exact if_neg (by simp [hd])

/-- R571: while a transmission of the crew is under way, no command that waits for its end is done. -/
theorem drainedCmd_sending (o : Nat) (hr : s.run n = some r) (hd : r.job.sending = true) : s.drainedCmd n o = none := by
  unfold State.drainedCmd
  rw [hr]
  split
  next h =>
    cases h
    exact if_pos hd
  next => rfl

end Suspend

/-- Settles O27. -/
theorem suspendAndResume : Obligations.SuspendAndResume := by
  refine ⟨?suspend, ?drained, ?sending, ?resume⟩
  case suspend =>
    intro s q i c k j hq hc ht hk hs hj hl
    obtain ⟨rfl, rfl, -⟩ := readyCmd_cmd hc
    exact atCmd_settled (fun c s => s.suspendCmd c) hc (suspendCmd_stops ht hk hs hj hl) hq
  case drained =>
    intro s n c r hq hc hr hd
    show Host.Outcome.next (s.suspendDrained n).settle = _
    unfold State.suspendDrained
    rw [drainedCmd_done hc hr hd]
    exact congrArg _ (settle_quiet hq)
  case sending =>
    intro s n r hq hr hd
    have hs : s.suspendDrained n = s := by unfold State.suspendDrained; rw [drainedCmd_sending 0x23 hr hd]
    have hc : s.closeDrained n = s := by unfold State.closeDrained; rw [drainedCmd_sending 0x25 hr hd]
    exact ⟨congrArg Host.Outcome.next ((congrArg State.settle hs).trans (settle_quiet hq)),
      congrArg Host.Outcome.next ((congrArg State.settle hc).trans (settle_quiet hq))⟩
  case resume =>
    intro s q i c k hc ht hk hs
    exact atCmd_effect (fun c s => s.resumeCmd c) hc (resumeCmd_resumes ht hk hs)

/-! ### RESET CREW -/

/-- The LOAD RECIPE of crew 5, waiting for its set tables, as command 1 of queue pair 1. -/
def loadingOfFive : Cmd := { qid := 1, cid := 1, order := 0, capsule := [0x20, 0, 0, 0, 5], plist := [], wait := .tables }

/-- A SUSPEND of crew 0 that is command 1 of queue pair 1 too. -/
def suspendOfZero : Cmd := { qid := 1, cid := 1, order := 1, capsule := [0x23], plist := [], wait := .drain }

/-- A RESET CREW of crew 0. -/
def resetOfZero : Cmd := { qid := 1, cid := 2, order := 2, capsule := [0x26], plist := [], wait := .ready }

/-- Crew 0, and crew 5 whose set tables are being built, with two outstanding commands of one queue pair and id. -/
def twoOfOneId : State :=
  { crews := [{ num := 0, state := 0, eights := [] }, { num := 5, state := 0, eights := [], loading := some default }]
    host := { cmds := [loadingOfFive, suspendOfZero, resetOfZero] } }

/-- Refutes O28: where two outstanding commands share a queue pair and id, the reset of crew 0 ends its SUSPEND and undoes the LOAD RECIPE
that the shared id finds first, so that crew 5 does not stay as it was. -/
theorem not_closeAndReset : ¬ Obligations.CloseAndReset := by
  rintro ⟨-, -, -, hreset⟩
  obtain ⟨-, -, hothers, -⟩ := hreset twoOfOneId 1 2 resetOfZero { num := 0, state := 0, eights := [] } rfl rfl
  have hundone : ((twoOfOneId.resetCrew 0).crew 5).map (fun k => k.loading.isSome) = some false := rfl
  have hstays : ((twoOfOneId.resetCrew 0).crew 5).map (fun k => k.loading.isSome) = some true :=
    congrArg (Option.map fun k => k.loading.isSome) (hothers 5 (by decide))
  exact absurd (hundone.symm.trans hstays) (by decide)

end Sys2Proof.Machine
end


section
/-!
PROOFS. The fault collector (R631 to R640, R649 to R656): what the queue does with a repeated message, the sending windows, the
scores, and the statements O46, O47 and O48 from that.
-/
namespace Sys2Proof.Machine

/-! ### The queue -/

/-- A message and an entry are of one fault when unit, SUB and kind agree. -/
theorem same_iff (e : FaultEntry) (m : FaultMsg) : e.same m = true ↔ e.msg.unit = m.unit ∧ e.msg.sub = m.sub ∧ e.msg.kind = m.kind := by
  simp [FaultEntry.same, and_assoc]

/-- R635: the message joins the last entry of its fault. -/
theorem joinEntry_last (m : FaultMsg) (us : Nat) (a b : List FaultEntry) (e : FaultEntry) (he : e.same m = true)
    (hb : (b.any fun x => x.same m) = false) : joinEntry m us (a ++ e :: b) = a ++ e.coalesce m us :: b := by
  induction a with
  | nil => simp [joinEntry, he, hb]
  | cons x a ih => simp [joinEntry, he, ih]

@[simp] theorem enqueue_transit (f : Faults) (m : FaultMsg) (us : Nat) (b : Bool) : (f.enqueue m us b).transit = f.transit := by
  unfold Faults.enqueue
  split
  · rfl
  · split <;> rfl

@[simp] theorem enqueue_scores (f : Faults) (m : FaultMsg) (us : Nat) (b : Bool) : (f.enqueue m us b).scores = f.scores := by
  unfold Faults.enqueue
  split
  · rfl
  · split <;> rfl

/-- A queue of 4,096 entries without the message's fault gives up its newest entry for it. -/
theorem enqueue_full (f : Faults) (m : FaultMsg) (us : Nat) (fresh : Bool) (a : List FaultEntry) (e : FaultEntry)
    (hq : f.queue = a ++ [e]) (hl : a.length = 4095)
    (hn : fresh = false → ∀ x ∈ f.queue, ¬(x.msg.unit = m.unit ∧ x.msg.sub = m.sub ∧ x.msg.kind = m.kind)) :
    f.enqueue m us fresh =
      { f with queue := a ++ [{ msg := m, first := us, last := us, total := m.count }], lost := (f.lost + e.total) % 4294967296 } := by
  have hno : (!fresh && f.queue.any fun x => x.same m) = false := by
    cases fresh with
    | true => rfl
    | false => simpa [← same_iff] using hn rfl
  have hfull : ¬f.queue.length < 4096 := by simp [hq, hl]
  unfold Faults.enqueue
  rw [if_neg (by simp [hno]), if_neg hfull]
  simp [hq, FaultMsg.entry]

/-! ### Sending windows (R633) -/

/-- Is a message of the unit, SUB, kind and physical unit a window is kept for? -/
def ofWindow (u b k p : Nat) (m : FaultMsg) : Bool := m.unit == u && m.sub == b && m.kind == k && m.phys == p

/-- An occurrence's message belongs to its own window. -/
theorem message_ofWindow (s : State) (r : Raise) (n : Nat) : ofWindow r.unit r.sub r.kind (r.phys.getD r.unit) (s.message r n) = true := by
  simp [ofWindow, State.message]

/-- The first occurrence leaves at once and opens its window. -/
theorem raise_first {s : State} {r : Raise} (h : s.faults.windows.find? (ofWindow r.unit r.sub r.kind (r.phys.getD r.unit)) = none) :
    s.raise r = { s with
      faults := { s.faults with transit := s.faults.transit ++ [s.message r 1], windows := s.faults.windows ++ [s.message r 0] } } := by
  unfold ofWindow at h
  unfold State.raise
  dsimp only
  rw [h]

/-- A further occurrence is counted in its window. -/
theorem raise_again {s : State} {r : Raise} {w : FaultMsg}
    (h : s.faults.windows.find? (ofWindow r.unit r.sub r.kind (r.phys.getD r.unit)) = some w) :
    let count (_ : FaultMsg) : FaultMsg := s.message r (min 65535 (w.count + 1))
    s.raise r = { s with
      faults := { s.faults with windows := updWhere (ofWindow r.unit r.sub r.kind (r.phys.getD r.unit)) count s.faults.windows } } := by
  unfold ofWindow at *
  unfold State.raise
  dsimp only
  rw [h]

/-- Replacing the elements of a kind by one of that kind leaves the others as members. -/
theorem mem_updWhere_other {α} (p : α → Bool) (f : α → α) (l : List α) (hf : ∀ a, p (f a) = true) {x : α} (hx : p x = false) :
    x ∈ updWhere p f l ↔ x ∈ l := by
  have hne : ∀ a, f a ≠ x := fun a e => by simpa [e, hx] using hf a
  unfold updWhere
  rw [List.mem_map]
  constructor
  · rintro ⟨a, ha, hax⟩
    cases hp : p a with
    | true => rw [if_pos hp] at hax; exact absurd hax (hne a)
    | false => rw [if_neg (by simp [hp])] at hax; exact hax ▸ ha
  · intro hm
    exact ⟨x, hm, if_neg (by simp [hx])⟩

/-- A window that is open is closed at its end, and what it counted leaves. -/
theorem flushWindow_open {s : State} {u b k p : Nat} {w : FaultMsg}
    (h : s.faults.windows.find? (ofWindow u b k p) = some w) :
    let more := if w.count = 0 then [] else [{ w with sev := s.num (0x6100 + unitClass u) k }]
    s.flushWindow u b k p = { s with
      faults := { s.faults with windows := s.faults.windows.filter fun m => !ofWindow u b k p m, transit := s.faults.transit ++ more } } := by
  unfold ofWindow at *
  unfold State.flushWindow
  dsimp only
  rw [h]
  simp [State.severity]

/-! ### Scores -/

/-- A score that does not cross 512 is entered, and asks for nothing. -/
theorem score_calm {s : State} {m : FaultMsg}
    (h : scoreAfter (s.faults.score m.ref) m.kind m.count < 512 ∨ 512 ≤ s.faults.score m.ref) :
    s.score m = { s with faults := s.faults.setScore m.ref (scoreAfter (s.faults.score m.ref) m.kind m.count) } := by
  unfold State.score
  dsimp only
  rw [if_neg (by simp; omega)]

/-- A message of severity 0 or 1 asks for no reaction. -/
theorem react_note {s : State} {m : FaultMsg} (h : m.sev < 2) (b : Bool) : s.react m b = s := by
  have h2 : decide (2 ≤ m.sev) = false := decide_eq_false (by omega)
  unfold State.react
  simp only [h2, Bool.false_and, Bool.false_eq_true, if_false]
  rw [if_neg (show ¬4 ≤ m.sev by omega), if_neg (by simp; omega)]

/-- A unit's score is the one set last. -/
theorem setScore_score (f : Faults) (u : UnitRef) (n : Nat) : (f.setScore u n).score u = n := by
  have hrest : ((f.scores.filter fun p => p.1 != u).find? fun p => p.1 == u) = none := by simp
  unfold Faults.score Faults.setScore
  dsimp only
  by_cases hn : n = 0
  · simp [hn, hrest]
  · simp [hn, hrest, List.find?_append]

/-- A change that leaves the ports as they are, and sends no fault, is all that happens. -/
theorem reactedTo_calm {s : State} {f : State → State} (hup : ∀ n, (f s).portUp n 1 = s.portUp n 1) (hq : (f s).quiet) :
    s.reactedTo f = f s := by
  unfold State.reactedTo
  simp [settle_quiet hq, hup]

/-- R649: halving gives half of every score, and lists no 0. -/
theorem mem_halved (l : List (UnitRef × Nat)) (u : UnitRef) (n : Nat) :
    (u, n) ∈ halved l ↔ n ≠ 0 ∧ ∃ k, (u, k) ∈ l ∧ n = k / 2 := by
  simp only [halved, List.mem_filter, List.mem_map, Prod.mk.injEq, Prod.exists, bne_iff_ne]
  constructor
  · rintro ⟨⟨v, k, hk, rfl, rfl⟩, hn⟩
    exact ⟨hn, k, hk, rfl⟩
  · rintro ⟨hn, k, hk, rfl⟩
    exact ⟨⟨u, k, hk, rfl, rfl⟩, hn⟩

/-- A message of severity 0 or 1 that does not cross 512 is queued and scored. -/
theorem faultMessage_note (s : State) (f : FaultIn) (b : Bool) (hq : s.quiet) (hc : s.coxUp = true) (hs : (s.incoming f).sev < 2) :
    let m := s.incoming f
    let n := scoreAfter (s.faults.score m.ref) m.kind m.count
    (n < 512 ∨ 512 ≤ s.faults.score m.ref) →
    exec (.faultMessage f b) s = .next { s with faults := (s.faults.enqueue m s.us b).setScore m.ref n } := by
  intro m n hn
  have hscore : (s.faults.enqueue m s.us b).score m.ref = s.faults.score m.ref := by
    unfold Faults.score; rw [enqueue_scores]
  have htake : s.faultIn f b = { s with faults := (s.faults.enqueue m s.us b).setScore m.ref n } := by
    unfold State.faultIn State.take
    rw [if_pos hc, react_note hs, score_calm (by simpa only [hscore, m, n] using hn)]
    simp only [hscore, m, n]
  show Host.Outcome.next (s.reactedTo fun s => s.faultIn f b) = _
  rw [reactedTo_calm (by simp only [htake]; exact fun _ => rfl)]
  · simp only [htake]
  · simpa only [State.quiet, htake, Faults.setScore, enqueue_transit] using hq

/-! ### The obligations -/

/-- Settles O46: by the queue's two cases, an entry of the same fault (the last one is joined) and a full queue without one. -/
theorem repeatedFaultsCoalesce : Obligations.RepeatedFaultsCoalesce := by
  unfold Obligations.RepeatedFaultsCoalesce
  refine ⟨?_, enqueue_full, ?_⟩
  · intro f m us a b e hq hb hu hs hk
    have he : e.same m = true := (same_iff e m).2 ⟨hu, hs, hk⟩
    have hb' : (b.any fun x => x.same m) = false := by simpa [← same_iff] using hb
    unfold Faults.enqueue
    rw [if_pos (by simp [hq, he]), hq, joinEntry_last m us a b e he hb']
    rfl
  · intro s f fresh hc
    show Host.Outcome.next (s.reactedTo fun s => s.faultIn f fresh) = _
    unfold State.reactedTo State.faultIn State.take
    simp only [hc, if_true]

/-- Settles O47: a note by its score that does not cross 512, the windows and the halving by what is left in each list. -/
theorem faultsScoredAndTimed : Obligations.FaultsScoredAndTimed := by
  unfold Obligations.FaultsScoredAndTimed
  refine ⟨?_, ?_, ?_, ?_, ?_, ?_, ?_⟩
  · intro s f b hq hc hs m n hn
    exact ⟨faultMessage_note s f b hq hc hs hn, fun k c hk => by simp [scoreAfter, hk], setScore_score _ _ _⟩
  · rintro s unit sub kind phys w hw rfl rfl rfl rfl hn sent
    show Host.Outcome.next (s.reactedTo fun s => s.flushWindow w.unit w.sub w.kind w.phys) = _
    have hf := flushWindow_open (s := s) (u := w.unit) (b := w.sub) (k := w.kind) (p := w.phys) (w := w) (by simp [hw, ofWindow])
    unfold State.reactedTo
    simp only [hf, hw, hn, if_false, List.filter_cons, beq_self_eq_true, Bool.and_self, Bool.not_true, Bool.false_eq_true,
      List.filter_nil, ofWindow, sent]
  · intro s hq hc
    refine ⟨s.halveScores, halved s.faults.scores, s.halveScores.faults.probation, ?_, ?_, mem_halved _, ?_⟩
    · show Host.Outcome.next s.halveScores.settle = _
      rw [settle_quiet (by unfold State.halveScores; simpa [hc, State.quiet, Faults.save] using hq)]
    · simp [State.halveScores, hc, Faults.save]
    · intro u
      simp only [State.halveScores, hc, Faults.save, Bool.not_true, Bool.false_eq_true, if_false, List.mem_filter]
      exact and_congr_right fun _ => decide_eq_true_iff
  · intro s c hq
    refine ⟨(s.fenceWindowEnds c).faults.fenceTimes, ?_, ?_⟩
    · exact congrArg Host.Outcome.next (settle_quiet (s := s.fenceWindowEnds c) hq)
    · intro f
      simp [State.fenceWindowEnds, reportWindow, imp_iff_not_or]
  · intro s hq
    refine ⟨s.commonCauseEnds.faults.crossings, ?_, ?_⟩
    · exact congrArg Host.Outcome.next (settle_quiet (s := s.commonCauseEnds) hq)
    · intro x
      simp [State.commonCauseEnds]
  · rintro s hq ⟨e, he, hs⟩ q
    show Host.Outcome.next s.faultInterrupt.settle = _
    unfold State.faultInterrupt
    rw [if_pos (List.any_eq_true.2 ⟨e, he, by simp [hs]⟩), settle_quiet (by simpa [State.quiet] using hq)]
  · intro s hq hs
    show Host.Outcome.next s.faultInterrupt.settle = _
    unfold State.faultInterrupt
    rw [if_neg (by simpa using hs), settle_quiet hq]

/-- Settles O48: a window is either open or not when a fault is raised, and when its millisecond ends. -/
theorem faultsSentOnceAMillisecond : Obligations.FaultsSentOnceAMillisecond := by
  unfold Obligations.FaultsSentOnceAMillisecond
  refine ⟨?_, ?_, ?_, ?_, ?_⟩
  · intro s r h
    have hnone : s.faults.windows.find? (ofWindow r.unit r.sub r.kind (r.phys.getD r.unit)) = none :=
      List.find?_eq_none.2 fun m hm => by simpa [ofWindow] using h m hm
    rw [raise_first hnone]
    simp
  · intro s r w h
    rw [raise_again (w := w) h]
    refine ⟨rfl, List.length_map _, ?_, ?_⟩
    · exact find_updWhere _ _ _ w (fun _ _ => message_ofWindow s r _) h
    · intro m hm
      exact mem_updWhere_other _ _ _ (fun _ => message_ofWindow s r _) hm
  · intro s r n
    exact ⟨message_ofWindow s r n, rfl, rfl, rfl⟩
  · intro s u b k p w h
    refine ⟨s.flushWindow u b k p, rfl, ?_, ?_⟩
    · intro m
      rw [flushWindow_open h]
      simp only [List.mem_filter, Bool.not_eq_true']
      rfl
    · rw [flushWindow_open h]
  · intro s u b k p h
    have hf : s.flushWindow u b k p = s := by
      unfold State.flushWindow
      dsimp only
      rw [h]
    show Host.Outcome.next (s.reactedTo fun s => s.flushWindow u b k p) = _
    unfold State.reactedTo
    simp only [hf]

end Sys2Proof.Machine
end


section
/-!
PROOFS. Dictionary READs and refusals (R663 to R667, R671, R673, R677): the answer of each check that turns a request away, and the
statements O50 and O51 from that.
-/
namespace Sys2Proof.Machine

/-! ### Requests before their row's effect -/

/-- A quiet state stays quiet as PS1 is left. -/
theorem leavePs1_quiet {s : State} (h : s.quiet) : s.leavePs1.quiet := (congrArg Faults.transit (leavePs1_faults s)).trans h

/-- What does not look at the power state is as it was when PS1 is left. -/
theorem leavePs1_same {α : Type} (s : State) (f : State → α) (hf : ∀ s w, f { s with power := w } = f s) : f s.leavePs1 = f s := by
  obtain ⟨w, h⟩ := leavePs1_eq s
  rw [h, hf]

/-- A message of another MAGIC is no request. -/
theorem onRequest_foreign {s : State} {m : DictMsg} (mine : Bool) (f : State → State) (hq : s.quiet) (h : dmMagic m ≠ 0xC4A5D33B) :
    s.onRequest m mine f = .next s := by
  unfold State.onRequest
  rw [if_pos (by simp [h]), settle_quiet hq]

/-- A request of another version, or out of range, is answered Invalid field. -/
theorem onRequest_malformed {s : State} {m : DictMsg} (mine : Bool) (f : State → State) (hq : s.quiet) (hh : s.hears m = true)
    (hl : 32 ≤ m.msg.length) (hm : dmMagic m = 0xC4A5D33B) (hbad : dmVer m ≠ 1 ∨ dmRangesOk m = false) :
    s.onRequest m mine f = .next (s.leavePs1.respond m { status := 0x02 }) := by
  have hbad' : (dmVer m != 1 || !dmRangesOk m) = true := by simpa using hbad
  unfold State.onRequest
  rw [if_neg (by simp [hh, hm]; omega), if_pos hbad', respond_settle (leavePs1_quiet hq)]

/-- A request of a row has its effect, which sends no fault message. -/
theorem onRequest_mine {s : State} {m : DictMsg} {mine : Bool} {f : State → State} (ht : s.takesUp m) (hm : mine = true)
    (hq : (f s.leavePs1).quiet) : s.onRequest m mine f = .next (f s.leavePs1) := by
  rw [onRequest_takesUp ht, if_pos hm, settle_quiet hq]

/-- A request of a row that only answers it. -/
theorem onRequest_answered {s t : State} {m : DictMsg} {mine : Bool} {f : State → State} {d : DictResp} (ht : s.takesUp m)
    (hm : mine = true) (hf : f s.leavePs1 = t.respond m d) (hq : t.quiet) : s.onRequest m mine f = .next (t.respond m d) := by
  rw [onRequest_takesUp ht, if_pos hm, hf, respond_settle hq]

/-! ### Objects and rights (R667 checks 4 and 5) -/

/-- R673: without a session nothing outside the Identity range is found. -/
theorem findObject_unknown_role {m : DictMsg} {r : ObjRow} (w : Bool) (hr : dictRow (dmIdx m) (dmSub m) = some r)
    (ht : dmType m = r.ty.code ∨ (w = false ∧ dmType m = 0)) (hid : w = false → ¬(0x1000 ≤ dmIdx m ∧ dmIdx m ≤ 0x10FF)) :
    findObject m 0 w = .inl 0x31 := by
  have hty : (dmType m != r.ty.code && (w || dmType m != 0)) = false := by
    rcases ht with h | ⟨h, h0⟩
    · simp [h]
    · simp [h, h0]
  unfold findObject
  split
  · rfl
  · rw [hr]
    dsimp only
    rw [if_neg (by simp [hty])]
    have hright : rightOf (dmIdx m) 0 r = if 0x1000 ≤ dmIdx m && dmIdx m ≤ 0x10FF then .r else .no := rfl
    rw [hright]
    by_cases hrange : (0x1000 ≤ dmIdx m && dmIdx m ≤ 0x10FF) = true
    · have hw : w = true := by
        by_contra h
        exact hid (by simpa using h) (by simpa using hrange)
      simp [hrange, hw]
    · simp [hrange]

/-- R667 check 4: an object that is not known. -/
theorem findObject_unknown {m : DictMsg} (role : Nat) (w : Bool) (hr : dictRow (dmIdx m) (dmSub m) = none) (hi : dmIdx m < 0xF000) :
    findObject m role w = .inl 0x02 := by
  have hmaker : isMakerIdx (dmIdx m) = false := decide_eq_false (by omega)
  unfold findObject
  simp [hmaker, hr]

/-! ### READ -/

/-- R673: the role of a READ without a session is none. -/
theorem readRole_none {m : DictMsg} (s : State) (h : dmSid m = 0) : s.readRole m = .inr 0 := by
  unfold State.readRole
  rw [if_pos (by simp [h])]

theorem exec_dictionaryRead {s : State} {m : DictMsg} {t : State} {d : DictResp} (ht : s.takesUp m) (ho : dmOp m = 1)
    (hf : s.leavePs1.dictRead m = t.respond m d) (hq : t.quiet) : exec (.dictionaryRead m) s = .next (t.respond m d) :=
  onRequest_answered (f := fun s => s.dictRead m) ht (by simp [ho]) hf hq

/-- Settles O50: a READ that is taken up, by the type of its object. -/
theorem dictionaryReads : Obligations.DictionaryReads := by
  unfold Obligations.DictionaryReads
  intro s m role r hq ht ho hrole hr v
  refine ⟨fun hty => ⟨slice v (dmOff m) (dmLen m), ?_, ?_, ?_⟩, fun hty => ?_⟩
  · refine exec_dictionaryRead ht ho ?_ (leavePs1_quiet hq)
    unfold State.dictRead
    simp [hrole, hr, hty, v]
  · simp [slice]
  · intro i hi
    have hlen : i < dmLen m := by simp [slice] at hi; omega
    simp [slice, hlen]
  · refine exec_dictionaryRead ht ho ?_ (leavePs1_quiet hq)
    unfold State.dictRead
    simp [hrole, hr, hty, v]

/-- A READ whose object its requester may not have is answered with that status. -/
theorem exec_dictionaryRead_refused {s : State} {m : DictMsg} {st : Nat} (hq : s.quiet) (ht : s.takesUp m) (ho : dmOp m = 1)
    (hs : dmSid m = 0) (hf : findObject m 0 false = .inl st) :
    exec (.dictionaryRead m) s = .next (s.leavePs1.respond m { status := st }) := by
  refine exec_dictionaryRead ht ho ?_ (leavePs1_quiet hq)
  unfold State.dictRead
  simp only [readRole_none _ hs, hf]

/-! ### WRITE -/

/-- A WRITE of a plain object has the effect of a WRITE in a session. -/
theorem exec_dictionaryWrite {s t : State} {m : DictMsg} {d : DictResp} (ht : s.takesUp m) (ho : dmOp m = 2)
    (hown : ownRow (dmIdx m) (dmValue m) = false) (hc : s.claims m = false)
    (hf : s.leavePs1.sessionWrite m plainRule = t.respond m d) (hq : t.quiet) :
    exec (.dictionaryWrite m) s = .next (t.respond m d) :=
  onRequest_answered (f := fun s => s.sessionWrite m plainRule) ht (by simp [ho, hown, hc]) hf hq

/-- A WRITE in a session claims nothing. -/
theorem claims_sid {m : DictMsg} (s : State) (h : dmSid m ≠ 0) : s.claims m = false := by simp [State.claims, h]

/-- R677: a WRITE of a session that is not open. -/
theorem sessionWrite_closed {s : State} {m : DictMsg} (rule : WriteRule) (hs : dmSid m ≠ 0) (h : s.openSession m = none) :
    s.sessionWrite m rule = s.respond m { status := 0x32 } := by
  unfold State.sessionWrite
  rw [if_neg (by simp [hs]), h]

/-- R677: a WRITE with a wrong signature, or a SEQ that does not count on. -/
theorem sessionWrite_unsigned {s : State} {m : DictMsg} {x : Session} (rule : WriteRule) (hs : dmSid m ≠ 0)
    (h : s.openSession m = some x) (hbad : s.signatureOk m x = false) :
    s.sessionWrite m rule = s.respond m { status := 0x32 } := by
  unfold State.sessionWrite
  rw [if_neg (by simp [hs]), h]
  dsimp only
  rw [if_pos (by simp [hbad])]

/-- The state a signed WRITE is judged in: its SEQ counted. -/
def State.sequenced (s : State) (m : DictMsg) (x : Session) : State :=
  s.leavePs1.modSession x.sid fun y => { y with seq := dmSeq m, wrote := true }

/-- A signed WRITE of an object that its role may not write is answered with that status. -/
theorem sessionWrite_noRight {s : State} {m : DictMsg} {x : Session} {st : Nat} (rule : WriteRule) (h : s.signs m x)
    (hf : findObject m x.role true = .inl st) : s.leavePs1.sessionWrite m rule = (s.sequenced m x).respond m { status := st } := by
  obtain ⟨-, -, hs, hopen, hsig⟩ := h
  unfold State.sessionWrite
  rw [if_neg (by simp [hs]), leavePs1_openSession, hopen]
  dsimp only
  rw [leavePs1_signatureOk, hsig, if_neg (by decide), hf]
  exact rfl

/-- A signed WRITE of an object that its role may write goes on with its value. -/
theorem sessionWrite_takes {s : State} {m : DictMsg} {x : Session} {r : ObjRow} (rule : WriteRule) (h : s.signs m x)
    (hf : findObject m x.role true = .inr r) : s.leavePs1.sessionWrite m rule = (s.sequenced m x).takeValue m (some x)
      (fun b => { role := x.role, idx := dmIdx m, sub := dmSub m, value := b }) r rule := by
  obtain ⟨-, -, hs, hopen, hsig⟩ := h
  unfold State.sessionWrite
  rw [if_neg (by simp [hs]), leavePs1_openSession, hopen]
  dsimp only
  rw [leavePs1_signatureOk, hsig, if_neg (by decide), hf]
  exact rfl

section Signed
variable {s : State} {m : DictMsg} {x : Session} (hq : s.quiet) (h : s.signs m x) (hown : ownRow (dmIdx m) (dmValue m) = false)

include hq in
theorem sequenced_quiet : (s.sequenced m x).quiet := leavePs1_quiet hq

/-- A signed WRITE is judged with its SEQ counted in a state that writes the same ranges. -/
theorem sequenced_inRange (w : DictWrite) (r : ObjRow) : (s.sequenced m x).writeInRange w r = s.writeInRange w r := by
  unfold State.writeInRange
  rw [show (s.sequenced m x).fuses = s.fuses from leavePs1_fuses s]

include hq h hown

/-- A signed WRITE of an object that its role may not write. -/
theorem exec_dictionaryWrite_noRight {st : Nat} (hf : findObject m x.role true = .inl st) :
    exec (.dictionaryWrite m) s = .next ((s.sequenced m x).respond m { status := st }) := by
  have hanswer := sessionWrite_noRight plainRule h hf
  obtain ⟨ht, ho, hs, -⟩ := h
  exact exec_dictionaryWrite ht ho hown (claims_sid s hs) hanswer (sequenced_quiet hq)

/-- A signed WRITE of a number that is refused past its rights. -/
theorem exec_dictionaryWrite_fails {r : ObjRow} {st : Nat} {k : Option Nat} (hf : findObject m x.role true = .inr r)
    (hty : r.ty ≠ .octs) (hfail : (s.sequenced m x).writeFail (askedBy m x) r plainRule = some (st, k)) :
    exec (.dictionaryWrite m) s = .next ((s.sequenced m x).respond m { status := st, ty := r.ty.code, crew := k }) := by
  have htakes := sessionWrite_takes plainRule h hf
  obtain ⟨ht, ho, hs, -⟩ := h
  refine exec_dictionaryWrite ht ho hown (claims_sid s hs) ?_ (sequenced_quiet hq)
  rw [htakes]
  unfold State.takeValue
  rw [if_pos (by simpa using hty)]
  show (s.sequenced m x).commitWrite m (some x) (askedBy m x) r plainRule = _
  unfold State.commitWrite
  rw [hfail]

end Signed

/-- Settles O51: each check in its order, the request turned away by the first that does not hold. -/
theorem requestsRefused : Obligations.RequestsRefused := by
  unfold Obligations.RequestsRefused
  refine ⟨?_, ?_, ?_, ?_, ?_⟩
  · intro s m hq hm
    exact ⟨onRequest_foreign _ (fun s => s.sessionWrite m plainRule) hq hm, onRequest_foreign _ (fun s => s.dictRead m) hq hm⟩
  · intro s m hq hh hl hm hbad
    exact ⟨onRequest_malformed _ (fun s => s.sessionWrite m plainRule) hq hh hl hm hbad,
      onRequest_malformed _ (fun s => s.dictRead m) hq hh hl hm hbad⟩
  · intro s m hq ht ho hs hid
    refine ⟨fun r hr hty => ?_, fun hr hi => ?_⟩
    · exact exec_dictionaryRead_refused hq ht ho hs
        (findObject_unknown_role false hr (hty.imp_right fun h => ⟨rfl, h⟩) fun _ => hid)
    · exact exec_dictionaryRead_refused hq ht ho hs (findObject_unknown 0 false hr hi)
  · intro s m hq ht ho hown
    have hq' := leavePs1_quiet hq
    refine ⟨fun r hs hc hr hty => ?_, fun hs hn => ?_, fun x hs hx hbad => ?_⟩
    · refine exec_dictionaryWrite ht ho hown hc ?_ hq'
      unfold State.sessionWrite
      rw [if_pos (by simp [hs]), findObject_unknown_role true hr (.inl hty) (by simp)]
    · exact exec_dictionaryWrite ht ho hown (claims_sid s hs)
        (sessionWrite_closed plainRule hs ((leavePs1_openSession s m).trans hn)) hq'
    · refine exec_dictionaryWrite ht ho hown (claims_sid s hs)
        (sessionWrite_unsigned plainRule hs ((leavePs1_openSession s m).trans hx) ?_) hq'
      rw [leavePs1_signatureOk]
      unfold State.signatureOk
      rcases hbad with ⟨hw, hseq⟩ | hver
      · simp [hw, Nat.not_lt.2 hseq]
      · simp [hver]
  · intro s m x hq h hown u
    refine ⟨fun st hf => exec_dictionaryWrite_noRight hq h hown hf, fun r hf hty =>
      ⟨fun hr => ?_, fun hr st k hk => ?_, fun hr hk ha h2 h3 => ?_⟩⟩
    · refine exec_dictionaryWrite_fails hq h hown hf hty ?_
      unfold State.writeFail
      rw [sequenced_inRange, hr]
      rfl
    · refine exec_dictionaryWrite_fails hq h hown hf hty ?_
      unfold State.writeFail
      rw [sequenced_inRange, hr, if_neg (by decide)]
      rw [show plainRule.fail (s.sequenced m x) (askedBy m x) = some (st, k) from hk]
    · refine exec_dictionaryWrite_fails hq h hown hf hty ?_
      unfold State.writeFail
      rw [sequenced_inRange, hr, if_neg (by decide)]
      rw [show plainRule.fail (s.sequenced m x) (askedBy m x) = none from hk]
      dsimp only
      rw [if_pos]
      rw [show (s.sequenced m x).auditRefuses = true from ha]
      simp [askedBy, h2, h3]

end Sys2Proof.Machine
end


section
/-!
PROOFS. Sessions of the dictionary (R673 to R680): OPEN, PROVE, CLOSE and their timers, the claim of the device, and the statement O52
from that.
-/
namespace Sys2Proof.Machine

/-! ### What leaving PS1 and an audit entry leave alone -/

@[simp] theorem leavePs1_sessionsOn (s : State) (t : Transport) : s.leavePs1.sessionsOn t = s.sessionsOn t := by
  simp [State.sessionsOn]

@[simp] theorem leavePs1_roleKey (s : State) (role slot : Nat) : s.leavePs1.roleKey role slot = s.roleKey role slot :=
  leavePs1_same s (fun s => s.roleKey role slot) fun _ _ => rfl

@[simp] theorem leavePs1_sessionOf (s : State) (m : DictMsg) : s.leavePs1.sessionOf m = s.sessionOf m := by
  simp [State.sessionOf]

@[simp] theorem leavePs1_auditRefuses (s : State) : s.leavePs1.auditRefuses = s.auditRefuses :=
  leavePs1_same s State.auditRefuses fun _ _ => rfl

@[simp] theorem leavePs1_uptime (s : State) : s.leavePs1.uptime = s.uptime := leavePs1_same s State.uptime fun _ _ => rfl

/-- An audit entry changes the journal, its sequence number and the count of entries lost. -/
theorem audit_eq (s : State) (e : Audit) :
    ∃ j n o, s.audit e = { s with dict := { s.dict with journal := j, jseq := n, overwritten := o } } := by
  unfold State.audit
  dsimp only
  split
  · exact ⟨s.dict.journal, s.dict.jseq, _, rfl⟩
  · exact ⟨_, _, _, rfl⟩

@[simp] theorem audit_sessions (s : State) (e : Audit) : (s.audit e).dict.sessions = s.dict.sessions := by
  obtain ⟨j, n, o, h⟩ := audit_eq s e
  rw [h]

@[simp] theorem audit_fails (s : State) (e : Audit) : (s.audit e).dict.fails = s.dict.fails := by
  obtain ⟨j, n, o, h⟩ := audit_eq s e
  rw [h]

@[simp] theorem audit_lockouts (s : State) (e : Audit) : (s.audit e).dict.lockouts = s.dict.lockouts := by
  obtain ⟨j, n, o, h⟩ := audit_eq s e
  rw [h]

@[simp] theorem audit_authFailures (s : State) (e : Audit) : (s.audit e).dict.authFailures = s.dict.authFailures := by
  obtain ⟨j, n, o, h⟩ := audit_eq s e
  rw [h]

@[simp] theorem audit_uptime (s : State) (e : Audit) : (s.audit e).uptime = s.uptime := by
  obtain ⟨j, n, o, h⟩ := audit_eq s e
  rw [h]

/-- Leaving PS1 changes nothing an audit entry records. -/
theorem leavePs1_audit_journal (s : State) (e : Audit) : (s.leavePs1.audit e).dict.journal = (s.audit e).dict.journal :=
  leavePs1_same s (fun s => (s.audit e).dict.journal) fun s w => by
    unfold State.audit
    dsimp only
    show (State.dict (if e.kind == 2 && s.auditRefuses then _ else _)).journal = _
    split <;> rfl

/-- A session that is dropped is gone. -/
theorem dropSession_gone (s : State) (n : Nat) : ∀ y ∈ (s.dropSession n).dict.sessions, y.sid ≠ n := by
  intro y hy
  have := (List.mem_filter.1 (show y ∈ s.dict.sessions.filter fun x => x.sid != n from hy)).2
  simpa using this

/-! ### OPEN -/

theorem exec_dictionaryOpen {s t : State} {m : DictMsg} {d : DictResp} (ht : s.takesUp m) (ho : dmOp m = 3)
    (hf : s.leavePs1.dictOpen m = t.respond m d) (hq : t.quiet) : exec (.dictionaryOpen m) s = .next (t.respond m d) :=
  onRequest_answered (f := fun s => s.dictOpen m) ht (by simp [ho]) hf hq

/-- R675: a free session id is never 0. -/
theorem freshSid_ne_zero (s : State) : s.freshSid ≠ 0 := by
  unfold State.freshSid
  dsimp only
  omega

/-- A session offered by OPEN (R675). -/
def State.offer (s : State) (m : DictMsg) : Session :=
  { sid := s.freshSid, t := m.transport, addr := m.addr, role := field (dmValue m) 0 1, slot := field (dmValue m) 1 1,
    nonce := s.useFree.freeBytes 48, isOpen := false }

section Open
variable {s : State} {m : DictMsg} (hs : dmSid m = 0)
include hs

/-- R679: under a lockout no session is offered. -/
theorem dictOpen_locked (h : m.transport ∈ s.dict.lockouts) : s.dictOpen m = s.respond m { status := 0x31 } := by
  unfold State.dictOpen
  simp [hs, h]

variable (hl : m.transport ∉ s.dict.lockouts) (hv : (dmValue m).length = 4)
  (hslot : slotOk (field (dmValue m) 0 1) (field (dmValue m) 1 1) = true)
include hl

/-- R675: an empty key slot offers none. -/
theorem dictOpen_noKey (hk : s.roleKey (field (dmValue m) 0 1) (field (dmValue m) 1 1) = []) :
    s.dictOpen m = s.respond m { status := 0x02 } := by
  unfold State.dictOpen
  simp [hs, hl, hk]

variable (hk : s.roleKey (field (dmValue m) 0 1) (field (dmValue m) 1 1) ≠ [])
include hv hslot hk

/-- R679: a fifth session is not offered. -/
theorem dictOpen_full (hn : 4 ≤ s.sessionsOn m.transport) : s.dictOpen m = s.respond m { status := 0x04 } := by
  unfold State.dictOpen
  simp [hs, hl, hv, hslot, hk, hn]

/-- R675: a session is offered. -/
theorem dictOpen_offers (hn : s.sessionsOn m.transport < 4) :
    s.dictOpen m = ((s.useFree.useFree 48).modSessions fun l => l ++ [s.offer m]).respond m
      { status := 0x00, value := leBytes 4 (s.offer m).sid ++ (s.offer m).nonce } := by
  unfold State.dictOpen
  dsimp only
  rw [if_neg (by simp [hs]), if_neg (by simpa using hl), if_neg (by simp [hv, hslot, hk]), if_neg (by omega)]
  rfl

end Open

/-! ### PROVE -/

theorem exec_dictionaryProve {s t : State} {m : DictMsg} {d : DictResp} (ht : s.takesUp m) (ho : dmOp m = 4)
    (hf : s.leavePs1.dictProve m = t.respond m d) (hq : t.quiet) : exec (.dictionaryProve m) s = .next (t.respond m d) :=
  onRequest_answered (f := fun s => s.dictProve m) ht (by simp [ho]) hf hq

/-- The audit entry of a PROVE. -/
def State.proveEntry (s : State) (m : DictMsg) (x : Session) (kind : Nat) : Audit :=
  { s.auditOf x kind (transportCode m.transport) with time := dmTime m }

section Prove
variable {s : State} {m : DictMsg} {x : Session} (hx : s.sessionOf m = some x) (hopen : x.isOpen = false)
include hx hopen

/-- R676: a good signature opens the session offered. -/
theorem dictProve_good (ha : s.auditRefuses = false) (hl : (dmValue m).length = 96)
    (hg : ecdsaVerify (s.roleKey x.role x.slot) (sha384 (s.proveText x)) (dmValue m) = true) :
    s.dictProve m = ((s.audit (s.proveEntry m x 1)).modSession x.sid fun y => { y with isOpen := true }).respond m
      { status := 0x00, jseq := s.dict.jseq } := by
  unfold State.dictProve
  rw [hx, Option.filter_some_pos (by simp [hopen])]
  dsimp only
  rw [if_pos (by simp [hl, hg]), if_neg (by simp [ha])]
  rfl

/-- R676, R679: a bad one drops it. -/
theorem dictProve_bad (hb : ¬((dmValue m).length = 96 ∧ ecdsaVerify (s.roleKey x.role x.slot) (sha384 (s.proveText x)) (dmValue m) = true)) :
    s.dictProve m = ((s.proveFailed m (some x)).dropSession x.sid).respond m { status := 0x32 } := by
  unfold State.dictProve
  rw [hx, Option.filter_some_pos (by simp [hopen])]
  dsimp only
  rw [if_neg (by simpa using hb)]

end Prove

section Failed
variable (s : State) (m : DictMsg) (x : Session)

theorem proveFailed_faults : (s.proveFailed m (some x)).faults = s.faults := audit_faults s _

theorem proveFailed_authFailures : (s.proveFailed m (some x)).dict.authFailures = (s.dict.authFailures + 1) % 4294967296 := by
  show ((s.audit _).dict.authFailures + 1) % 4294967296 = _
  rw [audit_authFailures]

theorem proveFailed_journal : (s.proveFailed m (some x)).dict.journal = (s.audit (s.proveEntry m x 2)).dict.journal := rfl

/-- A failed PROVE is counted with its time. -/
theorem proveFailed_fails : (m.transport, s.uptime) ∈ (s.proveFailed m (some x)).dict.fails := by
  refine List.mem_cons.2 (.inl ?_)
  rw [audit_uptime]

/-- R679: the failures of the last 60 s, with the one of now. -/
def State.failsNow (s : State) (m : DictMsg) : List (Transport × Nat) :=
  (m.transport, s.uptime) :: s.dict.fails.filter fun f => s.since f.2 < 60000000

theorem failsNow_count : ((s.failsNow m).filter fun f => f.1 == m.transport).length =
    (s.dict.fails.filter fun f => f.1 == m.transport && s.since f.2 < 60000000).length + 1 := by
  unfold State.failsNow
  rw [List.filter_cons_of_pos (by simp), List.filter_filter]
  rfl

theorem proveFailed_lockouts : (s.proveFailed m (some x)).dict.lockouts =
    if 5 ≤ ((s.failsNow m).filter fun f => f.1 == m.transport).length && !s.dict.lockouts.contains m.transport then
      s.dict.lockouts ++ [m.transport] else s.dict.lockouts := by
  obtain ⟨j, n, o, h⟩ := audit_eq s (s.proveEntry m x 2)
  unfold State.proveFailed
  dsimp only
  rw [show { s.auditOf x 2 (transportCode m.transport) with time := dmTime m } = s.proveEntry m x 2 from rfl, h]
  rfl

/-- R679: the fifth failure within 60 s locks the transport out. -/
theorem proveFailed_lockout (h : 4 ≤ (s.dict.fails.filter fun f => f.1 == m.transport && s.since f.2 < 60000000).length) :
    m.transport ∈ (s.proveFailed m (some x)).dict.lockouts := by
  rw [proveFailed_lockouts, failsNow_count]
  by_cases hl : m.transport ∈ s.dict.lockouts
  · simp [hl]
  · rw [if_pos (by simpa [hl] using h)]
    simp

end Failed

/-! ### The claim of the device -/

/-- R673: a WRITE that claims the device names its first InstallerKey, without a session. -/
theorem claims_key {s : State} {m : DictMsg} (h : s.claims m = true) : dmIdx m = 0x1201 ∧ dmSub m = 1 := by
  simp only [State.claims, Bool.and_eq_true, beq_iff_eq] at h
  obtain ⟨⟨⟨-, hi⟩, hsub⟩, -⟩ := h
  exact ⟨hi, hsub⟩

/-- The audit entry of a claim. -/
def State.claimEntry (s : State) (m : DictMsg) (r : ObjRow) : Audit :=
  { kind := 0, transport := transportCode m.transport, idx := dmIdx m, sub := dmSub m, ty := r.ty.code,
    old := s.dictValue (dmIdx m) (dmSub m) r, new := dmValue m, time := dmTime m }

/-- R673, R680: a key of the right form claims the device. -/
theorem claimWrite_stores {s : State} {m : DictMsg} (hc : s.claims m = true) (hty : dmType m = ObjType.octs.code) (hoff : dmOff m = 0)
    (hlast : dmLast m = true) (hlen : (dmValue m).length = 97) (hhead : (dmValue m).headD 0 = 0x04) (ha : s.auditRefuses = false) :
    let r : ObjRow := ⟨0x1201, 0x1201, 0x01, 0x04, .octs, .r, .rw, .rw⟩
    s.claimWrite m { act := putOcts } =
      (({ s with dict := s.dict.put 0x1201 1 (.bytes (dmValue m)) } : State).audit (s.claimEntry m r)).respond m
        { status := 0x00, ty := ObjType.octs.code, jseq := s.dict.jseq } := by
  intro r
  obtain ⟨hi, hsub⟩ := claims_key hc
  have hrow : dictRow (dmIdx m) (dmSub m) = some r := by
    rw [hi, hsub]
    decide
  have hrange : s.writeInRange { role := 0, idx := dmIdx m, sub := dmSub m, value := dmValue m } r = true := by
    have hform : bytesRangeOk 0x1201 (dmValue m) = true := by
      show ((dmValue m).isEmpty || ((dmValue m).length == 97 && (dmValue m).headD 0 == 0x04)) = true
      rw [hlen, hhead]
      simp
    simp [State.writeInRange, r, ObjType.holds, hi, hform, hlen]
  have hput : putOcts s { role := 0, idx := dmIdx m, sub := dmSub m, value := dmValue m } =
      { s with dict := s.dict.put 0x1201 1 (.bytes (dmValue m)) } := by
    unfold putOcts
    rw [hi, hsub]
  unfold State.claimWrite
  rw [hrow]
  dsimp only
  rw [if_neg (by simp [hty, r])]
  unfold State.takeValue
  rw [if_neg (by simp [r])]
  simp only [joinSegment, hoff, beq_self_eq_true, if_true, hlast]
  unfold State.commitWrite State.writeFail
  rw [hrange, ha]
  simp only [Bool.not_true, Bool.false_and, Bool.false_eq_true, if_false]
  rw [hput]
  rfl

/-! ### The obligation -/

/-- Settles O52: OPEN by its checks in order, PROVE by its signature, and what each timer drops. -/
theorem sessionsOpenProveClose : Obligations.SessionsOpenProveClose := by
  unfold Obligations.SessionsOpenProveClose
  refine ⟨?_, ?_, ?_, ?_, ?_, ?_, ?_⟩
  · intro s m hq ht ho hs role slot
    have hq' := leavePs1_quiet hq
    have hl' : m.transport ∈ s.leavePs1.dict.lockouts ↔ m.transport ∈ s.dict.lockouts := by rw [leavePs1_dict]
    refine ⟨fun hl => ?_, fun hl hv hslot hk => ?_, fun hl hv hslot hk hn => ?_, fun hl hv hslot hk hn => ?_⟩
    · exact exec_dictionaryOpen ht ho (dictOpen_locked hs (hl'.2 hl)) hq'
    · exact exec_dictionaryOpen ht ho (dictOpen_noKey hs (mt hl'.1 hl) ((leavePs1_roleKey s _ _).trans hk)) hq'
    · exact exec_dictionaryOpen ht ho (dictOpen_full hs (mt hl'.1 hl) hv hslot (by rwa [leavePs1_roleKey]) (by simpa using hn)) hq'
    · refine ⟨s.leavePs1.freshSid, s.leavePs1.free + 1 + 48, s.leavePs1.useFree.freeBytes 48, freshSid_ne_zero _,
        by simp [State.freeBytes], ?_⟩
      refine exec_dictionaryOpen ht ho ?_ hq'
      rw [dictOpen_offers hs (mt hl'.1 hl) hv hslot (by rwa [leavePs1_roleKey]) (by simpa using hn)]
      rw [← leavePs1_dict s]
      rfl
  · intro s m x hq ht ho hx hopen ha good
    have hx' := (leavePs1_sessionOf s m).trans hx
    have htext : s.leavePs1.proveText x = s.proveText x := by simp [State.proveText]
    refine ⟨fun ⟨hl, hg⟩ => ⟨s.leavePs1.proveEntry m x 1, rfl, rfl, ?_⟩, fun hb =>
      ⟨s.leavePs1.proveEntry m x 2, (s.leavePs1.proveFailed m (some x)).dropSession x.sid, rfl, ?_, dropSession_gone _ _, ?_, ?_, ?_, ?_⟩⟩
    · have hf := dictProve_good hx' hopen ((leavePs1_auditRefuses s).trans ha) hl (by rwa [leavePs1_roleKey, htext])
      rw [leavePs1_dict] at hf
      refine exec_dictionaryProve ht ho hf ?_
      exact (congrArg Faults.transit (audit_faults s.leavePs1 _)).trans (leavePs1_quiet hq)
    · refine exec_dictionaryProve ht ho (dictProve_bad hx' hopen (by rwa [leavePs1_roleKey, htext])) ?_
      exact (congrArg Faults.transit (proveFailed_faults s.leavePs1 m x)).trans (leavePs1_quiet hq)
    · rw [← leavePs1_dict s]
      exact proveFailed_authFailures s.leavePs1 m x
    · exact (proveFailed_journal s.leavePs1 m x).trans (leavePs1_audit_journal s _)
    · rw [← leavePs1_uptime s]
      exact proveFailed_fails s.leavePs1 m x
    · intro h
      refine proveFailed_lockout s.leavePs1 m x (h.trans_eq ?_)
      exact (leavePs1_same s (fun s => (s.dict.fails.filter fun f => f.1 == m.transport && s.since f.2 < 60000000).length)
        fun _ _ => rfl).symm
  · intro s m x hq ht ho hs hx
    refine onRequest_answered (f := fun s => s.dictClose m) ht (by simp [ho]) ?_ (leavePs1_quiet hq)
    unfold State.dictClose
    rw [if_neg (by simp [hs]), leavePs1_openSession, hx]
  · intro s x hq hx gone
    have hgone : ∀ b, x.isOpen = b → (s.sessionTimedOut x.sid b).settle = gone := by
      rintro b rfl
      unfold State.sessionTimedOut
      rw [hx]
      exact (settle_quiet ((congrArg Faults.transit (audit_faults s _)).trans hq))
    exact ⟨fun h => congrArg _ (hgone false h), fun h => congrArg _ (hgone true h), dropSession_gone _ _⟩
  · intro s n hq
    exact congrArg _ (settle_quiet (s := s.modSession n fun x => { x with octs := none }) hq)
  · intro s t hq
    refine ⟨s.dict.lockouts.filter fun x => x != t, congrArg _ (settle_quiet ?_), fun y => by simp⟩
    exact hq
  · intro s m hq ht ho hc hty hoff hlast hlen hhead ha
    obtain ⟨hi, hsub⟩ := claims_key hc
    refine ⟨s.leavePs1.claimEntry m ⟨0x1201, 0x1201, 0x01, 0x04, .octs, .r, .rw, .rw⟩, rfl, rfl, hi, hsub, rfl, ?_⟩
    have hc' : s.leavePs1.claims m = true := (leavePs1_same s (fun s => s.claims m) fun _ _ => rfl).trans hc
    have hf := claimWrite_stores hc' hty hoff hlast hlen hhead ((leavePs1_auditRefuses s).trans ha)
    rw [leavePs1_dict] at hf
    refine onRequest_answered (f := fun s => s.claimWrite m { act := putOcts }) ht (by simp [ho, hc]) hf ?_
    exact (congrArg Faults.transit (audit_faults _ _)).trans (leavePs1_quiet hq)

end Sys2Proof.Machine
end


section
/-!
PROOFS. WRITEs of plain objects, key slots, defaults, calibration and licences (R661, R678, R680, R681, R688, R711, R713): what a value put
into the dictionary changes, the effect of each rule, and the statement O53 from that.
-/
namespace Sys2Proof.Machine

/-! ### A value put into the dictionary -/

/-- The value put is the one found. -/
theorem put_find_self (d : Dict) (idx sub : Nat) (v : ObjVal) : (d.put idx sub v).find idx sub = some v := by
  have hbelow : (d.values.filter fun p => 256 * p.1.1 + p.1.2 < 256 * idx + sub).find? (fun p => p.1 == (idx, sub)) = none := by
    refine List.find?_eq_none.2 fun p hp heq => ?_
    have hkey : p.1 = (idx, sub) := by simpa using heq
    simp [hkey] at hp
  simp only [Dict.put, Dict.find, List.find?_append, hbelow]
  simp

/-- A value of another place in the order is found as before. -/
theorem put_find_other (d : Dict) {idx sub i k : Nat} (v : ObjVal) (h : 256 * i + k ≠ 256 * idx + sub) :
    (d.put idx sub v).find i k = d.find i k := by
  have hne : ((idx, sub) == (i, k)) = false := by
    refine beq_eq_false_iff_ne.2 fun heq => h ?_
    obtain ⟨rfl, rfl⟩ := Prod.mk.inj heq
    rfl
  have hat (lt : Nat → Bool) (b : Bool) (hb : lt (256 * i + k) = b) :
      (d.values.filter fun p => lt (256 * p.1.1 + p.1.2)).find? (fun p => p.1 == (i, k)) =
        if b then d.values.find? fun p => p.1 == (i, k) else none := by
    have hp (p : (Nat × Nat) × ObjVal) (heq : (p.1 == (i, k)) = true) : lt (256 * p.1.1 + p.1.2) = b := by
      rw [beq_iff_eq] at heq
      rw [heq, hb]
    cases b with
    | true => exact find_filter_kept _ hp
    | false => exact find_filter_gone _ hp
  have hbelow := hat (fun n => n < 256 * idx + sub) _ rfl
  have habove := hat (fun n => 256 * idx + sub < n) _ rfl
  simp only [Dict.put, Dict.find, List.find?_append, List.find?_cons, hne]
  rw [hbelow, habove]
  rcases Nat.lt_or_gt_of_ne h with hlt | hgt
  · simp [hlt, Nat.not_lt.2 (Nat.le_of_lt hlt)]
  · simp [hgt, Nat.not_lt.2 (Nat.le_of_lt hgt)]

/-- Places with a sub-index of one byte are in the order of their index and sub-index. -/
theorem place_ne {idx sub i k : Nat} (hs : sub < 256) (hk : k < 256) (h : (i, k) ≠ (idx, sub)) : 256 * i + k ≠ 256 * idx + sub := by
  intro he
  obtain rfl : i = idx := by omega
  obtain rfl : k = sub := by omega
  exact h rfl

/-- SUB is one byte. -/
theorem dmSub_lt (m : DictMsg) : dmSub m < 256 := by
  unfold dmSub field slice
  cases m.msg.drop 18 with
  | nil => decide
  | cons b l => simpa [leNat] using b.isLt

/-! ### A WRITE that passes every check -/

/-- R667 check 5: an object that a role may write has a row of its own. -/
theorem findObject_write_row {m : DictMsg} {role : Nat} {r : ObjRow} (h : findObject m role true = .inr r) :
    objRow (dmIdx m) (dmSub m) = some r := by
  unfold findObject at h
  split at h
  · cases h
  · split at h
    · cases h
    · rename_i row hrow
      split at h
      · cases h
      · split at h
        · cases h
        · cases h
        · rename_i hright
          cases h
          unfold dictRow at hrow
          split at hrow
          · exact hrow ▸ ‹_›
          · split at hrow
            · obtain ⟨n, -, rfl⟩ := Option.map_eq_some_iff.1 hrow
              unfold rightOf ObjRow.right at hright
              split at hright
              · split at hright <;> cases hright
              · split at hright <;> cases hright
            · cases hrow

section Written
variable {s : State} {m : DictMsg} {x : Session} {r : ObjRow} {mine : Nat → Bytes → Bool} {rule : WriteRule}
  (hq : s.quiet) (hw : s.writes m x r) (hm : mine (dmIdx m) (dmValue m) = true)
include hq hw hm

/-- A WRITE with nothing after its response, whose effect sends no fault. -/
theorem writeRow_recorded (ha : s.auditRefuses = false) (hf : rule.fail (s.accepted m x r) (askedBy m x) = none)
    (hact : (rule.act (s.accepted m x r) (askedBy m x)).faults = s.faults) (hafter : ∀ t w, (rule.after t w).faults = t.faults) :
    s.writeRow m mine rule = .next (rule.after ((rule.act (s.accepted m x r) (askedBy m x)).recorded m r
      ((s.accepted m x r).entryOf m x r rule.kind)) (askedBy m x)) := by
  rw [writeRow_passes hw hm hf ha, settle_quiet]
  simpa only [State.quiet, hafter, recorded_faults, hact] using hq

/-- A WRITE that its rule turns away. -/
theorem writeRow_denied {st : Nat} {k : Option Nat} (hf : rule.fail (s.accepted m x r) (askedBy m x) = some (st, k)) :
    s.writeRow m mine rule = .next ((s.accepted m x r).respond m { status := st, ty := r.ty.code, crew := k }) := by
  rw [writeRow_refused hw hm hf, respond_settle (accepted_quiet s m x r hq)]

end Written

/-! ### Plain objects and key slots -/

/-- R661: outside the shaper rates a plain WRITE puts its value and does nothing else. -/
theorem plainAct_put {s : State} {w : DictWrite} {r : ObjRow} (hr : objRow w.idx w.sub = some r)
    (hshaper : ¬(0x4140 ≤ w.idx ∧ w.idx ≤ 0x4163)) :
    plainAct s w = if r.ty == .octs then putOcts s w else putNum s w := by
  unfold plainAct
  rw [if_neg (by simpa using hshaper)]
  dsimp only
  rw [hr]

theorem exec_dictionaryWrite_passes {s : State} {m : DictMsg} {x : Session} {r : ObjRow} (hq : s.quiet) (hw : s.writes m x r)
    (ha : s.auditRefuses = false) (hown : ownRow (dmIdx m) (dmValue m) = false) (hshaper : ¬(0x4140 ≤ dmIdx m ∧ dmIdx m ≤ 0x4163))
    (hf : (s.accepted m x r).plainFail (askedBy m x) = none) :
    exec (.dictionaryWrite m) s = .next ((if r.ty == .octs then putOcts (s.accepted m x r) (askedBy m x) else
      putNum (s.accepted m x r) (askedBy m x)).recorded m r ((s.accepted m x r).entryOf m x r 0)) := by
  have hact : plainAct (s.accepted m x r) (askedBy m x) = _ := plainAct_put (findObject_write_row hw.2.1) hshaper
  have hfaults : (plainAct (s.accepted m x r) (askedBy m x)).faults = s.faults := by
    rw [hact, ← accepted_faults s m x r]
    split <;> rfl
  rw [← hact]
  exact writeRow_recorded (mine := fun i v => !ownRow i v) (rule := plainRule) hq hw (by simp [hown]) ha hf hfaults fun _ _ => rfl

/-- A number put reads, and every other setting as before. -/
theorem putNum_reads (s : State) (w : DictWrite) (hs : w.sub < 256) {i k : Nat} (hk : k < 256) (h : (i, k) ≠ (w.idx, w.sub)) :
    (putNum s w).num i k = s.num i k ∧ (putNum s w).octs i k = s.octs i k := by
  have hfind : (putNum s w).dict.find i k = s.dict.find i k := put_find_other s.dict _ (place_ne hs hk h)
  simp only [State.num, State.octs, hfind]
  exact ⟨rfl, rfl⟩

/-- A byte string put reads. -/
theorem putOcts_octs (s : State) (w : DictWrite) : (putOcts s w).octs w.idx w.sub = w.value := by
  have hfind : (putOcts s w).dict.find w.idx w.sub = some (.bytes w.value) := put_find_self s.dict _ _ _
  simp only [State.octs, hfind]

/-! ### Defaults -/

/-- An operation on the ports, again and again, changes the ports alone. -/
theorem foldl_ports {α : Type} {f : State → α → State} (hf : ∀ s a, ∃ p, f s a = { s with ports := p }) (l : List α) (s : State) :
    ∃ p, l.foldl f s = { s with ports := p } := by
  induction l generalizing s with
  | nil => exact ⟨s.ports, rfl⟩
  | cons a l ih =>
    obtain ⟨p, hp⟩ := hf s a
    obtain ⟨q, hq⟩ := ih { s with ports := p }
    exact ⟨q, by rw [List.foldl_cons, hp, hq]⟩

theorem eachQueue_ports {f : State → Nat → Nat → State} (hf : ∀ s n q, ∃ p, f s n q = { s with ports := p }) (s : State) :
    ∃ p, s.eachQueue f = { s with ports := p } :=
  foldl_ports (fun s n => foldl_ports (fun s q => hf s n q) (List.range 64) s) (List.range 36) s

/-- A setting of an index with no value written has its default. -/
theorem num_unwritten {s : State} {idx : Nat} (h : ∀ v ∈ s.dict.values, v.1.1 ≠ idx) (sub : Nat) :
    s.num idx sub = numDefault s.fuses idx sub := by
  have hfind : s.dict.find idx sub = none := by
    unfold Dict.find
    rw [List.find?_eq_none.2]
    · rfl
    · intro v hv heq
      have hkey : v.1 = (idx, sub) := by simpa using heq
      exact h v hv (by rw [hkey])
  simp only [State.num, hfind]

/-- R681: with no port mode written, the defaults are values gone and buckets filled and held to their limit. -/
theorem restoreDefaults_modes {s : State} (w : DictWrite) (h : ∀ v ∈ s.dict.values, v.1.1 ≠ 0x4000) :
    ∃ p, restoreDefaults s w = { s with
      ports := p, dict := { s.dict with values := s.dict.values.filter fun v => !restored v.1.1 } } := by
  obtain ⟨p, hp⟩ := eachQueue_ports (f := fun s n q => s.settleBucket n q fun t => t) (fun _ _ _ => ⟨_, rfl⟩) s
  have hcap (t : State) : ∃ q, t.capBuckets = { t with ports := q } := eachQueue_ports (fun _ _ _ => ⟨_, rfl⟩) t
  obtain ⟨q, hq⟩ := hcap { s with
    ports := p, dict := { s.dict with values := s.dict.values.filter fun v => !restored v.1.1 } }
  have hmodes : ({ s with
      ports := p, dict := { s.dict with values := s.dict.values.filter fun v => !restored v.1.1 } } : State).modesChanged
      { s with ports := p } = [] := by
    refine List.filter_eq_nil_iff.2 fun n _ => ?_
    have hold := num_unwritten (s := { s with ports := p }) h (n + 1)
    have hnew := num_unwritten (s := { s with
      ports := p, dict := { s.dict with values := s.dict.values.filter fun v => !restored v.1.1 } })
      (fun v hv => h v (List.mem_filter.1 hv).1) (n + 1)
    simp only [State.portMode, hold, hnew, bne_self_eq_false, Bool.false_eq_true, not_false_eq_true]
  refine ⟨q, ?_⟩
  unfold restoreDefaults State.settleBuckets
  rw [hp]
  dsimp only
  rw [hmodes]
  exact hq

/-- R681: the objects kept are those of the Roles, Audit and Calibration ranges. -/
theorem not_restored_iff (i : Nat) : (!restored i) = true ↔ (0x1200 ≤ i ∧ i ≤ 0x12FF) ∨ (0x9000 ≤ i ∧ i ≤ 0x9FFF) := by
  simp [restored]

/-! ### Calibration -/

/-- R688: a calibration object holds its value, and its set says by whom. -/
theorem calibrate_eq (s : State) (w : DictWrite) :
    let v : ObjVal := if w.idx = 0x9000 ∨ w.idx = 0x9003 then .bytes w.value else .num w.num
    let origin := s.dict.calOrigin.set (w.idx - 0x9000) (if w.role = 3 then 2 else 1)
    calibrate s w = { s with dict := { s.dict.put w.idx w.sub v with calOrigin := origin } } := by
  intro v origin
  have horigin : s.dict.calOrigin.set (w.idx - 0x9000) (if w.role == 3 then 2 else 1) = origin := by simp [origin]
  unfold calibrate
  by_cases hb : w.idx = 0x9000 ∨ w.idx = 0x9003
  · rw [if_pos (by simpa using hb), show v = .bytes w.value from if_pos hb, ← horigin]
    rfl
  · rw [if_neg (by simpa using hb), show v = .num w.num from if_neg hb, ← horigin]
    rfl

/-! ### Licences -/

/-- R711: a licence that is installed has an id of its own. -/
theorem licenceCheck_new {s : State} {w : DictWrite} (h : s.licenceCheck w = none) :
    ∀ l ∈ s.startup.licences, l.isEmpty = false → l ≠ w.value := by
  rintro l hl he rfl
  have hany : (s.startup.licences.any fun l => !l.isEmpty && licenceId l == licenceId w.value) = true :=
    List.any_eq_true.2 ⟨_, hl, by simp only [he, Bool.not_false, Bool.true_and, beq_self_eq_true]⟩
  unfold State.licenceCheck at h
  split at h
  · cases h
  · rw [if_pos hany] at h
    cases h

/-- R711: the slot a new licence took is found by its bytes. -/
theorem findIdx_set_new {l : List Bytes} {v : Bytes} {i : Nat} (hi : l.findIdx? List.isEmpty = some i)
    (hnew : ∀ b ∈ l, b.isEmpty = false → b ≠ v) : (l.set i v).findIdx? (fun b => b == v) = some i := by
  obtain ⟨hlen, -, hbefore⟩ := List.findIdx?_eq_some_iff_getElem.1 hi
  refine List.findIdx?_eq_some_iff_getElem.2 ⟨by simpa using hlen, by simp, fun j hj => ?_⟩
  have hne : l[j] ≠ v := hnew _ (List.getElem_mem _) (by simpa using hbefore j hj)
  rw [List.getElem_set_ne (by omega)]
  simpa using hne

/-- A bit cleared by subtraction. -/
theorem testBit_sub_two_pow {v i : Nat} (h : v / 2 ^ i % 2 = 1) (j : Nat) : (v - 2 ^ i).testBit j = (v.testBit j && j != i) := by
  have hlow : v % 2 ^ i < 2 ^ i := Nat.mod_lt _ (Nat.two_pow_pos i)
  have hv : v = 2 ^ i * (2 * (v / 2 ^ i / 2) + 1) + v % 2 ^ i := by
    conv_lhs => rw [← Nat.div_add_mod v (2 ^ i), ← Nat.div_add_mod (v / 2 ^ i) 2, h]
  have hsub : v - 2 ^ i = 2 ^ i * (2 * (v / 2 ^ i / 2)) + v % 2 ^ i := by
    conv_lhs => rw [hv]
    rw [Nat.mul_add, Nat.mul_one]
    omega
  rw [hsub]
  conv_rhs => rw [hv]
  rw [Nat.testBit_two_pow_mul_add _ hlow, Nat.testBit_two_pow_mul_add _ hlow]
  rcases Nat.lt_trichotomy j i with hlt | rfl | hgt
  · simp [hlt, hlt.ne]
  · simp
  · obtain ⟨n, hn⟩ : ∃ n, j - i = n + 1 := ⟨j - i - 1, by omega⟩
    have hhalf (q : Nat) : (2 * q + 1) / 2 = q := by omega
    simp [Nat.not_lt.2 hgt.le, hgt.ne', hn, Nat.testBit_succ, hhalf]

/-- R713: the valid licences without that of a slot freed. -/
def withoutSlot (valid i : Nat) : Nat := if valid / 2 ^ i % 2 == 1 then valid - 2 ^ i else valid

theorem withoutSlot_testBit (valid i j : Nat) : (withoutSlot valid i).testBit j = (valid.testBit j && j != i) := by
  unfold withoutSlot
  by_cases h : valid / 2 ^ i % 2 = 1
  · rw [if_pos (by simpa using h), testBit_sub_two_pow h]
  · rw [if_neg (by simpa using h)]
    by_cases hj : j = i
    · simp [hj, Nat.testBit_eq_decide_div_mod_eq, h]
    · simp [hj]

@[simp] theorem recorded_startup (s : State) (m : DictMsg) (r : ObjRow) (e : Audit) : (s.recorded m r e).startup = s.startup := by
  obtain ⟨j, n, o, h⟩ := audit_eq s e
  unfold State.recorded State.respond
  rw [h]
  split <;> rfl

/-- R713: the slot of a licence that is there is freed. -/
theorem removeLicence_slot {s : State} {w : DictWrite} {i : Nat} (h : s.licenceSlot w.num = some i) :
    removeLicence s w = { s with startup := { s.startup with
      licences := s.startup.licences.set i [], licenceValid := withoutSlot s.startup.licenceValid i } } := by
  unfold removeLicence
  rw [h]
  rfl

/-! ### The obligation -/

/-- Settles O53: each object by its rule, whose effect stands in the state the WRITE is accepted in. -/
theorem objectsKeysAndLicencesWritten : Obligations.ObjectsKeysAndLicencesWritten := by
  unfold Obligations.ObjectsKeysAndLicencesWritten
  intro passes
  refine ⟨?_, ?_, ?_, ?_, ?_, ?_, ?_⟩
  · rintro s m x r ⟨hq, hw, ha⟩ hown hshaper u hf
    have hexec := exec_dictionaryWrite_passes hq hw ha hown hshaper hf
    refine ⟨fun hty => ?_, fun hty => ?_⟩
    · rw [hexec, if_pos (by simp [hty])]
      rfl
    · intro t
      have hcell (i k : Nat) : u.num i k = s.num i k ∧ u.octs i k = s.octs i k :=
        ⟨accepted_keeps s m x r (fun s => s.num i k) fun _ _ _ => rfl, accepted_keeps s m x r (fun s => s.octs i k) fun _ _ _ => rfl⟩
      refine ⟨?_, putNum_num u (askedBy m x), fun i k hk hne => ?_⟩
      · rw [hexec, if_neg (by simp [hty])]
        rfl
      · obtain ⟨hn, ho⟩ := putNum_reads u (askedBy m x) (dmSub_lt m) hk hne
        exact ⟨hn.trans (hcell i k).1, ho.trans (hcell i k).2⟩
  · rintro s m x r ⟨hq, hw, ha⟩ hi u role t
    have hexec := writeRow_recorded (mine := fun i _ => i == 0x1200 || i == 0x1201) (rule := keyRule) hq hw (by simp [hi]) ha rfl
      (accepted_faults s m x r) fun _ _ => rfl
    have hkey : t.octs (dmIdx m) (dmSub m) = dmValue m := putOcts_octs u (askedBy m x)
    have hrole : (if (dmIdx m == 0x1200) = true then 1 else 2) = role := by simp [role]
    refine ⟨?_, ?_⟩
    · rw [← hrole]
      exact hexec
    · rcases hi with hi | hi
      · rw [show role = 1 from if_pos hi]
        rwa [hi] at hkey
      · rw [show role = 2 from if_neg (by omega)]
        rwa [hi] at hkey
  · rintro s m x r ⟨hq, hw, ha⟩ hi hv u
    have hcrew : u.firstCrew (fun c => c.state != 0) = s.lowestCrew fun c => c.state != 0 :=
      accepted_keeps s m x r (fun s => s.lowestCrew fun c => c.state != 0) fun _ _ _ => rfl
    have hmine : (dmIdx m == 0x1208 && dmValue m != [2]) = true := by simp [hi, hv]
    refine ⟨fun k hk => ?_, fun hc hmodes => ?_⟩
    · have hf : defaultsRule.fail u (askedBy m x) = some (0x03, some k) := by
        simp only [defaultsRule, hcrew, hk]
      exact writeRow_denied (mine := fun i v => i == 0x1208 && v != [2]) (rule := defaultsRule) hq hw hmine hf
    · have hf : defaultsRule.fail u (askedBy m x) = none := by
        simp only [defaultsRule, hcrew, lowestCrew_none (fun c hm => by simp [hc c hm] : ∀ c ∈ s.crews, (c.state != 0) = false)]
      have hvalues : u.dict.values = s.dict.values := accepted_keeps s m x r (fun s => s.dict.values) fun _ _ _ => rfl
      obtain ⟨p, hp⟩ := restoreDefaults_modes (s := u) (askedBy m x) (by rwa [hvalues])
      refine ⟨restoreDefaults u (askedBy m x), p, by rw [hp], by rw [hp], fun v => ?_, ?_⟩
      · rw [hp]
        dsimp only
        rw [hvalues, List.mem_filter, not_restored_iff]
      · have hact : (defaultsRule.act u (askedBy m x)).faults = s.faults := by
          dsimp only [defaultsRule]
          rw [hp, ← accepted_faults s m x r]
        have hexec := writeRow_recorded (mine := fun i v => i == 0x1208 && v != [2]) hq hw hmine ha hf hact fun _ _ => rfl
        dsimp only [defaultsRule] at hexec
        exact hexec
  · rintro s m x r ⟨hq, hw, ha⟩ hi hv u l t
    have hmine : (dmIdx m == 0x1208 && dmValue m == [2]) = true := by simp [hi, hv]
    refine ⟨fun hr => ?_, fun hr => ?_⟩
    · exact writeRow_recorded (mine := fun i v => i == 0x1208 && v == [2]) (rule := unclaimRule) hq hw hmine ha
        (by simp [unclaimRule, askedBy, hr]) (accepted_faults s m x r) fun _ _ => rfl
    · exact writeRow_denied (mine := fun i v => i == 0x1208 && v == [2]) (rule := unclaimRule) hq hw hmine
        (by simp [unclaimRule, askedBy, hr])
  · rintro s m x r ⟨hq, hw, ha⟩ hlo hhi u v by_
    have hact : calibrate u (askedBy m x) = { u with dict := { u.dict.put (dmIdx m) (dmSub m) v with calOrigin := by_ } } := by
      have horigin : u.dict.calOrigin = s.dict.calOrigin := accepted_keeps s m x r (fun s => s.dict.calOrigin) fun _ _ _ => rfl
      rw [calibrate_eq, horigin]
      rfl
    rw [← hact]
    refine writeRow_recorded (mine := fun i _ => 0x9000 ≤ i && i ≤ 0x9003) (rule := calRule) hq hw (by simp [hlo, hhi]) ha rfl ?_ fun _ _ => rfl
    rw [show calRule.act u (askedBy m x) = _ from hact]
    exact accepted_faults s m x r
  · rintro s m x r i ⟨hq, hw, ha⟩ hi hcheck hslot u l t valid
    have hstart : u.startup = s.startup := accepted_startup s m x r
    have hcheck' : u.licenceCheck (askedBy m x) = none :=
      (accepted_keeps s m x r (fun s => s.licenceCheck (askedBy m x)) fun _ _ _ => rfl).trans hcheck
    have hact : installLicence u (askedBy m x) = { u with startup := { u.startup with licences := l } } := by
      unfold installLicence
      rw [hstart, hslot]
      rfl
    have hexec := writeRow_recorded (mine := fun i _ => i == 0x8020) (rule := licenceRule) hq hw (by simp [hi]) ha hcheck'
      (by rw [show licenceRule.act u (askedBy m x) = _ from hact]; exact accepted_faults s m x r)
      (fun t w => by simp only [licenceRule, enableLicence]; split <;> rfl)
    have hfound : t.startup.licences.findIdx? (fun b => b == (askedBy m x).value) = some i := by
      rw [recorded_startup]
      exact findIdx_set_new hslot (licenceCheck_new hcheck)
    have hvalid : t.startup.licenceValid = s.startup.licenceValid := by
      rw [recorded_startup, ← hstart]
    refine hexec.trans ?_
    show Host.Outcome.next (enableLicence ((installLicence u (askedBy m x)).recorded m r (u.entryOf m x r 5)) (askedBy m x)) = _
    rw [hact]
    show Host.Outcome.next (enableLicence t (askedBy m x)) = _
    unfold enableLicence
    rw [hfound]
    simp only [hvalid, valid]
  · rintro s m x r ⟨hq, hw, ha⟩ hi u
    have hstart : u.startup = s.startup := accepted_startup s m x r
    have hsame : u.licenceSlot (leNat (dmValue m)) = s.licenceSlot (leNat (dmValue m)) :=
      accepted_keeps s m x r (fun s => s.licenceSlot (leNat (dmValue m))) fun _ _ _ => rfl
    refine ⟨fun i hslot => ?_, fun hslot => ?_⟩
    · have hact := removeLicence_slot (s := u) (w := askedBy m x) (hsame.trans hslot)
      refine ⟨removeLicence u (askedBy m x), withoutSlot s.startup.licenceValid i, withoutSlot_testBit _ i, by rw [hact, hstart], ?_⟩
      refine writeRow_recorded (mine := fun i _ => i == 0x8022) (rule := licenceRemoveRule) hq hw (by simp [hi]) ha ?_ ?_ fun _ _ => rfl
      · show (if (u.licenceSlot (leNat (dmValue m))).isSome then none else some (0x02, none)) = none
        rw [hsame, hslot]
        rfl
      · rw [show licenceRemoveRule.act u (askedBy m x) = _ from hact]
        exact accepted_faults s m x r
    · refine writeRow_denied (mine := fun i _ => i == 0x8022) (rule := licenceRemoveRule) hq hw (by simp [hi]) ?_
      show (if (u.licenceSlot (leNat (dmValue m))).isSome then none else some (0x02, none)) = _
      rw [hsame, hslot]
      rfl

end Sys2Proof.Machine
end


section
/-!
PROOFS. Supplies and start-up (R690 to R709, R738, R752 to R764): what each land and trip does to the device, the steps of the start-up
sequence, and the statements O1 to O6 from that.
-/
namespace Sys2Proof.Machine

/-! ### Starting -/

/-- R691: with the supplies there and nothing holding the device off, the sequence begins. -/
theorem tryStart_begins {s : State} (p : Pins) (hq : s.quiet) (hp : p.pwrok = true) (hr : p.resetN = true) (hv : p.vin48 = true)
    (hi : p.inputBad = false) (ht : p.hwTrip = false) (ho : s.startup.phase = .off) :
    ({ s with pins := p } : State).tryStart.settle = { s with
      pins := { p with alertTemp := false }
      startup := { s.startup with phase := .step 1, began := s.uptime } } := by
  have hbegins : ({ s with pins := p } : State).tryStart = { s with
      pins := { p with hwTrip := false, alertTemp := false }
      startup := { s.startup with phase := .step 1, began := s.uptime } } := by
    unfold State.tryStart
    rw [if_pos (by simp [hp, hr, hv, hi, ht, ho])]
  rw [hbegins, ← ht]
  exact settle_quiet hq

/-- What neither speaks of where the sequence stands nor of a trip's marks holds of a restarted state as before. -/
theorem restart_holds (s : State) (P : State → Prop)
    (hP : ∀ s p q a b, P s → P { s with
      startup := { s.startup with phase := p, began := q }, pins := { s.pins with hwTrip := a, alertTemp := b } })
    (h : P s) : P s.restart := by
  unfold State.restart
  split
  · exact h
  · obtain ⟨p, q, a, b, he⟩ := tryStart_eq s
    rw [he]
    exact hP s p q a b h

/-- Settles O1: each event puts its land, and what awaits it starts. -/
theorem supplyEventsStart : Obligations.SupplyEventsStart := by
  unfold Obligations.SupplyEventsStart
  refine ⟨?_, ?_, ?_, ?_, ?_⟩
  · intro s dv hq hv hd
    show Host.Outcome.next (s.vinRise dv).settle = _
    unfold State.vinRise
    rw [if_neg (by simp [hv]; omega)]
    exact congrArg Host.Outcome.next (settle_quiet hq)
  · intro s hq hv hp hr hi ht ho
    show Host.Outcome.next (State.settle (if s.pins.vin48 && !s.pins.pwrok then _ else s)) = _
    rw [if_pos (by simp [hv, hp])]
    exact congrArg Host.Outcome.next (tryStart_begins { s.pins with pwrok := true } hq rfl hr hv hi ht ho)
  · intro s m hq hv hp hi ht ho
    exact congrArg Host.Outcome.next (tryStart_begins { s.pins with resetN := true, mgrSel := m } hq hp rfl hv hi ht ho)
  · intro s dv hq hb hlo hhi hv hp hr ht ho
    show Host.Outcome.next (State.settle (if s.pins.inputBad && within 390 600 dv then _ else s)) = _
    unfold State.restart
    rw [if_pos (by simp [hb, within, hlo, hhi]), if_neg (by simp [ht])]
    exact congrArg Host.Outcome.next (tryStart_begins { s.pins with inputBad := false, inputVoltage := dv } hq hp hr hv rfl ht ho)
  · intro s hq
    exact congrArg Host.Outcome.next (settle_quiet (s := { s with pins := { s.pins with slowclk := true } }) hq)

/-! ### What is lost -/

/-- What a device that has lost its volatile state has kept of a state. -/
def State.lostFrom (s t : State) : Prop :=
  t.crews = [] ∧ t.contexts = [] ∧ t.sinks = [] ∧ t.host.cmds = [] ∧ t.host.qps = [] ∧
    t.dict.sessions = [] ∧ t.faults.queue = [] ∧ t.roce = [] ∧ t.power.state = 0 ∧
    t.fuses = s.fuses ∧ t.catalogue = s.catalogue ∧ t.vocabs = s.vocabs ∧ t.grammars = s.grammars ∧
    t.dict.values = s.dict.values ∧ t.dict.journal = s.dict.journal ∧ t.startup.licences = s.startup.licences ∧
    t.pending = s.pending

/-- R731, R738, R759: what a wipe loses and keeps, whatever media, lands, power and start-up record it comes with. -/
theorem lostFrom_wipe (s : State) (m : Media) (p : Pins) (w : Power) (u : Startup) (hu : u.licences = s.startup.licences) :
    s.lostFrom ({ s with media := m, pins := p, power := w, startup := u } : State).wipe :=
  ⟨rfl, rfl, rfl, rfl, rfl, rfl, rfl, rfl, rfl, rfl, rfl, rfl, rfl, rfl, rfl, hu, rfl⟩

/-- Local uptime, lands, and what neither wakes the device nor queues a fault nor touches a licence go on as lost. -/
theorem lostFrom_with {s t : State} (h : s.lostFrom t) (n : Nat) (p : Pins) (w : Power) (u : Startup) (f : Faults) (hw : w.state = 0)
    (hu : u.licences = t.startup.licences) (hf : f.queue = []) :
    s.lostFrom { t with uptime := n, pins := p, power := w, startup := u, faults := f } := by
  obtain ⟨h1, h2, h3, h4, h5, h6, -, h8, -, h10, h11, h12, h13, h14, h15, h16, h17⟩ := h
  exact ⟨h1, h2, h3, h4, h5, h6, hf, h8, hw, h10, h11, h12, h13, h14, h15, hu.trans h16, h17⟩

/-- R738: what a brown-out of a state with these lands and start-up record leaves. -/
def State.brownedOut (s : State) (p : Pins) (u : Startup) (t : State) : Prop :=
  s.lostFrom t ∧ t.quiet ∧ t.uptime = 0 ∧ t.startup.cause = 2 ∧ t.startup.heldFaults = u.heldFaults ∧
    t.power.brownOuts = (s.power.brownOuts + 1) % 4294967296 ∧ t.pins.padHold = some .brownOut ∧
    t.pins.inputBad = p.inputBad ∧ t.pins.inputFaults = p.inputFaults ∧ t.pins.slowclk = p.slowclk

theorem brownOut_brownedOut (s : State) (p : Pins) (u : Startup) (hu : u.licences = s.startup.licences) :
    s.brownedOut p u ({ s with pins := p, startup := u } : State).brownOut := by
  unfold State.brownOut
  exact restart_holds _ (s.brownedOut p u) (fun _ _ _ _ _ h => h)
    ⟨lostFrom_with (lostFrom_wipe s s.media.cutShort p s.power u hu) 0 _ _ _ _ rfl rfl rfl, rfl, rfl, rfl, rfl, rfl, rfl, rfl, rfl, rfl⟩

/-- Settles O2: a wipe loses the same whatever calls for it, and a restart gives none of it back. -/
theorem powerEventsLoseVolatileState : Obligations.PowerEventsLoseVolatileState := by
  unfold Obligations.PowerEventsLoseVolatileState
  intro lost
  refine ⟨?_, ?_, ?_, ?_, ?_, ?_, ?_⟩
  · intro s hv
    refine ⟨s.powerLost, ?_, ?_, rfl, rfl, rfl, rfl, rfl⟩
    · show Host.Outcome.next (State.settle (if s.pins.vin48 then _ else s)) = _
      rw [if_pos hv]
      exact congrArg Host.Outcome.next (settle_quiet rfl)
    · exact lostFrom_with (lostFrom_wipe s s.media.cutShort s.pins s.power s.startup rfl) 0 _ _ _ _ rfl rfl rfl
  · intro s ha
    obtain ⟨hl, hq, hu, hc, -, hb, hp, -⟩ := brownOut_brownedOut s s.pins s.startup rfl
    refine ⟨s.brownOut, ?_, hl, hu, hc, hp, hb⟩
    show Host.Outcome.next (State.settle (if s.pins.aon then _ else s)) = _
    rw [if_pos ha, settle_quiet hq]
  · intro s l hp
    have hfall : s.pwrokFall l = _ := if_neg (by simp [hp])
    refine ⟨_, congrArg Host.Outcome.next ((congrArg State.settle hfall).trans (settle_quiet rfl)), ?_, rfl, rfl, rfl, rfl, rfl⟩
    exact lostFrom_with (lostFrom_wipe s _ s.pins s.power s.startup rfl) s.uptime _ _ _ _ rfl rfl rfl
  · intro s ns hr hn
    refine ⟨s.resetLow, ?_, ?_, rfl, rfl, rfl⟩
    · show Host.Outcome.next (s.resetFall ns).settle = _
      unfold State.resetFall
      rw [if_neg (by simp [hr]; omega), if_pos hn]
      exact congrArg Host.Outcome.next (settle_quiet rfl)
    · exact lostFrom_with (lostFrom_wipe s s.media.landed s.pins s.power s.startup rfl) s.uptime _ _ _ _ rfl rfl rfl
  · intro s c dv hv hi hc hlo hout
    have hfault : s.inputFault c dv = _ := (if_neg (by simp [hv, hi, within]; omega)).trans (if_neg (by omega))
    obtain ⟨hl, hq, -, hcause, hheld, -, -, hbad, hcount, -⟩ := brownOut_brownedOut s
      { s.pins with inputFaults := (s.pins.inputFaults + 1) % 4294967296, inputVoltage := dv, inputBad := true, rails := {} }
      { s.startup with heldFaults := s.startup.heldFaults ++ [0x2D0 + c] } rfl
    exact ⟨_, congrArg Host.Outcome.next ((congrArg State.settle hfault).trans (settle_quiet hq)), hl, hcause, hbad, hcount, hheld⟩
  · intro s ha hp
    obtain ⟨hl, hq, -, hc, -, -, -, -, -, hs⟩ := brownOut_brownedOut s { s.pins with slowclk := false } s.startup rfl
    refine ⟨_, ?_, hl, hs, hc⟩
    show Host.Outcome.next s.slowclkLost.settle = _
    unfold State.slowclkLost
    rw [if_neg (by simp [ha])]
    dsimp only
    rw [if_neg (by simp [hp]), settle_quiet hq]
  · intro s n hn ha
    have htrip : s.hwTrip n = _ := if_pos (by simp [hn, ha])
    refine ⟨_, congrArg Host.Outcome.next ((congrArg State.settle htrip).trans (settle_quiet rfl)), ?_, rfl, rfl, rfl, rfl⟩
    exact lostFrom_with (lostFrom_wipe s s.media.cutShort s.pins _ s.startup rfl) s.uptime _ _ _ _ rfl rfl rfl

/-! ### Regulators and temperature -/

/-- R762: what the fault of a second-stage regulator cuts off. -/
theorem cut_rails (r : Rails) (u : Nat) (hlo : 0x2D4 ≤ u) (hhi : u ≤ 0x2DD) :
    (r.cut u).converters = r.converters ∧
      (r.cut u).pd = (if u ≤ 0x2D7 then r.pd.set (u - 0x2D4) false else r.pd) ∧
      (r.cut u).ed = (if 0x2D9 ≤ u ∧ u ≤ 0x2DA then r.ed.set (u - 0x2D9) false else r.ed) ∧
      (r.cut u).hd = (if u = 0x2D8 then false else r.hd) ∧ (r.cut u).hbm = (if u = 0x2DB then false else r.hbm) ∧
      (r.cut u).lpddr = (if u = 0x2DC then false else r.lpddr) ∧ (r.cut u).nandIo = (if u = 0x2DD then false else r.nandIo) := by
  interval_cases u <;> simp [Rails.cut]

/-- Settles O3: the lands and the power record are as the event left them, whatever the fault raised stops. -/
theorem regulatorAndTemperatureStops : Obligations.RegulatorAndTemperatureStops := by
  unfold Obligations.RegulatorAndTemperatureStops
  refine ⟨?_, ?_⟩
  · intro s u hc hlo hhi
    let v : State := { s with pins := { s.pins with rails := s.pins.rails.cut u } }
    have hk : (v.raise { unit := u, kind := 0x63, addr := u }).settle.kernel = v.kernel := by rw [settle_kernel, raise_kernel]
    obtain ⟨hf, hp, hu, hpins, hpower⟩ := kernel_eq_fields hk
    refine ⟨(v.raise { unit := u, kind := 0x63, addr := u }).settle, ?_, hf, hu, hp, hpower, _, hpins, cut_rails _ u hlo hhi⟩
    show Host.Outcome.next (State.settle (if within 0x2D4 0x2DD u && s.coxUp then _ else s)) = _
    rw [if_pos (by simp [within, hlo, hhi, hc])]
  · intro s n c hc hn ht
    have htemp : s.overTemperature n c = _ := if_pos (by simp [hn, ht, hc])
    let v : State := { s with power := { s.power with temps := s.power.temps.set n c } }
    let w : State := (v.raise { unit := 0x2E0 + n, kind := 0x62, addr := word32 c }).settle
    have hk : w.kernel = v.kernel := by simp only [w, settle_kernel, raise_kernel]
    obtain ⟨hf, hp, hu, hpins, hpower⟩ := kernel_eq_fields hk
    refine ⟨_, congrArg Host.Outcome.next (congrArg State.settle htemp), ?_⟩
    have hk' := settle_kernel { w with pins := { w.pins with
      alertTemp := true, rails := { w.pins.rails with pd := [false, false, false, false], ed := [false, false], hbm := false, lpddr := false } } }
    obtain ⟨hf', hp', hu', hpins', hpower'⟩ := kernel_eq_fields hk'
    refine ⟨hf'.trans hf, hu'.trans hu, hp'.trans hp, hpins'.trans ?_, hpower'.trans hpower⟩
    rw [show w.pins = s.pins from hpins]

/-! ### The steps of the sequence -/

/-- R696: a slot that verifies starts. -/
theorem trySlots_runs {s : State} {n : Nat} (commit : Bool) (hn : n < 2) (hj : s.judgeSlot n = 3) :
    s.trySlots n commit = { s with startup := { s.startup with
      running := some n, fromCommit := commit, phase := .step 5
      slotA := if n = 0 then { s.startup.slotA with state := 3 } else s.startup.slotA
      slotB := if n = 1 then { s.startup.slotB with state := 3 } else s.startup.slotB } } := by
  unfold State.trySlots
  dsimp only
  rw [if_pos (by simp [hj])]
  interval_cases n <;> rfl

/-- Settles O4: by the step awaited, and at step 4 by the slot that is taken. -/
theorem startupStepsFollow : Obligations.StartupStepsFollow := by
  unfold Obligations.StartupStepsFollow
  refine ⟨?_, ?_, ?_, ?_, ?_, ?_⟩
  · intro s f hq h hc
    have hstep : s.stepReady 1 f = _ := (if_neg (by simp [h])).trans (if_pos hc)
    exact congrArg Host.Outcome.next ((congrArg State.settle hstep).trans (settle_quiet hq))
  · intro s f hq h
    have hstep : s.stepReady 2 f = s.toPhase (.step 3) := if_neg (by simp [h])
    exact congrArg Host.Outcome.next ((congrArg State.settle hstep).trans (settle_quiet hq))
  · intro s f hq h
    have hstep : s.stepReady 3 f = s.loadFuses.toPhase (.step 4) := if_neg (by simp [h])
    exact congrArg Host.Outcome.next ((congrArg State.settle hstep).trans (settle_quiet hq))
  · intro s n f hq h hp hn hj
    have hchoose : s.chooseSlot = State.trySlots { s with startup := { s.startup with pending := none, takeNext := none } } n true := by
      unfold State.chooseSlot
      dsimp only
      rw [hp]
    have hstep : s.stepReady 4 f = s.chooseSlot := if_neg (by simp [h])
    exact congrArg Host.Outcome.next
      ((congrArg State.settle ((hstep.trans hchoose).trans (trySlots_runs true hn hj))).trans (settle_quiet hq))
  · intro s n f hq h hp ht hg hn hj
    have hchoose : s.chooseSlot = s.trySlots n false := by
      unfold State.chooseSlot
      dsimp only
      rw [hp, ht, hg]
    have hstep : s.stepReady 4 f = s.chooseSlot := if_neg (by simp [h])
    exact congrArg Host.Outcome.next
      ((congrArg State.settle ((hstep.trans hchoose).trans (trySlots_runs false hn hj))).trans (settle_quiet hq))
  · intro s n f hq h
    show Host.Outcome.next (s.stepReady n f).settle = _
    unfold State.stepReady
    rw [if_pos (by simpa using h), settle_quiet hq]

/-! ### Training and self-test -/

/-- A fault raised changes no score. -/
theorem raise_scores (s : State) (r : Raise) : (s.raise r).faults.scores = s.faults.scores := by
  unfold State.raise
  dsimp only
  split <;> rfl

/-- The scores are not touched by a crossing entered. -/
theorem crossing_scores (s : State) : s.crossing.faults.scores = s.faults.scores := by
  unfold State.crossing
  dsimp only
  split
  · exact raise_scores _ _
  · rfl

/-- R702, R708: a unit that fails stands at the highest score. -/
theorem failUnit_score (s : State) (u : UnitRef) (r : Raise) : (s.failUnit u r).faults.score u = 1023 := by
  have hset := setScore_score s.faults u 1023
  unfold State.failUnit
  dsimp only
  split
  · unfold Faults.score at *
    rw [raise_scores, crossing_scores]
    exact hset
  · exact hset

/-- R700, R701: an interface trained here is noted, and as a fallback where saved settings were asked for. -/
theorem trainedBy_eq (s : State) (n : Nat) (b : Bool) :
    let own := s.num 0x8003 0 = 1
    let fell := ¬own ∧ (b = true ∨ ¬s.startup.savedSettings / 2 ^ n % 2 = 1)
    s.trainedBy n b = { s with startup := { s.startup with
      fallbacks := if fell then s.startup.fallbacks ||| 2 ^ n else s.startup.fallbacks
      trainedLocal := if own ∨ fell then s.startup.trainedLocal ||| 2 ^ n else s.startup.trainedLocal } } := by
  simp [State.trainedBy]

/-- Lists of one length laid end to end, by place. -/
theorem getElem?_flatMap_range {α : Type} (f : Nat → Nat → α) {a n i : Nat} (h : i < a * n) :
    ((List.range a).flatMap fun d => (List.range n).map (f d))[i]? = some (f (i / n) (i % n)) := by
  induction a with
  | zero => omega
  | succ a ih =>
    have hlen : ((List.range a).flatMap fun d => (List.range n).map (f d)).length = a * n := by simp
    rw [List.range_succ, List.flatMap_append]
    by_cases hi : i < a * n
    · rw [List.getElem?_append_left (by rwa [hlen]), ih hi]
    · obtain ⟨k, rfl⟩ : ∃ k, i = a * n + k := ⟨i - a * n, by omega⟩
      have hk : k < n := by rw [Nat.succ_mul] at h; omega
      rw [List.getElem?_append_right (by omega), hlen, Nat.add_sub_cancel_left, Nat.add_comm, Nat.add_mul_div_right _ _ (by omega),
        Nat.add_mul_mod_self_right, Nat.div_eq_of_lt hk, Nat.mod_eq_of_lt hk]
      simp [hk]

/-- Settles O5: the ends of training and self-test by what they found, and the map place by place. -/
theorem memoryTrainedAndLinkTrained : Obligations.MemoryTrainedAndLinkTrained := by
  unfold Obligations.MemoryTrainedAndLinkTrained
  refine ⟨?_, failUnit_score, ?_, ?_, ?_, ?_⟩
  · intro s hbm lp a b h out u w
    show Host.Outcome.next (s.memoryTrained hbm lp a b).settle = _
    unfold State.memoryTrained
    rw [if_neg (by simp [h])]
    rfl
  · intro s n b own saved
    have heq := trainedBy_eq s n b
    refine ⟨fun ho => ?_, fun ho hs hb => ?_, fun ho hs => ?_⟩
    · rw [heq, if_neg (by tauto), if_pos (.inl ho)]
    · have hno : ¬(¬own ∧ (b = true ∨ ¬saved)) := by rw [hb]; tauto
      rw [heq, if_neg hno, if_neg (by tauto)]
    · rw [heq, if_pos ⟨ho, hs.symm⟩, if_pos (.inr ⟨ho, hs.symm⟩)]
  · intro s v w f b ht t done
    have htrained : s.cxlTrained v w f b = _ := if_neg (by simp [ht])
    refine ⟨fun hw => ?_, fun hw => ?_, fun h16 h8 h4 h0 hn => ?_, fun h16 h8 h4 h0 hn => ?_⟩
    · exact congrArg Host.Outcome.next (congrArg State.settle (htrained.trans (if_pos (by simpa [or_assoc] using hw))))
    · subst hw
      exact congrArg Host.Outcome.next (congrArg State.settle htrained)
    · exact congrArg Host.Outcome.next (congrArg State.settle (htrained.trans ((if_neg (by simp [h16, h8, h4])).trans
        ((if_neg (by simpa using h0)).trans (if_pos (by simp [hn]))))))
    · exact congrArg Host.Outcome.next (congrArg State.settle (htrained.trans ((if_neg (by simp [h16, h8, h4])).trans
        ((if_neg (by simpa using h0)).trans (if_neg (by simp [hn]))))))
  · intro s engines units h t w
    show Host.Outcome.next (s.selfTested engines units).settle = _
    unfold State.selfTested
    rw [if_neg (by simp [h])]
    rfl
  · intro s i hi
    exact getElem?_flatMap_range (fun d i => ((s.carriers d)[i]?).map fun p => (p, s.laneMap p)) (a := 4) hi

/-! ### The end of start-up -/

/-- Slots marked one after another are all that changes. -/
theorem foldl_slots {f : State → Nat → State}
    (hf : ∀ s n, ∃ a b, f s n = { s with startup := { s.startup with slotA := a, slotB := b } }) (l : List Nat) (s : State) :
    ∃ a b, l.foldl f s = { s with startup := { s.startup with slotA := a, slotB := b } } := by
  induction l generalizing s with
  | nil => exact ⟨s.startup.slotA, s.startup.slotB, rfl⟩
  | cons n l ih =>
    obtain ⟨a, b, hn⟩ := hf s n
    obtain ⟨c, d, hl⟩ := ih { s with startup := { s.startup with slotA := a, slotB := b } }
    exact ⟨c, d, by rw [List.foldl_cons, hn, hl]⟩

theorem setSlot_slots (s : State) (n : Nat) (g : FwSlot → FwSlot) :
    ∃ a b, s.setSlot n g = { s with startup := { s.startup with slotA := a, slotB := b } } := by
  unfold State.setSlot
  split
  · exact ⟨_, s.startup.slotB, rfl⟩
  · exact ⟨s.startup.slotA, _, rfl⟩

/-- R698: raising the security counter changes its fuses and the slots' states. -/
theorem raiseCounter_eq (s : State) :
    ∃ c a b, s.raiseCounter = { s with startup := { s.startup with counterFuses := c, slotA := a, slotB := b } } := by
  unfold State.raiseCounter
  dsimp only
  obtain ⟨a, b, h⟩ := foldl_slots (f := fun t n =>
      if s.startup.running != some n && (t.slot n).state != 0 && imgSv (t.slot n).image < t.securityCounter then
        t.setSlot n fun x => { x with state := 4 } else t)
    (fun t n => by
      dsimp only
      split
      · exact setSlot_slots t n _
      · exact ⟨t.startup.slotA, t.startup.slotB, rfl⟩) [0, 1] _
  exact ⟨_, a, b, h⟩

/-- R697: the slot the next start takes, and the count of starts that fell back. -/
theorem fallBack_eq (u : Startup) :
    let slot := u.running.getD u.lastGood
    u.fallBack = { u with
      takeNext := some (if u.fromCommit then 1 - slot else slot)
      fwFallbacks := if u.fromCommit then (u.fwFallbacks + 1) % 4294967296 else u.fwFallbacks } := by
  unfold Startup.fallBack
  cases u.fromCommit <;> rfl

/-- Settles O6: start-up complete as it records itself, and the watchdog as the device reset it is. -/
theorem startupEndsAndFallsBack : Obligations.StartupEndsAndFallsBack := by
  unfold Obligations.StartupEndsAndFallsBack
  refine ⟨?_, ?_⟩
  · intro s hp hx ha hw hc hports hq
    obtain ⟨c, a, b, hcount⟩ := raiseCounter_eq (s.toPhase .complete)
    let v : State := (s.toPhase .complete).raiseCounter.noteStart
    have hv : v = State.noteStart { s.toPhase .complete with
        startup := { (s.toPhase .complete).startup with counterFuses := c, slotA := a, slotB := b } } := congrArg State.noteStart hcount
    have htop : v.writeTopology = { v with topology := v.topologyNow } :=
      writeTopology_calm (by rw [hv]; exact hc) (by rw [hv]; exact hports)
    have hend : s.completeStart = { v with topology := v.topologyNow } := by
      unfold State.completeStart
      rw [if_neg (by simp [hp, hx])]
      show v.writeTopology.heldAen.endPs3Wake = _
      rw [htop, heldAen_no (by rw [hv]; exact ha), endPs3Wake_no (by rw [hv]; exact hw)]
    refine ⟨{ v with topology := v.topologyNow }, ?_, ?_⟩
    · show Host.Outcome.next s.completeStart.settle = _
      rw [hend, settle_quiet (by rw [hv]; exact hq)]
    · rw [hv]
      exact ⟨rfl, rfl, rfl, rfl, rfl, rfl, rfl, rfl, rfl, rfl, rfl⟩
  · intro s hp
    have hdog : s.watchdog = _ := if_neg (by simp [State.watched, hp])
    obtain ⟨p, q, a, b, hstart⟩ := tryStart_eq
      (({ s with startup := s.startup.fallBack } : State).deviceReset (if s.startup.fromCommit then 4 else 5))
    refine ⟨_, congrArg Host.Outcome.next ((congrArg State.settle (hdog.trans hstart)).trans (settle_quiet rfl)), rfl, ?_, ?_,
      rfl, rfl, rfl, rfl, rfl⟩
    · show s.startup.fallBack.takeNext = _
      rw [fallBack_eq]
    · show s.startup.fallBack.fwFallbacks = _
      rw [fallBack_eq]

end Sys2Proof.Machine
end


section
/-!
PROOFS. The power states (R717 to R734): requests by WRITE, the end of an entry, PS1 and the pad hold, and the statement O55 from that.
-/
namespace Sys2Proof.Machine

/-! ### Requests -/

@[simp] theorem recorded_power (s : State) (m : DictMsg) (r : ObjRow) (e : Audit) : (s.recorded m r e).power = s.power :=
  congrArg Kernel.power (show (s.recorded m r e).kernel = s.kernel by
    obtain ⟨j, n, o, h⟩ := audit_eq s e
    unfold State.recorded
    rw [h, respond_kernel]
    rfl)

/-- Accepting a WRITE leaves PS1, and no other power state. -/
theorem accepted_power (s : State) (m : DictMsg) (x : Session) (r : ObjRow) : (s.accepted m x r).power = s.leavePs1.power := by
  unfold State.accepted
  dsimp only
  split <;> rfl

/-- R718: outside PS1 leaving it changes nothing. -/
theorem leavePs1_other {s : State} (h : s.power.state ≠ 1) : s.leavePs1 = s := if_neg (by simpa using h)

theorem leavePs1_awake {s : State} (h : s.power.state = 0 ∨ s.power.state = 1) : s.leavePs1.power.state = 0 := by
  unfold State.leavePs1
  split
  · rfl
  · rename_i hn
    exact h.resolve_right (by simpa using hn)

section Request
variable {s : State} (w : DictWrite)

/-- R720: a crew that runs stands in the way of a request. -/
theorem requestFail_crew {k : Nat} (h : s.lowestCrew (fun c => c.state == 2 || c.state == 3) = some k) :
    s.requestFail w = some (0x03, some k) := by
  unfold State.requestFail State.firstCrew
  rw [h]

/-- R720, R721: what else a request of an awake device waits on. -/
theorem requestFail_noCrew (h : ∀ c ∈ s.crews, c.state ≠ 2 ∧ c.state ≠ 3) (h2 : s.power.state ≠ 2) :
    s.requestFail w = if s.sinks = [] ∧ s.domain.role = 0 ∧ s.host.ingests = [] then
      (if s.wakes then none else some (0x02, none)) else some (0x03, none) := by
  have hcrew : s.lowestCrew (fun c => c.state == 2 || c.state == 3) = none :=
    lowestCrew_none fun c hc => by simp [(h c hc).1, (h c hc).2]
  unfold State.requestFail State.firstCrew
  rw [hcrew]
  dsimp only
  by_cases hfree : s.sinks = [] ∧ s.domain.role = 0 ∧ s.host.ingests = []
  · rw [if_pos hfree]
    obtain ⟨hs, hd, hi⟩ := hfree
    rw [if_neg (by simp [hs, hd, hi])]
    cases s.wakes <;> rfl
  · rw [if_pos (by simp [h2]; tauto), if_neg hfree]

end Request

section Sleep
variable {s : State} {m : DictMsg} {x : Session} {r : ObjRow} {n : Nat}

/-- A request for PS2 or PS3, by the state asked for. -/
def sleepRow (n : Nat) (m : DictMsg) (s : State) : Host.Outcome State Fault Refusal :=
  if n = 2 then exec (.powerRequestPs2 m) s else exec (.powerRequestPs3 m) s

theorem sleepRow_eq (hn : n = 2 ∨ n = 3) :
    sleepRow n m s = s.writeRow m (fun i v => i == 0x3000 && v == [byteOf n]) (sleepRule n) := by
  rcases hn with rfl | rfl <;> rfl

variable (hn : n = 2 ∨ n = 3) (hq : s.quiet) (hw : s.writes m x r) (hi : dmIdx m = 0x3000) (hv : dmValue m = [byteOf n])
include hn hq hw hi hv

/-- A request that is turned away. -/
theorem sleepRow_refused {st : Nat} {k : Option Nat} (hf : (s.accepted m x r).requestFail (askedBy m x) = some (st, k)) :
    sleepRow n m s = .next ((s.accepted m x r).respond m { status := st, ty := r.ty.code, crew := k }) := by
  rw [sleepRow_eq hn]
  exact writeRow_denied (mine := fun i v => i == 0x3000 && v == [byteOf n]) (rule := sleepRule n) hq hw (by simp [hi, hv]) hf

/-- A request of an awake device that nothing stands in the way of: entry begins. -/
theorem sleepRow_begins (ha : s.auditRefuses = false) (hs : (s.accepted m x r).power.state = 0)
    (hf : (s.accepted m x r).requestFail (askedBy m x) = none) :
    let u := s.accepted m x r
    let t := (putNum u (askedBy m x)).recorded m r (u.entryOf m x r 0)
    sleepRow n m s = .next { t with
      power := { u.power with state := 4, wakeCause := 0, entry := some { target := n, latched := 0 } } } := by
  intro u t
  have hpower : t.power = u.power := recorded_power _ m r _
  have hbegin : t.beginEntry n = { t with
      power := { u.power with state := 4, wakeCause := 0, entry := some { target := n, latched := 0 } } } := by
    unfold State.beginEntry
    dsimp only
    rw [hpower, hs]
    rfl
  rw [sleepRow_eq hn, writeRow_passes (rule := sleepRule n) hw (by simp [hi, hv]) hf ha, ← hbegin]
  refine congrArg Host.Outcome.next (settle_quiet ?_)
  show (t.beginEntry n).faults.transit = []
  rw [hbegin]
  exact (congrArg Faults.transit (recorded_faults _ m r _)).trans (accepted_quiet s m x r hq)

end Sleep

/-! ### The end of an entry -/

/-- R722, R725: an entry to PS2 ends there, or awake on the way. -/
theorem finishEntry_ps2 (s : State) (latched : Nat) :
    let t := s.finishEntry 2 latched
    t.power.entry = none ∧ (latched = 0 → t.power.state = 2) ∧ (latched ≠ 0 → t.power.state = 5 ∧ t.power.wakeStep = 1) ∧
      t.pins.rails.pd = [false, false, false, false] ∧ t.pins.rails.ed = [false, false] ∧ t.pins.padHold = some .entry := by
  have hpad : ((s.quiesce 2).enterSleep 2).pins.padHold = some .entry := by
    have hports := congrArg Kernel.pins (sleepPorts_kernel (s.quiesce 2))
    show (s.quiesce 2).sleepPorts.pins.padHold = _
    rw [show (s.quiesce 2).sleepPorts.pins = (s.quiesce 2).pins from hports]
    rfl
  intro t
  by_cases hl : latched = 0
  · have ht : t = (s.quiesce 2).enterSleep 2 := if_pos (by simp [hl])
    rw [ht]
    exact ⟨rfl, fun _ => rfl, fun h => absurd hl h, rfl, rfl, hpad⟩
  · have ht : t = ((s.quiesce 2).enterSleep 2).beginWake latched := if_neg (by simp [hl])
    rw [ht]
    exact ⟨rfl, fun h => absurd h hl, fun _ => ⟨rfl, rfl⟩, rfl, rfl, hpad⟩

/-! ### The obligation -/

/-- Settles O55: requests by their checks, the entry by its steps, PS1 and the pad hold by the state they find. -/
theorem powerStatesEntered : Obligations.PowerStatesEntered := by
  unfold Obligations.PowerStatesEntered
  intro passes put
  refine ⟨?_, ?_, ?_, ?_, ?_, ?_, ?_, ?_⟩
  · rintro s m x r ⟨hq, hw, ha⟩ hi hstate u t row free n hn hv
    have hawake : u.power.state = 0 := (congrArg Power.state (accepted_power s m x r)).trans (leavePs1_awake hstate)
    have hsame {α : Type} (f : State → α) (hf : ∀ s w l, f { s with power := w, dict := { s.dict with sessions := l } } = f s) :
        f u = f s := accepted_keeps s m x r f hf
    have hcrews : u.crews = s.crews := hsame State.crews fun _ _ _ => rfl
    have hfree : (u.sinks = [] ∧ u.domain.role = 0 ∧ u.host.ingests = []) = free :=
      hsame (fun s => s.sinks = [] ∧ s.domain.role = 0 ∧ s.host.ingests = []) fun _ _ _ => rfl
    have hwakes : u.wakes = s.wakes := hsame State.wakes fun _ _ _ => rfl
    have hfail (hc : ∀ c ∈ s.crews, c.state ≠ 2 ∧ c.state ≠ 3) :=
      requestFail_noCrew (askedBy m x) (hcrews ▸ hc) (by omega : u.power.state ≠ 2)
    refine ⟨fun k hk => ?_, fun hc hf => ?_, fun hc hf hno => ?_, fun hc hf hyes => ?_⟩
    · refine sleepRow_refused hn hq hw hi hv (requestFail_crew _ ?_)
      exact (hsame (fun s => s.lowestCrew fun c => c.state == 2 || c.state == 3) fun _ _ _ => rfl).trans hk
    · exact sleepRow_refused hn hq hw hi hv ((hfail hc).trans (if_neg (hfree ▸ hf)))
    · exact sleepRow_refused hn hq hw hi hv ((hfail hc).trans ((if_pos (hfree ▸ hf)).trans (if_neg (by simp [hwakes, hno]))))
    · exact sleepRow_begins hn hq hw hi hv ha hawake ((hfail hc).trans ((if_pos (hfree ▸ hf)).trans (if_pos (hwakes.trans hyes))))
  · rintro s m x r e ⟨hq, hw, ha⟩ hi hv hstate he t
    have hpower : t.power = s.power :=
      (recorded_power _ m r _).trans ((accepted_power s m x r).trans (congrArg State.power (leavePs1_other (by omega))))
    have hwake : t.wakeBy 5 = { t with power := { s.power with entry := some { e with latched := e.latched ||| 32 } } } := by
      unfold State.wakeBy
      dsimp only
      rw [hpower, hstate, he]
      rfl
    unfold exec
    refine (writeRow_passes (mine := fun i v => i == 0x3000 && v == [0]) (rule := { act := putNum, after := fun s _ => s.wakeBy 5 }) hw
      (by simp [hi, hv]) rfl ha).trans (congrArg Host.Outcome.next ?_)
    rw [← hwake]
    refine settle_quiet ?_
    show (t.wakeBy 5).faults.transit = []
    rw [hwake]
    exact (congrArg Faults.transit (recorded_faults _ m r _)).trans (accepted_quiet s m x r hq)
  · intro s e hs hp he htgt hcmds
    have hquiesced : s.entryQuiesced = s.finishEntry e.target e.latched := by
      unfold State.entryQuiesced
      rw [he]
      refine if_pos ?_
      rw [hs, hp]
      simpa [State.noneOutstanding] using hcmds
    obtain ⟨h1, h2, h3, h4, h5, h6⟩ := finishEntry_ps2 s e.latched
    obtain ⟨-, -, -, hpins, hpower⟩ := kernel_eq_fields (settle_kernel (s.finishEntry 2 e.latched))
    refine ⟨(s.finishEntry 2 e.latched).settle, ?_, ?_⟩
    · rw [← htgt]
      exact congrArg Host.Outcome.next (congrArg State.settle hquiesced)
    · rw [hpins, hpower]
      exact ⟨h1, h2, h3, h4, h5, h6⟩
  · rintro s hq ⟨c, hc, hout⟩
    have hbusy : s.noneOutstanding = false := by
      unfold State.noneOutstanding
      exact List.all_eq_false.2 ⟨c, hc, by simpa using hout⟩
    have hsame : s.entryQuiesced = s := by
      unfold State.entryQuiesced
      rw [hbusy, Bool.and_false]
      split <;> rfl
    exact congrArg Host.Outcome.next ((congrArg State.settle hsame).trans (settle_quiet hq))
  · intro s e hq hp he
    have habandon : s.entryAbandoned = _ := if_pos (by simp [hp, he])
    exact congrArg Host.Outcome.next ((congrArg State.settle habandon).trans (settle_quiet hq))
  · intro s hq hp
    refine ⟨fun hs hn hc hm => ?_, fun hbusy => ?_, ?_⟩
    · have hidle : s.enterPs1 = _ := if_pos (by
        have hcrews : (s.crews.any fun c => c.state == 2 || c.state == 3) = false :=
          List.any_eq_false.2 fun c h => by simp [(hc c h).1, (hc c h).2]
        simp [hs, hp, hn, hcrews, hm])
      exact congrArg Host.Outcome.next ((congrArg State.settle hidle).trans (settle_quiet hq))
    · have hstays : s.enterPs1 = s := if_neg (by
        rcases hbusy with h | h
        · simp [h]
        · simp [h])
      exact congrArg Host.Outcome.next ((congrArg State.settle hstays).trans (settle_quiet hq))
    · exact congrArg Host.Outcome.next ((congrArg State.settle (leavePs1_other (by omega))).trans (settle_quiet hq))
  · intro s hq hp
    have hleave : s.leavePs1 = _ := if_pos (by simp [hp])
    exact congrArg Host.Outcome.next ((congrArg State.settle hleave).trans (settle_quiet hq))
  · rintro s m x r ⟨hq, hw, ha⟩ hi u e
    have hexec {t : State} (ht : releaseWrite u (askedBy m x) = t) (hf : t.faults = s.faults) :
        exec (.padRelease m) s = .next (t.recorded m r e) := by
      subst ht
      exact writeRow_recorded (mine := fun i _ => i == 0x300A) (rule := { act := releaseWrite }) hq hw (by simp [hi]) ha rfl hf fun _ _ => rfl
    have hfaults : u.faults = s.faults := accepted_faults s m x r
    have hpins : u.pins = s.pins := accepted_keeps s m x r State.pins fun _ _ _ => rfl
    have hpower : s.power.state ≠ 1 → u.power = s.power := fun h =>
      (accepted_power s m x r).trans (congrArg State.power (leavePs1_other h))
    refine ⟨fun hp hh => hexec ?_ hfaults, fun hp hh => hexec ?_ hfaults, fun hp => hexec ?_ hfaults⟩
    · unfold releaseWrite
      dsimp only
      rw [hpower (by omega), hp]
      exact if_pos (by simp [hpins, hh])
    · unfold releaseWrite
      dsimp only
      rw [hpower (by omega), hp]
      exact if_neg (by simpa [hpins] using hh)
    · unfold releaseWrite
      dsimp only
      rw [hpower (by omega), hp]
      rfl

end Sys2Proof.Machine
end


section
/-!
PROOFS. The job domain (R607 to R627): formation, dissolution and registration, status reports, the loss of workers and the end of their
probation, and the statements O42 and O43 from that.
-/
namespace Sys2Proof.Machine

/-! ### Formation -/

/-- R609: formation begins with a probe from each Ryhero port that is up. -/
theorem formDomain_begins {s : State} {q i : Nat} {c : Cmd} (hc : s.readyCmd q i 0x04 (some 0x23) = some c)
    (hsel : s.domain.selected = true) :
    s.formDomain q i = (s.upPorts.foldl (fun s n => s.probe [n])
      (s.modDomain fun d => { d with role := 1, deviceId := 0, answers := [] })).modCmd q i fun x => { x with wait := .probes, done := 1 } := by
  obtain ⟨rfl, rfl, -⟩ := readyCmd_cmd hc
  unfold State.formDomain
  rw [hc]
  exact if_neg (by simp [hsel])

/-- R609: a device that is not selected forms no domain. -/
theorem formDomain_notSelected {s : State} {q i : Nat} {c : Cmd} (hc : s.readyCmd q i 0x04 (some 0x23) = some c)
    (hsel : s.domain.selected = false) : s.formDomain q i = s.complete c { status := 0x02, res0 := 20 } := by
  unfold State.formDomain
  rw [hc]
  exact if_pos (by simp [hsel])

/-- R609: a formation that waits for its probes goes on at the end of a depth. -/
theorem formDomain_goesOn {s : State} {q i : Nat} {c : Cmd} (hc : s.cmd q i = some c) (ho : c.opc = 0x04) (hf : c.fid = 0x23)
    (hw : c.wait = .probes) : s.formDomain q i = s.nextDepth c := by
  have hready : s.readyCmd q i 0x04 (some 0x23) = none := by
    unfold State.readyCmd
    rw [hc]
    exact if_neg (by simp [hw])
  unfold State.formDomain
  rw [hready, hc]
  exact if_pos (by simp [ho, hf, hw])

/-! ### Registration -/

/-- R615: a registration that passes every check of this device is placed when the other members pass it. -/
theorem registerDomain_passes {s : State} {c : Cmd} (hr : s.domain.role = 1) (hm : s.media.stateCode ≠ 5) :
    let used := fun n => s.numberTaken n && !s.domain.lostShards.any fun x => x.1 == n
    structureFail (s.domainData c.data) used ((s.catalogue.filter fun d => used d.dset).flatMap Dataset.extents ++ s.registering c)
      (2 ^ 64 - 1) = none →
    s.regStranger c.data = none → registerFail s.media (s.domainData c.data) isLocal = none →
    (s.remoteFail c.data = none → s.registerDomain c = s.useFree.beginDomainRegister c) ∧
      ∀ f, s.remoteFail c.data = some f → s.registerDomain c = s.useFree.registrationFailed c f := by
  intro used hs hstr hfail
  have hfirst : firstFail [structureFail (s.domainData c.data) used
      ((s.catalogue.filter fun d => used d.dset).flatMap Dataset.extents ++ s.registering c) (2 ^ 64 - 1)] = none := by
    rw [hs]
    rfl
  have hmounted (g : State → State) : s.whenMounted g = g s := if_neg (by simpa using hm)
  unfold State.registerDomain
  rw [if_neg (by simp [hr]), hmounted]
  dsimp only
  rw [hfirst, hstr, hfail]
  constructor
  · intro hf
    rw [hf]
  · intro f hf
    rw [hf]

/-! ### Status reports -/

section Report
variable {s : State} {b : Bytes} (h : (s.domain.inbox.find? fun p => pktType (p.drop 1) == 0x04) = some b)
include h

/-- R620: a report that does not check, or not the manager's to take, or of no member, is only taken from the inbox. -/
theorem takeReport_dropped :
    let w := s.modDomain fun d => { d with inbox := d.inbox.erase b }
    ((w.workers.find? fun m => m.id == pktSrc (b.drop 1)) = none ∨ w.domain.role ≠ 1 ∨ reportOk (pktBody (b.drop 1)) = false) →
    s.takeReport = w := by
  intro w hbad
  unfold State.takeReport
  rw [takeInbox_found h]
  show (match w.workers.find? fun m => m.id == pktSrc (b.drop 1) with | none => w | some m => _) = w
  cases hm : w.workers.find? fun m => m.id == pktSrc (b.drop 1) with
  | none => rfl
  | some m =>
    rw [hm] at hbad
    have hdropped : (w.domain.role != 1 || !reportOk (pktBody (b.drop 1))) = true := by simpa using hbad
    exact if_pos hdropped

variable {m : Member}

/-- R622, R623, R626: a member's report that checks, by its number and the state it tells. -/
theorem takeReport_member :
    let w := s.modDomain fun d => { d with inbox := d.inbox.erase b }
    let body := pktBody (b.drop 1)
    (w.workers.find? fun m => m.id == pktSrc (b.drop 1)) = some m → w.domain.role = 1 → reportOk body = true →
    let note (x : Member) : Member := { x with seq := field body 4 4, seen := w.uptime, portChg := field body 28 4 }
    let t := w.modDomain fun d => { d with members := updWhere (fun x => x.id == m.id) note d.members }
    let u := if field body 28 4 = m.portChg then t else t.reroute
    s.takeReport = if field body 4 4 < m.seq then w.loseWorker m.id else if field body 1 1 = 2 then u.suspect m.id else u := by
  intro w body hm hr hok note t u
  have hu : u = if field body 28 4 != m.portChg then t.reroute else t := by
    by_cases hp : field body 28 4 = m.portChg
    · simp [u, hp]
    · simp [u, hp]
  unfold State.takeReport
  rw [takeInbox_found h]
  show (match w.workers.find? fun m => m.id == pktSrc (b.drop 1) with | none => w | some m => _) = _
  rw [hm]
  have htaken : (w.domain.role != 1 || !reportOk body) = false := by simp [hr, hok]
  refine (if_neg (ne_true_of_eq_false htaken)).trans ?_
  rw [hu]
  simp only [beq_iff_eq]
  rfl

end Report

/-! ### The obligations -/

/-- Settles O42: formation by its depths, dissolution by the jobs open, registration by its checks in order. -/
theorem domainFormedAndDissolved : Obligations.DomainFormedAndDissolved := by
  unfold Obligations.DomainFormedAndDissolved
  refine ⟨?_, ?_, ?_, ?_, ?_, ?_, ?_⟩
  · intro s q i c hc hsel
    exact congrArg Host.Outcome.next (congrArg State.settle (formDomain_begins hc hsel))
  · intro s q i c hq hc hsel
    exact congrArg Host.Outcome.next ((congrArg State.settle (formDomain_notSelected hc hsel)).trans (settle_quiet hq))
  · intro s q i c hc ho hf hw fresh w called
    have hnext := formDomain_goesOn hc ho hf hw
    obtain ⟨rfl, rfl⟩ : c.qid = q ∧ c.cid = i := by
      have := List.find?_some hc
      simpa [Cmd.is] using this
    refine ⟨fun hd hn => ?_, fun hend => ?_⟩
    · have hdepth : s.nextDepth c = _ := if_pos (by simp [hd]; simpa [fresh] using hn)
      exact congrArg Host.Outcome.next (congrArg State.settle (hnext.trans hdepth))
    · have hdepth : s.nextDepth c = s.endForm c := if_neg (by
        rcases hend with h | h
        · simp; omega
        · have hnone : (s.found.filter fun a => a.2.1.length == c.done) = [] := h
          simp [hnone])
      exact congrArg Host.Outcome.next (congrArg State.settle (hnext.trans hdepth))
  · intro s q i c hc hr job
    refine ⟨fun hj => atCmd_effect (fun c s => s.dissolveDomain c) hc ?_, fun k hk => atCmd_effect (fun c s => s.dissolveDomain c) hc ?_⟩
    · unfold State.dissolveDomain
      rw [if_neg (by simp [hr])]
      rw [show (s.lowestCrew fun k => k.job.isSome && k.domainJob.isSome) = none from hj]
      rfl
    · unfold State.dissolveDomain
      rw [if_neg (by simp [hr])]
      rw [show (s.lowestCrew fun k => k.job.isSome && k.domainJob.isSome) = some k from hk]
  · intro d
    exact ⟨rfl, rfl, rfl, rfl, rfl, rfl, rfl⟩
  · intro s q i c hc hr hm used hs hstr hfail
    have hpasses := registerDomain_passes hr hm hs hstr hfail
    cases hf : s.remoteFail c.data with
    | none => exact atCmd_effect (fun c s => s.registerDomain c) hc (hpasses.1 hf)
    | some f => exact atCmd_effect (fun c s => s.registerDomain c) hc (hpasses.2 f hf)
  · intro s q i c hq hc hr
    exact atCmd_settled (fun c s => s.registerDomain c) hc (if_pos (by simpa using hr)) hq

/-- Settles O43: a report by who takes it, its checks, its number and its state; the rest by the device's role. -/
theorem reportsAndWorkers : Obligations.ReportsAndWorkers := by
  unfold Obligations.ReportsAndWorkers
  refine ⟨?_, ?_, ?_, ?_, ?_⟩
  · intro s hr
    have hsend : s.sendReport = _ := if_neg (by simp [hr])
    exact congrArg Host.Outcome.next (congrArg State.settle hsend)
  · intro s hq hr
    have hnone : s.sendReport = s := if_pos (by simpa using hr)
    exact congrArg Host.Outcome.next ((congrArg State.settle hnone).trans (settle_quiet hq))
  · intro s b h w body member
    refine ⟨fun hbad => ?_, fun m hm hr hok => ?_⟩
    · exact congrArg Host.Outcome.next (congrArg State.settle (takeReport_dropped h hbad))
    · have htake := takeReport_member h hm hr hok
      refine ⟨fun hlt => ?_, fun hle h2 => ?_, fun hle h2 => ?_⟩
      · exact congrArg Host.Outcome.next (congrArg State.settle (htake.trans (if_pos hlt)))
      · exact congrArg Host.Outcome.next (congrArg State.settle (htake.trans ((if_neg (Nat.not_lt.2 hle)).trans (if_neg h2))))
      · exact congrArg Host.Outcome.next (congrArg State.settle (htake.trans ((if_neg (Nat.not_lt.2 hle)).trans (if_pos h2))))
  · intro s n hr
    have hlost : s.reportTimeout n = s.loseWorker n := if_pos (by simp [hr])
    exact congrArg Host.Outcome.next (congrArg State.settle hlost)
  · rintro s n m hr hm rfl hp w
    have hany : (s.workers.any fun x => x.id == m.id && x.probation) = true := List.any_eq_true.2 ⟨m, hm, by simp [hp]⟩
    have hends : s.endProbation m.id = _ := if_pos (by simp [hr, hany])
    exact congrArg Host.Outcome.next (congrArg State.settle hends)

end Sys2Proof.Machine
end
